-- ==== Sys2Proof/Word.lean ====
section
/-! DEFINITION. The word types of the Opcen D8 and their plainest arithmetic. -/

namespace Sys2Proof

/-- One byte. -/
abbrev Byte := BitVec 8
/-- One 16-bit half word. -/
abbrev Half := BitVec 16
/-- One Management Space word (R570). -/
abbrev Word := BitVec 32
/-- One 64-bit value (time counter R463, session seeds R276). -/
abbrev Dword := BitVec 64
/-- A Beat number (R14). -/
abbrev BeatNo := BitVec 48
/-- A SHA3-256 digest, byte 0 first. -/
abbrev Digest := List Byte

/-- A physical Wing (R76). -/
abbrev PWing := Fin 8
/-- A logical Wing (R73). -/
abbrev LWing := Fin 8
/-- A camera port (R300). -/
abbrev Port := Fin 16
/-- A camera lane (R297). -/
abbrev Lane := Fin 32
/-- An industrial I/O channel (R385). -/
abbrev Chan := Fin 64
/-- An encoder channel (R375). -/
abbrev EncCh := Fin 4
/-- An Ethernet port (R458). -/
abbrev EthPort := Fin 2
/-- An ISP pipe (R328). -/
abbrev Pipe := Fin 8

end Sys2Proof
end

