-- ==== Sys2Proof/Syntax/Image.lean ====
section
/-! DEFINITION. What a program image declares (R509-R512 and the rules that name its sections), the boot device
configuration (R502) and the 64-byte command and 32-byte tensor descriptor of a plan (R256, R263).
The manual gives no byte layout for PLAN as a whole, ISP, MAP, SEC and NET, so an image is a record of what they declare; the records whose
layout it gives are bytes in it (log entry 73). -/

namespace Sys2Proof

/-- The fourteen tensor formats (R97). -/
inductive Fmt where
  | int4 | int8 | int16 | int32 | uint8 | uint16 | fp4 | fp6e2m3 | fp6e3m2 | e4m3 | e5m2 | bf16 | fp16 | fp32
  deriving DecidableEq, Repr, Inhabited

/-- The nine queues of a Wing sequencer (R71). -/
inductive Queue where
  | me | vt (v : Fin 6) | xf (x : Fin 2)
  deriving DecidableEq, Repr, Inhabited

/-- The fields of a 64-byte command (R256). -/
structure Cmd where
  opcode  : Nat
  flags   : Nat := 0
  waitTok : Nat := 0
  sigTok  : Nat := 0
  waitVal : Nat := 0
  job     : Nat := 0
  wcc     : Nat := 8
  slot    : Nat := 0
  /-- The eight descriptor indices, 0xFFFF for absent (R258). -/
  opnd    : List Nat := []
  /-- Words W0 to W7 (R136, R217). -/
  param   : List Nat := []
  deriving DecidableEq, Repr, Inhabited

/-- The fields of a 32-byte tensor descriptor (R263). -/
structure Desc where
  addr     : Nat
  space    : Nat := 0
  fmt      : Nat := 4
  layout   : Nat := 0
  scaled   : Bool := false
  vsel     : Nat := 0
  adp      : Bool := false
  d0       : Nat := 1
  d1       : Nat := 1
  d2       : Nat := 1
  d3       : Nat := 1
  pitch    : Nat := 32
  scaleIdx : Nat := 0xFFFF
  region   : Nat := 0xFFFF
  /-- Reserved bits and bytes of the descriptor, which must be 0. -/
  resv     : Nat := 0
  deriving DecidableEq, Repr, Inhabited

/-- One command table: the lists of ME, VT0-VT5, XF0 and XF1 in storage order (R255), each command as its 64 bytes, its finish cycle F (R425)
and its checkpoints (queue, n_j, c_j) (R540). -/
structure Table where
  queues : List (List (List Byte)) := []
  finish : Nat := 0
  checks : List (Nat × Nat × Nat) := []
  deriving DecidableEq, Repr, Inhabited

/-- A best-effort step list: job, and the commands of each queue (R253, R273). -/
structure StepList where
  job    : Nat
  queues : List (List (List Byte)) := []
  deriving DecidableEq, Repr, Inhabited

/-- A coarse mask in the Assembler mailbox (R353, R354): its camera and stream, its offset in the mailbox, the stream column of
its first column, and its halo columns at each side (R89). -/
structure MaskArea where
  camera : Nat
  stream : Nat := 0
  offset : Nat := 0
  x0     : Nat := 0
  haloL  : Nat := 0
  haloR  : Nat := 0
  deriving DecidableEq, Repr, Inhabited

/-- What the sample and object part of PLAN declares for a logical Wing (R353, R360). -/
structure AsmPlan where
  /-- Masks in the mailbox, and the (camera, stream) pairs with a photo-eye or lane source that the Wing handles. -/
  masks     : List MaskArea := []
  own       : List (Nat × Nat) := []
  /-- Sequence class of the JOIN records. -/
  seqClass  : Nat := 0
  /-- Assembler mailbox in DRAM: base and size. -/
  mailBase  : Nat := 0
  mailSize  : Nat := 0
  /-- Assembler output area in DRAM. -/
  outBase   : Nat := 0
  outSize   : Nat := 0
  oMax      : Nat := 0
  lMax      : Nat := 65535
  batchCap  : Nat := 0
  batchSize : Nat := 1
  lowWater  : Nat := 0
  sampleW   : Nat := 0
  sampleH   : Nat := 0
  deriving DecidableEq, Repr, Inhabited

/-- The plan of one logical Wing (R253, R48, R171, R172, R242, R261, R425). -/
structure WingPlan where
  /-- The descriptor table, each descriptor as its 32 bytes. -/
  descs     : List (List Byte) := []
  tables    : List Table := []
  schedule  : List Nat := []
  steps     : List StepList := []
  vShare    : Option Nat := none
  qShare    : Option Nat := none
  /-- Slot range: first and count (R171). -/
  slotFirst : Nat := 0
  slotCount : Nat := 0
  /-- KV page range [pb, pb + n) (R172). -/
  pageBase  : Nat := 0
  pageCount : Nat := 0
  rho       : Nat := 0
  /-- The Carried regions of its KV allocator: records, page lists, free list, page map, coarse index (R179). -/
  kvRegions : List Nat := []
  kvLow     : Nat := 0
  beta      : Nat := 8
  tLoad     : Nat := 0
  /-- Gallery address of the result list (R242). -/
  resultAt  : Nat := 0
  /-- Adapter banks (R286): DRAM master and Gallery address of bank 0, bytes of a bank, and the distance from bank 0 to bank 1 in DRAM and in
  the Gallery slice (log entry 16). -/
  adptMaster : Nat := 0
  adptGal   : Nat := 0
  adptSize  : Nat := 0
  adptStep  : Nat := 0
  asm       : AsmPlan := {}
  deriving DecidableEq, Repr, Inhabited

/-- A declared Carried region (R36, R77). -/
structure Region where
  id       : Nat
  owner    : Nat
  /-- true: in the Gallery slice of its Wing, with a mirror in DRAM. -/
  gallery  : Bool := false
  base     : Nat := 0
  stride   : Nat := 0
  size     : Nat := 0
  mirror   : Option Nat := none
  versions : Nat := 3
  deriving DecidableEq, Repr, Inhabited

/-- A sequence class (R170). -/
structure SeqClass where
  kFmt    : Fmt := .bf16
  kScaled : Bool := false
  vFmt    : Fmt := .bf16
  vScaled : Bool := false
  hKv     : Nat := 1
  dK      : Nat := 32
  dV      : Nat := 32
  tP      : Nat := 16
  window  : Nat := 1
  rowsMax : Nat := 1
  cap     : Nat := 4
  nRet    : Nat := 2
  coarse  : Bool := false
  deriving DecidableEq, Repr, Inhabited

/-- A job of the job table (R269). -/
structure Job where
  id        : Nat
  bestEffort : Bool := false
  seed      : Nat := 1
  /-- Per logical Wing: Gallery base and size in 64 KiB. -/
  galShare  : List (Nat × Nat) := []
  /-- Per logical Wing and tile (index 6k + v): base and size in 4 KiB. -/
  tsShare   : List (Nat × Nat) := []
  /-- Base and size in 16 MiB. -/
  dramShare : Nat × Nat := (0, 0)
  wings     : Nat := 0
  deriving DecidableEq, Repr, Inhabited

/-- Trigger source of a lock group (R311). -/
inductive TrigSrc where
  | none | encoder (e : EncCh) (nT : Nat) | period (tT : Nat) | beat
  deriving DecidableEq, Repr, Inhabited

/-- A fusion group (R351). -/
structure Fusion where
  master   : Nat
  partners : List Nat := []
  wT       : Nat := 0
  wX       : Nat := 0
  deriving DecidableEq, Repr, Inhabited

/-- An object source of an output stream (R354, R356). -/
inductive ObjSource where
  | mask | photoEye (ch : Chan) (x0 x1 : Nat) | lanes (cols : List (Nat × Nat))
  deriving DecidableEq, Repr, Inhabited

/-- An encoder channel configuration (R375-R384, R401, R402). -/
structure EncCfg where
  mode      : Nat := 0
  reverse   : Bool := false
  index     : Nat := 0
  filtN     : Nat := 0
  gray      : Bool := false
  wordBits  : Nat := 0
  interp    : Nat := 0
  clkDiv    : Nat := 0
  reqPeriod : Nat := 0
  a2Lo      : Nat := 0
  a2Hi      : Nat := 0
  nIdx      : Nat := 0
  sOff      : Int := 0
  cOff      : Int := 0
  sGain     : Nat := 32768
  cGain     : Nat := 32768
  deriving DecidableEq, Repr, Inhabited

/-- An industrial I/O channel configuration (R385, R405). -/
structure IioCfg where
  dir      : Nat := 0
  invert   : Bool := false
  presc    : Nat := 0
  filtN    : Nat := 0
  record   : Bool := false
  outSrc   : Nat := 0
  statusFn : Nat := 0
  deriving DecidableEq, Repr, Inhabited

/-- A recorded proof of the budget of R63 or R64 for one ejector channel (R65). -/
structure BudgetProof where
  chan     : Nat
  valve    : Bool
  deltaMin : Int
  ok       : Bool
  deriving DecidableEq, Repr, Inhabited

/-- An export stream (R484). -/
structure ExportStream where
  stream : Nat
  /-- Per logical Wing: base and size of the export area in DRAM. -/
  areas  : List (Nat × Nat) := []
  peers  : List Nat := []
  deriving DecidableEq, Repr, Inhabited

/-- The PLAN section. -/
structure Plan where
  device     : Nat := 0xD8
  contract   : Nat := 0x0100
  fPlan      : Nat := 1250000000
  galleryMiB : Nat := 48
  minGiB     : Nat := 32
  minRate    : Nat := 4266
  mode       : Nat := 0
  encChannel : Option EncCh := none
  /-- P in a time-locked plan, P_min otherwise, in ns. -/
  pMin       : Nat := 1000000
  pMax       : Nat := 1000000
  nB         : Nat := 1
  vMax       : Nat := 1
  r          : Nat := 1
  grace      : Nat := 0
  guardNs    : Nat := 2000
  l          : Nat := 7
  noSpare    : Bool := false
  v          : Nat := 0
  q          : Nat := 0
  dR         : Nat := 1
  reviewGiB  : Nat := 0
  /-- Line capacity of each camera port, if declared (R42). -/
  lineCap    : List (Nat × Nat) := []
  wings      : List WingPlan := []
  regions    : List Region := []
  classes    : List SeqClass := []
  kvBase     : Nat := 0
  jobs       : List Job := []
  omega      : Nat := 4096
  rotPeriod  : Nat := 1024
  groups     : List TrigSrc := []
  fusions    : List Fusion := []
  /-- Object source of (camera, stream). -/
  sources    : List (Nat × Nat × ObjSource) := []
  enc        : List EncCfg := []
  iio        : List (Nat × IioCfg) := []
  streams    : List ExportStream := []
  /-- Import channel of (peer dev_id, export stream). -/
  imports    : List (Nat × Nat × Nat) := []
  /-- Candidate interval in steps, and the job that trains adapters (R285). -/
  nCk        : Nat := 1
  trainJob   : Option Nat := none
  /-- Line-data area in DRAM (R365), and the peer import ring of each import channel (R488). -/
  ldBase     : Option Nat := none
  importRings : List (Nat × Nat) := []
  candBase   : Nat := 0
  candSize   : Nat := 0
  promotion  : Bool := false
  predecessor : Digest := []
  budget     : List BudgetProof := []
  /-- Recorded results of the proofs of R94, R329, R418, R425 and R482: footprints, the rule of R87, the KV pool and verdict capacity among
  them. -/
  footOk     : Bool := true
  ownerOk    : Bool := true
  kvOk       : Bool := true
  verdictOk  : Bool := true
  computeOk  : Bool := true
  dramOk     : Bool := true
  pipeOk     : Bool := true
  repeatOk   : Bool := true
  loadOk     : Bool := true
  netOk      : Bool := true
  deriving DecidableEq, Repr, Inhabited

/-- The fields of a 16-byte step of a camera set-up sequence (R305): `width` is the access width code. -/
structure SetupStep where
  op    : Nat
  width : Nat := 0
  addr  : Nat := 0
  value : Nat := 0
  mask  : Nat := 0
  /-- Reserved bits, which must be 0. -/
  resv  : Nat := 0
  deriving DecidableEq, Repr, Inhabited

/-- The fields of a 64-byte CAM entry (R302) with its set-up sequence. -/
structure CamEntry where
  port      : Nat
  laneBase  : Nat := 0
  laneCount : Nat := 1
  speed     : Nat := 1
  required  : Bool := false
  hsUplink  : Bool := false
  adaptive  : Bool := false
  pocxp     : Bool := false
  faultUsed : Bool := false
  peak      : Nat := 0
  lockGroup : Nat := 0xFF
  faultIn   : Nat := 0
  relinkMax : Nat := 0
  pfnc      : Nat := 0
  hdrCode   : Nat := 0
  hdrMask   : Nat := 0
  width     : Nat := 1
  streamId  : Nat := 0
  hbTimeout : Nat := 10
  pwrDelay  : Nat := 0
  seqOff    : Nat := 0
  seq       : List SetupStep := []
  minRev    : Nat := 0x0101
  resv      : Nat := 0
  deriving DecidableEq, Repr, Inhabited

/-- An output stream of a camera (R340). -/
structure OutStream where
  x0     : Nat := 0
  w      : Nat := 1
  fh     : Nat := 1
  fv     : Nat := 1
  /-- 0 mono, 1 R, 2 G, 3 B, 4 RGB. -/
  comp   : Nat := 0
  u8     : Bool := false
  shift  : Nat := 0
  /-- Layout of R137: 0 ROW or 1 C16. -/
  layout : Nat := 0
  /-- Ring base in DRAM (R341). -/
  ring   : Nat := 0
  deriving DecidableEq, Repr, Inhabited

/-- The tables of a camera (R335, R342). -/
structure IspTables where
  black   : List Nat := []
  /-- Defective positions (column, row). -/
  defects : List (Nat × Nat) := []
  offsets : List Int := []
  gains   : List Nat := []
  /-- Nine matrix entries and three offsets (R339). -/
  matrix  : List Int := []
  luts    : List (List Nat) := []
  deriving DecidableEq, Repr, Inhabited

/-- An ISP entry (R328, R329, R332, R333, R340, R344, R346, R350). -/
structure IspEntry where
  port      : Nat
  pipe      : Nat := 0
  input     : Nat := 0
  fC        : Nat := 1
  fill      : Nat := 0
  hF        : Nat := 1
  area      : Bool := false
  delays    : List Nat := []
  streams   : List OutStream := []
  tables    : IspTables := {}
  locked    : Bool := false
  delta     : Nat := 0
  calEn     : Bool := false
  calK      : Nat := 2
  bgMask    : Nat := 0
  nMin      : Nat := 1
  target    : List Nat := []
  mapStream : Nat := 0
  tapRing   : Nat := 0
  /-- Carried region in which logical Wing k stages gains, with its first column and number of columns (R348). -/
  calRegions : List (Nat × Nat × Nat) := []
  oC        : Int := 0
  mC        : Nat := 65536
  bC        : Int := 0
  deriving DecidableEq, Repr, Inhabited

/-- The fields of a 24-byte member record of an ejector set (R390). -/
structure Member where
  kind   : Nat := 0
  chan   : Nat := 0
  v0     : Nat := 0
  nvM1   : Nat := 0
  dist   : Int := 0
  xLo    : Nat := 0
  xHi    : Nat := 0
  wV     : Nat := 0
  onMin  : Nat := 1
  onMax  : Nat := 0
  offMin : Nat := 0
  resv   : Nat := 0
  deriving DecidableEq, Repr, Inhabited

/-- The fields of an 8-byte firing profile (R391). -/
structure Profile where
  fixed  : Bool := false
  full   : Bool := false
  margin : Nat := 0
  a      : Int := 0
  e      : Int := 0
  resv   : Nat := 0
  deriving DecidableEq, Repr, Inhabited

/-- The DISP section (R54, R55, R390, R391). -/
structure Disp where
  /-- Set entries: (code, detail, kind, profile). -/
  map       : List (Nat × Nat × Nat × Nat) := []
  least     : Bool := false
  /-- Member records of the two sets, and the profiles that are set with their numbers, as bytes. -/
  primary   : List (List Byte) := []
  secondary : List (List Byte) := []
  profiles  : List (Nat × List Byte) := []
  deriving DecidableEq, Repr, Inhabited

/-- The fields of a 16-byte INIT register-write entry (R580). -/
structure InitWrite where
  addr  : Nat
  value : Word
  mask  : Word
  lock  : Bool := false
  resv  : Nat := 0
  deriving DecidableEq, Repr, Inhabited

/-- The security map (R518). -/
structure SecMap where
  /-- Secure bits of logical Wings 0-7, pipes, Assembler, sealing unit, OLP data path. -/
  wings     : Nat := 0xFF
  pipes     : Bool := true
  assembler : Bool := true
  sealer    : Bool := true
  olp       : Bool := true
  /-- Non-secure DRAM granules of 16 MiB. -/
  dramOpen  : List Nat := []
  /-- Non-secure Gallery granules of 64 KiB: (logical Wing, granule). -/
  galOpen   : List (Nat × Nat) := []
  deriving DecidableEq, Repr, Inhabited

/-- The NET section (R473, R476, R481, R510). -/
structure NetSec where
  /-- Shares of the eight classes in percent, for ports 0 and 1. -/
  shares   : List (List Nat) := []
  dests    : List Nat := []
  backlog  : Nat := 16384
  tlmRegs  : List Nat := []
  tlmPeriod : Nat := 1
  deriving DecidableEq, Repr, Inhabited

/-- A weight-copy segment (R430): Gallery address, DRAM master, length, digest. -/
structure Segment where
  gal    : Nat
  master : Nat
  len    : Nat
  digest : Digest
  deriving DecidableEq, Repr, Inhabited

/-- A compressed weight section (R241): whether it lies in ADPT or in WGT, where its stream stands in DRAM, the 32-byte descriptor of the tensor
that it feeds, and the logical Wing and descriptor that PLAN plans for that tensor. -/
structure ZStream where
  adpt : Bool := false
  at'  : Nat
  desc : List Byte
  lw   : Nat
  idx  : Nat
  deriving DecidableEq, Repr, Inhabited

/-- The original weight format of the transformed weights that a descriptor of a logical Wing names (R154). -/
structure WinoWeights where
  lw  : Nat
  idx : Nat
  fmt : Fmt
  deriving DecidableEq, Repr, Inhabited

/-- The fields of the SIGN section (R512). -/
structure Sign where
  slot : Nat
  alg  : Nat
  pk   : List Byte := []
  sig  : List Byte := []
  deriving DecidableEq, Repr, Inhabited

/-- The fields of a 64-byte entry of the section table (R510). -/
structure SecEntry where
  id     : List Byte
  offset : Nat
  length : Nat
  digest : Digest
  resv   : Nat
  deriving DecidableEq, Repr, Inhabited

/-- A program image as the image loader reads it (R509-R512). Records whose layout the manual gives are held as their bytes. -/
structure Image where
  /-- The 32-byte header, the 64-byte entries of the section table, and the bytes of the sections in storage order. -/
  header   : List Byte := []
  table    : List (List Byte) := []
  bytes    : List (List Byte) := []
  plan     : Plan := {}
  /-- The 64-byte entries of CAM. -/
  cams     : List (List Byte) := []
  isps     : List IspEntry := []
  secmap   : SecMap := {}
  net      : NetSec := {}
  tok      : List (List Byte) := []
  disp     : Disp := {}
  /-- The 16-byte register writes of INIT. -/
  init     : List (List Byte) := []
  /-- Initial Carried versions: region and bytes (R517). -/
  carried  : List (Nat × List Byte) := []
  segments : List Segment := []
  zstreams : List ZStream := []
  wino     : List WinoWeights := []
  /-- DRAM contents that the loader writes: address and bytes (R515). -/
  dramInit : List (Nat × List Byte) := []
  /-- MAP: alternate areas for a changeover declared, with room enough (R530). -/
  altAreas : Bool := false
  deriving DecidableEq, Repr, Inhabited

/-- An Ethernet port of the boot device configuration (R502, R458). -/
structure EthCfg where
  enabled : Bool := false
  iface   : Nat := 0
  gptp    : Bool := false
  frer    : Bool := false
  deriving DecidableEq, Repr, Inhabited

/-- The boot device configuration (R502). -/
structure BootCfg where
  ports       : List EthCfg := [{ enabled := true }, {}]
  logSync     : Int := -3
  kp          : Nat := 3
  priority1   : Nat := 255
  olpPort     : Nat := 41570
  /-- dev_id of each host, 1-8. -/
  hosts       : List Nat := []
  peers       : List Nat := []
  lpddr5x     : Bool := true
  maxRate     : Nat := 8533
  slotCap     : List Nat := [68719476736, 68719476736]
  gateTimeout : Nat := 60
  crownBaud   : Nat := 115200
  nvmLog      : Nat := 16384
  verdictDests : List Nat := []
  /-- Default shares of the eight OLP classes of each port, in percent (R481). -/
  shares      : List (List Nat) := [[5, 5, 60, 20, 3, 2, 3, 2], [5, 5, 60, 20, 3, 2, 3, 2]]
  deriving DecidableEq, Repr, Inhabited

end Sys2Proof
end

