-- ==== Sys2Proof/Syntax.lean ====
section
/-! DEFINITION. The commands of the D8: one constructor of Instr for each row of spec/opcode_table.json, with what the
environment decides as its operands (which unit, what arrived, how long after the command before it, whether a check
of the silicon failed). What the device itself holds is no operand: it is read from the state. -/

namespace Sys2Proof

/-- Who makes a register access (R570, R577): one of the hosts of the configuration, or Crown. -/
inductive Who where
  | host (i : Fin 8) | crown
  deriving DecidableEq, Repr

/-- An accessor, and whether its request verifies in an open session (R523). -/
structure Acc where
  who     : Who
  session : Bool := false
  deriving DecidableEq, Repr

/-- A secure-world access: its request verifies in an open session (R523). A Crown access never is one (R562). -/
def Acc.secure (a : Acc) : Bool := a.session && a.who != .crown

/-- What a failed check of the silicon reports (R169, R250, R416): the cause of R446, the result bits and fields of the
check summary, the unit of R445 and, for a CRC-32C mismatch, the block's address and whether it lies in DRAM. -/
structure CheckFail where
  cause    : Nat
  unit     : Nat
  result   : Nat := 0
  passes   : Nat := 0
  first    : Nat := 0xFFFFFFFF
  row      : Nat := 0xFFFF
  col      : Nat := 0xFFFF
  expected : Nat := 0
  observed : Nat := 0
  /-- Byte address of the failing block, if the failure is a CRC-32C mismatch. -/
  block    : Option Nat := none
  inDram   : Bool := false
  deriving DecidableEq, Repr

/-- What the hardware met while one engine command ran: a failed check, the channels on which link errors were corrected
and the DRAM byte addresses of blocks that met an uncorrectable one (R415). -/
structure Hw where
  fail   : Option CheckFail := none
  corr   : List (Fin 32) := []
  uncorr : List Nat := []
  /-- Nanoseconds from the command before to the end of this one. -/
  dt     : Nat := 0
  /-- WCLK cycles from its issue to its end. -/
  cycles : Nat := 0
  deriving DecidableEq, Repr

/-- The outcome of a repeat (R420). -/
inductive Repeat where
  /-- Every check passes, `dt` ns after the command before; the repeat took `cycles` WCLK cycles. -/
  | pass (dt cycles : Nat)
  /-- The repeat fails, at the time stamp of its first failing check, `dt` ns after the command before and after `cycles` WCLK
  cycles of it. -/
  | fail (f : CheckFail) (dt cycles : Nat)
  deriving DecidableEq, Repr

/-- The result of a test step (R438): it passes, fails its checkers, fails in memory beyond repair, fails its logic,
repairs rows and columns, or was voided by a supply warning (R440). -/
inductive BistResult where
  | pass | repaired (rows cols : Nat) | checker | memory | logic | void
  deriving DecidableEq, Repr

/-- The result of the start-up test of one Wing (R506): it passes, is repaired with spare rows and column groups, or fails its
checkers (step 2), memory beyond repair or its logic (step 5). -/
inductive WingTest where
  | pass | repaired (rows cols : Nat) | checker | memory | logic
  deriving DecidableEq, Repr

/-- The result of the start-up test (R506): each Wing, the failing DRAM pages, the two voltages of R442 in mV, and whether fuse
read-back passes. -/
structure StartTest where
  wings    : List WingTest := []
  pages    : Nat := 0
  mvIo18   : Nat := 1800
  mvA      : Nat := 750
  fuseOk   : Bool := true
  deriving DecidableEq, Repr

/-- The result of the UCIe and DRAM checks (R503, R504): the number of failed rate steps of the DRAM check, whether a UCIe
module failed every retraining, and what the mode registers give. -/
structure GateResult where
  ucieFail  : Option (Fin 2) := none
  dramFails : Nat := 0
  /-- The channel that failed last, for the index of a hold. -/
  dramChan  : Fin 32 := 0
  gib       : Nat := 64
  ranks2    : Bool := false
  deriving DecidableEq, Repr

/-- A rail of R445. -/
inductive Rail where
  | vddW | vddG | vddA | vddRet | vddSd | vddhSd | vdd2hM | vddqM | vddIo18 | vddIo33 | vddAn
  deriving DecidableEq, Repr, Inhabited

/-- A reset domain other than the device (R533). -/
inductive Domain where
  | die | wing (p : PWing) | pipe (q : Pipe) | port (p : Port) | eth (e : EthPort)
  deriving DecidableEq, Repr

/-- A control acknowledgement of a camera (R306). -/
inductive Ack where
  /-- A normal acknowledgement, with the value read (0 for a write). -/
  | ok (value : Nat)
  | nack
  | wait (ms : Nat)
  deriving DecidableEq, Repr

/-- How the packets of a line arrived (R309). -/
structure LineEnd where
  crcBad   : Nat := 0
  codeBad  : Bool := false
  bytes    : List Byte := []
  deriving DecidableEq, Repr

/-- An image header (R308): pixel-format field and width. -/
structure Header where
  fmt   : Nat
  width : Nat
  deriving DecidableEq, Repr

/-- One absolute position word as it arrives (R379, R380). -/
structure PosWord where
  value : Nat
  crcOk : Bool := true
  nE    : Bool := true
  nW    : Bool := true
  /-- Nanoseconds from the command before to the end of the frame. -/
  dt    : Nat := 0
  deriving DecidableEq, Repr

/-- Why a Crown line is answered err 1 or err 2 (R560). -/
inductive LineError where
  | unknown | malformed
  deriving DecidableEq, Repr

/-- A received Ethernet frame (R459, R462). -/
inductive Frame where
  /-- Longer than 1,522 bytes or with a bad FCS. -/
  | bad
  /-- A PAUSE or priority flow control frame. -/
  | pause
  /-- A fragmented datagram, or a protocol of R462. -/
  | unsupported
  | arp | ndp | echo | igmp
  /-- A gPTP message the D8 answers: Pdelay_Req. -/
  | pdelayReq (seqId : Nat)
  /-- A gPTP Announce: whether BMCA then selects this port as slave, another master, or the D8 itself. -/
  | announce (state : Fin 4)
  /-- A UDP datagram on the OLP port. -/
  | olp (bytes : List Byte)
  deriving DecidableEq, Repr

/-- A MGMT_REQ as received (R478), less its op and data. -/
structure Req where
  host    : Fin 8
  port    : EthPort := 0
  reqId   : Word := 0
  addr    : Word := 0
  session : Word := 0
  tag     : List Byte := []
  ts      : Bool := false
  /-- The queue of class 1 has no room for the response (R481). -/
  full    : Bool := false
  deriving DecidableEq, Repr

/-- The commands of the D8. -/
inductive Instr where
  -- start-up and whole-device resets
  | porstNAssert
  | warmNAssert
  | porstNRelease
  | bringupGatePass (g : GateResult)
  | gateTimeout (index : Byte)
  | startupTestComplete (t : StartTest)
  | imageLoadComplete
  | broadcastPassEnd (missing : List (PWing × List Nat))
  /-- The sequencers whose digests match, and the levels of ENCc_A (bit 2c) and ENCc_B (bit 2c + 1) and of IIOn_IN. -/
  | broadcastComplete (matching : Byte) (ab : Byte) (inputs : Dword)
  | ready
  | holdNotice
  | pocxpHoldRelease
  -- Beats and Landings
  | beatEdgeTime
  | beatEdgeEncoder (dt : Nat)
  | beatEdgePmax
  | speedHold
  | wingDrained (p : PWing) (dt : Nat)
  | graceExpiry
  /-- Whether a handover's results and check values are equal (R79), and the weight segments not read in full (R431). -/
  | landingComplete (equal : Bool) (unread : List (PWing × Nat))
  | landingGuardExpiry
  -- queue control and transfer
  | nop (p : PWing) (q : Queue) (hw : Hw)
  | sync (p : PWing) (q : Queue) (hw : Hw)
  | copy (p : PWing) (x : Fin 2) (hw : Hw)
  | fill (p : PWing) (x : Fin 2) (hw : Hw)
  | assemblerCopy (p : PWing) (x : Fin 2) (hw : Hw)
  -- matrix engine
  | mm (p : PWing) (hw : Hw)
  | conv (p : PWing) (hw : Hw)
  | wino2 (p : PWing) (hw : Hw)
  | wino4 (p : PWing) (hw : Hw)
  | proj (p : PWing) (hw : Hw)
  | attn (p : PWing) (hw : Hw)
  | attnBwd (p : PWing) (hw : Hw)
  | retr (p : PWing) (hw : Hw)
  | seq (p : PWing) (hw : Hw)
  -- vector tiles
  | add (p : PWing) (v : Fin 6) (hw : Hw)
  | sub (p : PWing) (v : Fin 6) (hw : Hw)
  | mul (p : PWing) (v : Fin 6) (hw : Hw)
  | fma (p : PWing) (v : Fin 6) (hw : Hw)
  | min (p : PWing) (v : Fin 6) (hw : Hw)
  | max (p : PWing) (v : Fin 6) (hw : Hw)
  | cmp (p : PWing) (v : Fin 6) (hw : Hw)
  | sel (p : PWing) (v : Fin 6) (hw : Hw)
  | div (p : PWing) (v : Fin 6) (hw : Hw)
  | sqrt (p : PWing) (v : Fin 6) (hw : Hw)
  | rsqrt (p : PWing) (v : Fin 6) (hw : Hw)
  | act (p : PWing) (v : Fin 6) (hw : Hw)
  | cvt (p : PWing) (v : Fin 6) (hw : Hw)
  | qnt (p : PWing) (v : Fin 6) (hw : Hw)
  | dqnt (p : PWing) (v : Fin 6) (hw : Hw)
  | lnorm (p : PWing) (v : Fin 6) (hw : Hw)
  | rmsnorm (p : PWing) (v : Fin 6) (hw : Hw)
  | softmax (p : PWing) (v : Fin 6) (hw : Hw)
  | maxpool (p : PWing) (v : Fin 6) (hw : Hw)
  | avgpool (p : PWing) (v : Fin 6) (hw : Hw)
  | gpool (p : PWing) (v : Fin 6) (hw : Hw)
  | argmax (p : PWing) (v : Fin 6) (hw : Hw)
  | topk (p : PWing) (v : Fin 6) (hw : Hw)
  | gather (p : PWing) (v : Fin 6) (hw : Hw)
  | hist (p : PWing) (v : Fin 6) (hw : Hw)
  | colstat (p : PWing) (v : Fin 6) (hw : Hw)
  | zcomp (p : PWing) (v : Fin 6) (hw : Hw)
  | zdec (p : PWing) (v : Fin 6) (hw : Hw)
  | verdict (p : PWing) (v : Fin 6) (hw : Hw)
  -- integrity, hangs and tests
  | commandRepeat (p : PWing) (q : Queue) (r : Repeat)
  | softResetComplete (p : PWing)
  | softResetTimeout (p : PWing)
  | isolationAck (p : PWing)
  | isolationAckTimeout (p : PWing)
  | latestStartMiss (p : PWing) (q : Queue)
  | progressCheckpointMiss (p : PWing) (q : Queue) (j : Nat)
  | pipeLineTimeout (q : Pipe)
  | assemblerTimeout
  | transactionTimeout
  | sealingTimeout
  | calendarFrameMiss
  | watchdogExpiry
  | domainDrainTimeout (d : Domain) (n : Nat)
  | dieRelease
  | bistStepComplete (p : PWing) (r : BistResult)
  | bistStart (a : Acc) (wing : Fin 8)
  | fuseBurn (a : Acc) (mvIo18 mvA : Nat)
  | fuseBurnComplete (ok : Bool)
  -- supply and temperature
  | supplyWarning (r : Rail) (mv : Nat)
  | supplyRecover (r : Rail) (leastMv usecs cycles : Nat)
  | supplyResetLevel (r : Rail)
  | avsSetpointChange (mv : Nat) (answered : Bool)
  | thermalHigh (tj : Int)
  | thermalTrip (tj : Int)
  | thermalRecover (tj : Int)
  | thermalLow (tj : Int)
  -- camera links
  | attemptStart (p : Port)
  | pwrDelayExpiry (p : Port)
  | laneLock (p : Port)
  | lockTimeout (p : Port)
  | controlAck (p : Port) (a : Ack)
  | controlTimeout (p : Port)
  | waitAckExpiry (p : Port)
  | setupWaitExpiry (p : Port)
  | errorRateCheckDone (p : Port) (ok : Bool)
  | holdoffExpiry (p : Port)
  | lockLoss (l : Lane)
  | codeErrorLimit (l : Lane)
  | heartbeatTimeout (p : Port)
  | heartbeat (p : Port) (dt : Nat)
  | faultInputAssert (p : Port)
  | faultInputDeassert (p : Port)
  | relink (a : Acc) (p : Port)
  | stop (a : Acc) (p : Port)
  | lineFirstPacket (p : Port) (stream : Nat) (dt : Nat)
  | lineComplete (p : Port) (e : LineEnd) (dt : Nat)
  | imageHeader (p : Port) (h : Header)
  | eventPacket (p : Port)
  | pipeLineDone (q : Pipe)
  | triggerEvent (g : Fin 8) (dt : Nat)
  | eyeScanDone (l : Lane) (below at' above : Nat)
  | peakingChange (l : Lane)
  -- image pipeline tables and line data
  | ispTblData (a : Acc) (v : Word)
  | commitMain (a : Acc)
  | commitGain (a : Acc)
  | lineData (h : Fin 8) (e : EthPort) (payload : List Byte) (dt : Nat)
  | lineDataTimeout (h : Fin 8) (msgId : Nat)
  -- encoders and industrial I/O
  | encoderStep (ch : EncCh) (fa fb : Bool) (dt : Nat)
  | indexEdge (ch : EncCh)
  /-- Whether ENCc_DAT is low when the request starts. -/
  | positionRequest (ch : EncCh) (datLow : Bool)
  | positionWord (ch : EncCh) (w : PosWord)
  | startBitTimeout (ch : EncCh)
  | sincosSample (ch : EncCh) (sn cs : Int) (dt : Nat)
  | encoderFaultClear (ch : EncCh)
  | inputEdge (n : Chan) (level : Bool) (dt : Nat)
  | iioHostWrite (a : Acc) (hi : Bool) (v : Word)
  | statusPulseExpiry (n : Chan)
  | calendarWindow (dt : Nat)
  | channelLimitExpiry (valve : Bool) (n : Fin 1024)
  | valveFrame
  -- network and time
  | syncRx (e : EthPort) (theta y : Int)
  | syncReceiptTimeout
  | frameRx (e : EthPort) (f : Frame) (dt : Nat)
  | ethLinkUp (e : EthPort) (rate : Fin 4)
  | ethPcsCheck (e : EthPort) (ok : Bool)
  | blockLockLoss (e : EthPort)
  | mgmtRead (r : Req)
  | mgmtWrite (r : Req) (v : Word)
  | mgmtReadBlock (r : Req) (n : Nat)
  | mgmtWriteBlock (r : Req) (vs : List Word)
  | verdictSend
  | alarmSend
  | eventSend (n : Nat)
  /-- A register snapshot, or the summary of a job; whether its queue is full. -/
  | telemetry (job : Option (Byte × List Byte)) (full : Bool)
  | trace (src : Byte) (bytes : List Byte) (full : Bool)
  | tsReport (e : EthPort)
  /-- How many datagrams the queue of class 3 has room for. -/
  | provisionalSend (room : Nat)
  /-- How many queued PROVISIONALs make room (R481). -/
  | retractSend (displaced : Nat)
  | markSend (displaced : Nat)
  | idleMark (displaced : Nat)
  | markRx (peer : Fin 16) (gen : Word) (beat sealed : BeatNo) (r : Nat) (pMax : Word)
  | provisionalRx (peer : Fin 16) (gen : Word) (payload : List Byte)
  | retractRx (peer : Fin 16) (gen : Word) (payload : List Byte)
  | peerTimeout (peer : Fin 16)
  -- staging, activation and security
  | imgOffer (xfer : Half) (nChunk : Word) (len : Dword) (digest : Digest)
  | imgData (xfer : Half) (chunk : Nat) (data : List Byte)
  | imgPassEnd (xfer : Half)
  | imgNack
  | stagingTimeout
  | stagingVerifyDone (img : Image)
  | arm (a : Acc) (xfer : Half)
  | abort (a : Acc)
  | commit (a : Acc)
  | activationDeviceReset (a : Acc)
  | activationSwitchSlot (a : Acc)
  | changeover (a : Acc)
  | cancel (a : Acc)
  | getCert (a : Acc)
  | attest (a : Acc)
  | openSession (a : Acc)
  | finish (a : Acc)
  | close (a : Acc)
  | keyWrite (a : Acc)
  | keyRevoke (a : Acc)
  | mboxNoOperation (a : Acc) (op : Fin 16)
  | secMboxData (a : Acc) (w : Option Word)
  | sessionIdleTimeout (id : Word)
  -- adapters
  | submit (a : Acc)
  | adapterCancel (a : Acc)
  | adapterStagingDone (verified : Bool)
  | adapterCandidate
  -- power
  | idleRequest (a : Acc)
  | runRequest (a : Acc)
  | standbyRequest (a : Acc)
  | device (a : Acc)
  | die (a : Acc)
  -- records and registers
  | clearLive (a : Acc)
  | clearNvm (a : Acc)
  | clearDump (a : Acc)
  | integrityLogClear (a : Acc)
  /-- Whether the CRC-32C of the record, as stored, is good. -/
  | recDataRead (a : Acc) (good : Bool)
  | loWordCapture (a : Acc) (addr : Word)
  | registerWrite (a : Acc) (addr v : Word)
  | nvmLogAppend
  | retentionMirror
  -- Crown
  | crownId
  | crownRd (addr : Word) (n : Nat)
  | crownWr (addr v : Word)
  | crownLog (n : Nat)
  | crownIlog (i : Nat)
  | crownDump (raw : Bool)
  | crownResetDev
  | crownResetDie
  | crownKey (slot : Nat) (alg : Bool) (usage : Nat) (hash : Digest)
  | crownBaud (n : Nat)
  | crownLineError (e : LineError)
  | bootHaltReport
  -- remaining events
  | dieToDieLinkFailure
  | fatalFirmwareError
  | changeoverPreloadDone
  | ethLinkDown (e : EthPort) (cause : Fin 4)
  | pipeResetComplete (q : Pipe)
  | avsSetpointComplete
  | announceReceiptTimeout (e : EthPort) (state : Fin 4)
  | gptpTxInterval (e : EthPort) (msg : Fin 3) (seqId : Nat)
  | railsInRange
  deriving DecidableEq, Repr

end Sys2Proof
end

