-- ==== Sys2Proof/WellFormed.lean ====
section
/-! DEFINITION. When a command is well formed: its operands lie within the ranges that the manual gives them. -/

namespace Sys2Proof

/-- The lists of a start-up test: one result for each Wing tested, at most eight (R506). -/
def StartTest.wf (t : StartTest) : Bool := decide (t.wings.length ≤ 8)

/-- What the DRAM check may report (R504): 32 to 256 GiB of memory. -/
def GateResult.wf (g : GateResult) : Bool := decide (32 ≤ g.gib ∧ g.gib ≤ 256)

/-- A camera pixel value field and width of an image header are 32-bit fields (R302, R308). -/
def Header.wf (h : Header) : Bool := decide (h.fmt < 2 ^ 32 ∧ h.width < 2 ^ 32)

/-- The 16-bit ADC samples of R381. -/
def adcOk (x : Int) : Bool := decide (-32768 ≤ x ∧ x ≤ 32767)

/-- A command is well formed. Every other operand is bounded by its type. -/
def Instr.wf : Instr → Bool
  | .bringupGatePass g => g.wf
  | .startupTestComplete t => t.wf
  | .imageHeader _ h => h.wf
  | .eyeScanDone _ b a u => decide (b ≤ 4096 ∧ a ≤ 4096 ∧ u ≤ 4096)
  | .sincosSample _ s c _ => adcOk s && adcOk c
  | .mgmtReadBlock _ n => decide (1 ≤ n ∧ n ≤ 64)
  | .mgmtWriteBlock _ vs => decide (1 ≤ vs.length ∧ vs.length ≤ 64)
  | .lineData _ _ payload _ => decide (payload.length ≤ 1364)
  | .imgData _ _ data => decide (data.length ≤ 1280)
  | .imgOffer _ _ _ digest => decide (digest.length = 32)
  | .crownKey slot _ usage hash => decide (slot < 8 ∧ usage < 16 ∧ hash.length = 32)
  | .crownRd _ n => decide (1 ≤ n ∧ n ≤ 64)
  | .crownLog n => decide (1 ≤ n ∧ n ≤ 8192)
  | _ => true

end Sys2Proof
end

