-- ==== Sys2Proof/Decode.lean ====
section
/-! DEFINITION. The word decoder over the rows of spec/opcode_table.json that give bits. No row of the table gives
bits: the D8 takes no command word, and what reaches it are pins, frames, lines and the events of its own engines. -/

namespace Sys2Proof

/-- The command that a word of the table's bits spells: none, as no row has bits. -/
def decodeTableWord (_nbits _w : Nat) : Option Instr := none

end Sys2Proof
end

