-- ==== Sys2Proof/Config.lean ====
section
/-! DEFINITION. What the model leaves uninterpreted: free values, the random source and the post-quantum primitives of
FIPS 203 and FIPS 204, which the manual names and does not define. No proof can see a value of them. -/

namespace Sys2Proof.Config

/-- A free value: nothing constrains it. It is applied to the state's counter of free values (log entry 2). -/
opaque freeValue : Nat → Nat

/-- The temperature sensor nearest to a unit of a physical Wing (R445), whose places the manual does not give. -/
opaque nearSensor : Nat → Nat → Nat

/-- The scale byte of a group whose shared exponent is above 127, by that exponent: R116 gives none (log entry 91). -/
opaque overScale : Int → Nat

/-- Where in the staging area S the ME puts the n-th page that a command fetches, by logical Wing, Beat, command index and n (R181, log entry 96). -/
opaque stagePlace : Nat → Nat → Nat → Nat → Nat

/-- Passes that the ME counts in a command of an attention opcode other than PROJ, by opcode and command index (R169, R207, log entry 97). -/
opaque attnPasses : Nat → Nat → Nat

/-- What a mono output stream shows of an RGB pixel, by its components: R338 and R340 give none (log entry 2). -/
opaque monoOf : List Nat → Nat

/-- The missing colour of a BiColor line of one output pixel, which has no neighbour, by its samples: R338 gives none (log entry 2). -/
opaque lonePixel : List Nat → Nat

/-- A sample that stage 4 reads in no row of the frame that the pipe still has, by row, column and the rows it has: R338 gives none
(log entry 112). -/
opaque missingSample : Nat → Nat → List (List Nat) → Nat

/-- The tag of the padding lines of a frame without a line, by port, lines of the port so far and capture interval: R332 gives none
(log entry 112). -/
opaque padTag : Nat → Nat → Nat → Nat

/-- Counts from the first to the last line of an object that is not tracked, by camera, leading edge and L_max: R354 gives the extent in
lines (log entry 58). -/
opaque untrackedCounts : Nat → Nat → Nat → Nat

/-- The bytes received of a line that a loss cuts, which no command carries: by port, lines of the port so far, tag and capture interval, so that
runs of equal inputs have equal bytes (R278, R309, log entry 2). -/
opaque bytesSoFar : Nat → Nat → Nat → Nat → List (BitVec 8)

/-- Stream packets with a CRC error among those bytes, by the same keys (R324). -/
opaque crcSoFar : Nat → Nat → Nat → Nat → Nat

/-- The D8's random source (R276, R522), by draw number (log entry 11). -/
opaque random64 : Nat → BitVec 64

/-- ML-DSA verification (R501, R512, R522): algorithm (true: ML-DSA-65), public key, context, message, signature. -/
opaque mlDsaVerify : Bool → List (BitVec 8) → String → List (BitVec 8) → List (BitVec 8) → Bool

/-- The ML-DSA-65 public key of a seed (R520). -/
opaque mlDsaPublic : List (BitVec 8) → List (BitVec 8)

/-- The ML-DSA-65 signature with the key of a seed: seed, context, message (R521, R522). -/
opaque mlDsaSign : List (BitVec 8) → String → List (BitVec 8) → List (BitVec 8)

/-- A fresh ML-KEM-768 encapsulation key, by draw number (R522). -/
opaque mlKemKey : Nat → List (BitVec 8)

/-- ML-KEM-768 decapsulation with the key of a draw number; none when a step fails (R522). -/
opaque mlKemDecaps : Nat → List (BitVec 8) → Option (List (BitVec 8))

end Sys2Proof.Config
end

