-- ==== Sys2Proof/Machine/Bytes.lean ====
section
/-! DEFINITION. Byte order, bit fields, checksums, SHA3-256 and the Philox generator: the pure helpers every other
file uses. -/

namespace Sys2Proof.Machine

/-- Bits [l + n - 1 : l] of a number (R11). -/
def bits (x l n : Nat) : Nat := (x >>> l) % 2 ^ n

/-- Bit i of a number. -/
def bit (x i : Nat) : Bool := (x >>> i) % 2 == 1

/-- The n low-order bytes of a number, least significant first (R11). -/
def leBytes : Nat → Nat → List Byte
  | 0, _ => []
  | n + 1, x => BitVec.ofNat 8 x :: leBytes n (x / 256)

/-- The number that little-endian bytes spell (R11). -/
def fromLe : List Byte → Nat
  | [] => 0
  | b :: bs => b.toNat + 256 * fromLe bs

/-- The number in the n bytes at an offset, bytes beyond the end reading 0. -/
def leAt (bs : List Byte) (off n : Nat) : Nat := fromLe ((bs.drop off).take n)

/-- A byte list cut or filled with zeros to a length. -/
def padTo (n : Nat) (bs : List Byte) : List Byte := bs.take n ++ List.replicate (n - bs.length) 0

/-- The signed value of an n-bit two's-complement number. -/
def sext (n x : Nat) : Int := if x % 2 ^ n < 2 ^ (n - 1) then ((x % 2 ^ n : Nat) : Int) else ((x % 2 ^ n : Nat) : Int) - (2 ^ n : Nat)

/-- The n-bit two's-complement encoding of an integer. -/
def twos (n : Nat) (i : Int) : Nat := (i % (2 ^ n : Nat)).toNat

/-- An integer clamped to a range. -/
def clampI (lo hi x : Int) : Int := if x < lo then lo else if hi < x then hi else x

/-- The ceiling of a / b. -/
def ceilDiv (a b : Nat) : Nat := (a + b - 1) / b

/-- A 32-bit counter that saturates (R29, R449). -/
def satInc (w : Word) (n : Nat := 1) : Word := BitVec.ofNat 32 (Nat.min 0xFFFFFFFF (w.toNat + n))

/-- The signed 32-bit difference of two counts (R350, R372). -/
def diff32 (a b : Word) : Int := (a - b).toInt

/-- One bit step of a reflected CRC with the polynomial 0x82F6_3B78. -/
def crc32cBit (c : Word) : Word := if c.getLsbD 0 then (c >>> 1) ^^^ 0x82F63B78#32 else c >>> 1

/-- One byte of CRC-32C. -/
def crc32cByte (c : Word) (b : Byte) : Word :=
  crc32cBit (crc32cBit (crc32cBit (crc32cBit (crc32cBit (crc32cBit (crc32cBit (crc32cBit (c ^^^ b.setWidth 32))))))))

/-- CRC-32C (R39, R69). -/
def crc32c (bs : List Byte) : Word := ~~~ (bs.foldl crc32cByte 0xFFFFFFFF#32)

/-- CRC-16 with polynomial 0x1021 and start value 0xFFFF over bits, most significant first (R397). -/
def crc16 (bs : List Bool) : Half :=
  bs.foldl (fun c b => if c.getLsbD 15 != b then (c <<< 1) ^^^ 0x1021#16 else c <<< 1) 0xFFFF#16

/-! SHA3-256 (FIPS 202), used by R281, R282, R285, R510, R511, R520-R523. -/

/-- A Keccak state as five planes of five 64-bit lanes: lane (x, y) is entry x of plane y. -/
abbrev Keccak := List (List Dword)

/-- A plane moved down by one lane, so that entry x is what entry x + 1 was. -/
def planeNext (p : List Dword) : List Dword := p.drop 1 ++ p.take 1

/-- Step theta: each lane takes the parities of the columns beside it. -/
def kTheta (a : Keccak) : Keccak :=
  let parity := a.foldl (List.zipWith (· ^^^ ·)) (List.replicate 5 0)
  let mask := List.zipWith (fun l r => l ^^^ r.rotateLeft 1) (parity.drop 4 ++ parity.take 4) (planeNext parity)
  a.map fun p => List.zipWith (· ^^^ ·) p mask

/-- The walk of step rho over the lanes: from (1, 0), each time (x, y) to (y, 2x + 3y). -/
def kWalk : Nat → Nat × Nat
  | 0 => (1, 0)
  | t + 1 => let p := kWalk t; (p.2, (2 * p.1 + 3 * p.2) % 5)

/-- The rotation of lane (x, y) in step rho: (t + 1)(t + 2) / 2 at place t of the walk, and 0 for lane (0, 0). -/
def kTurn (x y : Nat) : Nat :=
  match (List.range 24).find? fun t => kWalk t == (x, y) with
  | some t => (t + 1) * (t + 2) / 2
  | none => 0

/-- Steps rho and pi: lane (y, 2x + 3y) takes lane (x, y) rotated. -/
def kMove (a : Keccak) : Keccak :=
  (List.range 5).map fun row => (List.range 5).map fun col =>
    let x := (col + 3 * row) % 5
    ((a.getD col []).getD x 0).rotateLeft (kTurn x col % 64)

/-- Step chi, plane by plane. -/
def kChi (a : Keccak) : Keccak :=
  a.map fun p => List.zipWith (· ^^^ ·) p (List.zipWith (fun u v => ~~~u &&& v) (planeNext p) (planeNext (planeNext p)))

/-- The shift register of step iota after t clocks; its output is bit 0. -/
def kShift : Nat → Nat
  | 0 => 1
  | t + 1 => let r := 2 * kShift t; if 256 ≤ r then r ^^^ 0x171 else r

/-- The constant of round n: output j + 7n of the shift register stands at bit 2^j - 1. -/
def kConst (n : Nat) : Dword :=
  BitVec.ofNat 64 ((List.range 7).foldl (fun c j => c + (kShift (j + 7 * n) % 2) * 2 ^ (2 ^ j - 1)) 0)

/-- Step iota. -/
def kIota (n : Nat) (a : Keccak) : Keccak :=
  match a with
  | (l :: p) :: ps => ((l ^^^ kConst n) :: p) :: ps
  | _ => a

/-- The permutation: 24 rounds. -/
def kPerm (a : Keccak) : Keccak := (List.range 24).foldl (fun a n => kIota n (kChi (kMove (kTheta a)))) a

/-- One block of 136 bytes, 17 lanes, absorbed. -/
def kAbsorb (a : Keccak) (blk : List Byte) : Keccak :=
  kPerm (a.zipIdx.map fun p => p.1.zipIdx.map fun l => l.1 ^^^ BitVec.ofNat 64 (leAt (blk.take 136) (8 * (5 * p.2 + l.2)) 8))

/-- The padding of SHA3 for a rate of 136 bytes. -/
def kPad (n : Nat) : List Byte :=
  if n % 136 = 135 then [0x86] else 0x06 :: (List.replicate (134 - n % 136) 0 ++ [0x80])

def kBlocks : Nat → Keccak → List Byte → Keccak
  | 0, a, _ => a
  | n + 1, a, bs => kBlocks n (kAbsorb a (bs.take 136)) (bs.drop 136)

/-- SHA3-256. -/
def sha3 (bs : List Byte) : Digest :=
  let m := bs ++ kPad bs.length
  let a := kBlocks (m.length / 136) (List.replicate 5 (List.replicate 5 0)) m
  ((a.headD []).take 4).flatMap fun l => leBytes 8 l.toNat

/-- The bytes of an ASCII string. -/
def ascii (s : String) : List Byte := s.toList.map fun c => BitVec.ofNat 8 c.toNat

/-! The keyed generator (R275). -/

/-- One Philox4x32-10 round on key and counter. -/
def philoxRound (k : Word × Word) (c : Word × Word × Word × Word) : (Word × Word) × (Word × Word × Word × Word) :=
  let p0 := 0xD2511F53 * c.1.toNat
  let p1 := 0xCD9E8D57 * c.2.2.1.toNat
  ((k.1 + 0x9E3779B9#32, k.2 + 0xBB67AE85#32),
   (BitVec.ofNat 32 (p1 >>> 32) ^^^ c.2.1 ^^^ k.1, BitVec.ofNat 32 p1,
    BitVec.ofNat 32 (p0 >>> 32) ^^^ c.2.2.2 ^^^ k.2, BitVec.ofNat 32 p0))

def philoxRounds : Nat → (Word × Word) × (Word × Word × Word × Word) → (Word × Word) × (Word × Word × Word × Word)
  | 0, x => x
  | n + 1, x => philoxRounds n (philoxRound x.1 x.2)

/-- Philox4x32-10 (R275). -/
def philox (k : Word × Word) (c : Word × Word × Word × Word) : Word × Word × Word × Word := (philoxRounds 10 (k, c)).2

/-- What a draw is keyed by (R275): seed, command index, beta, logical Wing and stream. -/
structure DrawKey where
  seed  : Nat
  index : Nat
  beta  : Nat
  lwing : Nat
  stream : Nat := 0
  deriving DecidableEq, Repr

/-- Draw i of the keyed generator (R275). -/
def draw (k : DrawKey) (i : Nat) : Nat :=
  let j := i / 8
  let x := philox (BitVec.ofNat 32 k.seed, BitVec.ofNat 32 (k.seed >>> 32))
    (BitVec.ofNat 32 j, BitVec.ofNat 32 k.index, BitVec.ofNat 32 k.beta,
     BitVec.ofNat 32 (bits k.beta 32 16 + (bits k.lwing 0 3 <<< 16) + (bits k.stream 0 5 <<< 19) + (bits j 32 8 <<< 24)))
  let w := match (i % 8) / 2 with
    | 0 => x.1
    | 1 => x.2.1
    | 2 => x.2.2.1
    | _ => x.2.2.2
  if i % 2 = 0 then bits w.toNat 0 16 else bits w.toNat 16 16

end Sys2Proof.Machine
end

