-- ==== Sys2Proof/Machine/Layouts.lean ====
section
/-! DEFINITION. The records of a program image that the manual gives byte for byte: commands and descriptors of a plan (R256, R263), the image
header, section table and signature (R509, R510, R512), camera entries and set-up steps (R302, R305), ejector members and firing profiles
(R390, R391) and register writes of INIT (R580). An image holds their bytes; these functions take them apart. -/

namespace Sys2Proof.Machine

open Sys2Proof

/-! ### Commands and descriptors -/

/-- A 64-byte command (R256). -/
def cmdOf (b : List Byte) : Cmd :=
  { opcode := leAt b 0 1, flags := leAt b 1 1, waitTok := leAt b 2 1, sigTok := leAt b 3 1, waitVal := leAt b 4 2, job := leAt b 6 2
    wcc := leAt b 8 4, slot := leAt b 12 4
    opnd := (List.range 8).map fun j => leAt b (16 + 2 * j) 2, param := (List.range 8).map fun j => leAt b (32 + 4 * j) 4 }

/-- A 32-byte tensor descriptor (R263). -/
def descOf (b : List Byte) : Desc :=
  let fl := leAt b 9 1
  let g := leAt b 10 1
  { addr := leAt b 0 8, space := leAt b 8 1, fmt := bits fl 0 4, layout := bits fl 4 4, scaled := bit g 0, vsel := bits g 1 2, adp := bit g 3
    d0 := leAt b 12 4, d1 := leAt b 16 4, d2 := leAt b 20 2, d3 := leAt b 22 2, pitch := leAt b 24 4, scaleIdx := leAt b 28 2, region := leAt b 30 2
    resv := bits g 4 4 + (leAt b 11 1 <<< 4) }

/-- Descriptor n of a Wing's table. -/
def wingDesc (w : WingPlan) (n : Nat) : Option Desc := (w.descs[n]?).map descOf

/-! ### The image (R509, R510, R512) -/

def imgMagic (i : Image) : Nat := leAt i.header 0 4
def imgFormat (i : Image) : Nat := leAt i.header 4 2
def imgContract (i : Image) : Nat := leAt i.header 6 2
def imgDevice (i : Image) : Nat := leAt i.header 8 2
def imgSections (i : Image) : Nat := leAt i.header 10 2
def imgSvn (i : Image) : Nat := leAt i.header 12 1
def imgLen (i : Image) : Nat := leAt i.header 16 8

/-- The names of the sections, in their order. -/
def sectNames : List String := ["PLAN", "WGT", "CAM", "ISP", "MAP", "SEC", "NET", "TOK", "DISP", "INIT", "ADPT", "SIGN"]

/-- A name in ASCII in a field of four bytes, padded with zeros. -/
def asciiName (t : String) : List Byte := padTo 4 (t.toList.map fun c => BitVec.ofNat 8 c.toNat)

/-- One 64-byte entry of the section table. -/
def sectEntry (b : List Byte) : SecEntry :=
  { id := b.take 4, offset := leAt b 8 8, length := leAt b 16 8, digest := padTo 32 (b.drop 32), resv := leAt b 4 4 + leAt b 24 8 }

/-- The bytes of section n. -/
def sectBytes (i : Image) (n : Nat) : List Byte := i.bytes.getD n []

/-- The SIGN section. -/
def signOf (b : List Byte) : Sign :=
  let n := leAt b 4 4
  { slot := leAt b 0 1, alg := leAt b 1 1, pk := (b.drop 8).take n, sig := (b.drop (12 + n)).take (leAt b (8 + n) 4) }

def imgSign (i : Image) : Sign := signOf (sectBytes i 11)

/-! ### Cameras (R302, R305) -/

/-- A 16-byte step of a set-up sequence. -/
def setupStepOf (b : List Byte) : SetupStep :=
  let fl := leAt b 1 1
  { op := leAt b 0 1, width := bits fl 0 2, addr := leAt b 4 4, value := leAt b 8 4, mask := leAt b 12 4, resv := bits fl 2 6 + (leAt b 2 2 <<< 6) }

/-- A 64-byte CAM entry, with the steps of its set-up sequence in the CAM section. -/
def camEntryOf (cam b : List Byte) : CamEntry :=
  let lanes := leAt b 1 1
  let fl := leAt b 3 1
  let off := leAt b 32 4
  { port := leAt b 0 1, laneBase := bits lanes 0 5, laneCount := bits lanes 5 3, speed := leAt b 2 1
    required := bit fl 0, hsUplink := bit fl 1, adaptive := bit fl 2, pocxp := bit fl 3, faultUsed := bit fl 4
    peak := leAt b 4 1, lockGroup := leAt b 5 1, faultIn := leAt b 6 1, relinkMax := leAt b 7 1, pfnc := leAt b 8 4, hdrCode := leAt b 12 4
    hdrMask := leAt b 16 4, width := leAt b 20 4, streamId := leAt b 24 4, hbTimeout := leAt b 28 2, pwrDelay := leAt b 30 2, seqOff := off
    seq := (List.range (leAt b 36 2)).map fun j => setupStepOf ((cam.drop (off + 16 * j)).take 16), minRev := leAt b 38 2
    resv := bits fl 5 3 + (leAt b 40 24 <<< 3) }

/-- The CAM entries of an image. -/
def camEntries (i : Image) : List CamEntry := i.cams.map (camEntryOf (sectBytes i 2))

/-! ### DISP and INIT (R390, R391, R580) -/

/-- A 24-byte member record. -/
def memberOf (b : List Byte) : Member :=
  { kind := leAt b 0 1, chan := leAt b 1 1, v0 := leAt b 2 1, nvM1 := leAt b 3 1, dist := sext 32 (leAt b 4 4), xLo := leAt b 8 2, xHi := leAt b 10 2
    wV := leAt b 12 4, onMin := leAt b 16 2, onMax := leAt b 18 2, offMin := leAt b 20 2, resv := leAt b 22 2 }

def primarySet (d : Disp) : List Member := d.primary.map memberOf
def secondarySet (d : Disp) : List Member := d.secondary.map memberOf

/-- An 8-byte firing profile: e is a length in fixed mode, else an offset. -/
def profileRec (b : List Byte) : Profile :=
  let fl := leAt b 0 1
  let e := leAt b 4 2
  { fixed := bit fl 0, full := bit fl 1, margin := leAt b 1 1, a := sext 16 (leAt b 2 2), e := if bit fl 0 then e else sext 16 e
    resv := bits fl 2 6 + leAt b 6 2 }

/-- A 16-byte register write. -/
def initWriteOf (b : List Byte) : InitWrite :=
  let fl := leAt b 12 1
  { addr := leAt b 0 4, value := BitVec.ofNat 32 (leAt b 4 4), mask := BitVec.ofNat 32 (leAt b 8 4), lock := bit fl 0
    resv := bits fl 1 7 + leAt b 13 3 }

/-- The register writes of INIT, in list order. -/
def initWrites (i : Image) : List InitWrite := i.init.map initWriteOf

end Sys2Proof.Machine
end

