-- ==== Sys2Proof/Machine/Num.lean ====
section
/-! DEFINITION. Number formats and arithmetic (03_number_formats.md): exact values, rounding, conversion, block scales,
the exact operations of the vector tiles and the correctly rounded exponential, logarithm and hyperbolic tangent. -/

namespace Sys2Proof.Machine

/-- An exact value: NaN, an infinity, or (-1)^neg * m * 2^e. -/
inductive Val where
  | nan
  | inf (neg : Bool)
  | num (neg : Bool) (m : Nat) (e : Int)
  deriving DecidableEq, Repr, Inhabited

/-- A rounding mode with its draw for stochastic rounding (R110, R112). -/
inductive Rnd where
  | rne | rtz | sr (u : Nat)
  deriving DecidableEq, Repr, Inhabited

/-- The format code of R97; codes 0xE and 0xF are not used (R98). -/
def fmtOfCode : Nat → Option Fmt
  | 0 => some .int4 | 1 => some .int8 | 2 => some .int16 | 3 => some .int32 | 4 => some .uint8 | 5 => some .uint16
  | 6 => some .fp4 | 7 => some .fp6e2m3 | 8 => some .fp6e3m2 | 9 => some .e4m3 | 10 => some .e5m2
  | 11 => some .bf16 | 12 => some .fp16 | 13 => some .fp32 | _ => none

def fmtCode : Fmt → Nat
  | .int4 => 0 | .int8 => 1 | .int16 => 2 | .int32 => 3 | .uint8 => 4 | .uint16 => 5 | .fp4 => 6 | .fp6e2m3 => 7
  | .fp6e3m2 => 8 | .e4m3 => 9 | .e5m2 => 10 | .bf16 => 11 | .fp16 => 12 | .fp32 => 13

/-- Element width in bits (R99). -/
def fmtBits : Fmt → Nat
  | .int4 | .fp4 => 4
  | .fp6e2m3 | .fp6e3m2 => 6
  | .int8 | .uint8 | .e4m3 | .e5m2 => 8
  | .int16 | .uint16 | .bf16 | .fp16 => 16
  | .int32 | .fp32 => 32

/-- Elements of a 512-byte block (R99). -/
def fmtPerBlock (f : Fmt) : Nat := if fmtBits f = 6 then 672 else 4096 / fmtBits f

def fmtIsInt : Fmt → Bool
  | .int4 | .int8 | .int16 | .int32 | .uint8 | .uint16 => true
  | _ => false

/-- FP4, FP6 and FP8: the formats that scaled use allows (R107). -/
def fmtIsNarrowFloat : Fmt → Bool
  | .fp4 | .fp6e2m3 | .fp6e3m2 | .e4m3 | .e5m2 => true
  | _ => false

def fmtIsFp8 : Fmt → Bool
  | .e4m3 | .e5m2 => true
  | _ => false

def fmtSigned : Fmt → Bool
  | .uint8 | .uint16 => false
  | _ => true

/-- Least and greatest values of an integer format (R101). -/
def intMin : Fmt → Int
  | .int4 => -8 | .int8 => -128 | .int16 => -32768 | .int32 => -2147483648 | _ => 0
def intMax : Fmt → Int
  | .int4 => 7 | .int8 => 127 | .int16 => 32767 | .int32 => 2147483647 | .uint8 => 255 | .uint16 => 65535 | _ => 0

/-- Exponent bits, mantissa bits and bias (R103). -/
def fExp : Fmt → Nat
  | .fp4 => 2 | .fp6e2m3 => 2 | .fp6e3m2 => 3 | .e4m3 => 4 | .e5m2 => 5 | .bf16 => 8 | .fp16 => 5 | .fp32 => 8 | _ => 0
def fMan : Fmt → Nat
  | .fp4 => 1 | .fp6e2m3 => 3 | .fp6e3m2 => 2 | .e4m3 => 3 | .e5m2 => 2 | .bf16 => 7 | .fp16 => 10 | .fp32 => 23 | _ => 0
def fBias : Fmt → Nat
  | .fp4 => 1 | .fp6e2m3 => 1 | .fp6e3m2 => 3 | .e4m3 => 7 | .e5m2 => 15 | .bf16 => 127 | .fp16 => 15 | .fp32 => 127 | _ => 0

/-- Code of the largest finite magnitude (R103). -/
def fMaxCode : Fmt → Nat
  | .fp4 => 0x7 | .fp6e2m3 => 0x1F | .fp6e3m2 => 0x1F | .e4m3 => 0x7E | .e5m2 => 0x7B
  | .bf16 => 0x7F7F | .fp16 => 0x7BFF | .fp32 => 0x7F7FFFFF | _ => 0

/-- The canonical NaN (R105); +0 for FP4 and FP6, and 0 for integers (R114). -/
def canonNan : Fmt → Nat
  | .e4m3 => 0x7F | .e5m2 => 0x7E | .bf16 => 0x7FC0 | .fp16 => 0x7E00 | .fp32 => 0x7FC00000 | _ => 0

/-- The sign bit of a floating-point format. -/
def signBit (f : Fmt) : Nat := 2 ^ (fmtBits f - 1)

/-- An integer as an exact value; 0 is +0. -/
def valOfInt (i : Int) : Val := .num (decide (i < 0)) i.natAbs 0

/-- The value a code stands for (R101, R103, R104, R105). -/
def decodeVal (f : Fmt) (code : Nat) : Val :=
  if fmtIsInt f then
    valOfInt (if fmtSigned f then sext (fmtBits f) code else ((code % 2 ^ fmtBits f : Nat) : Int))
  else
    let s := bit code (fmtBits f - 1)
    let e := bits code (fMan f) (fExp f)
    let m := bits code 0 (fMan f)
    let special := match f with
      | .e4m3 => e == 15 && m == 7
      | .e5m2 | .bf16 | .fp16 | .fp32 => e == 2 ^ fExp f - 1
      | _ => false
    if special then (if f != .e4m3 && m == 0 then .inf s else .nan)
    else if e = 0 then .num s m (1 - (fBias f : Int) - fMan f)
    else .num s (2 ^ fMan f + m) ((e : Int) - fBias f - fMan f)

/-- Rounds m * 2^(-sh) to an integer (R111, R112). -/
def roundShift (r : Rnd) (m sh : Nat) : Nat :=
  let lo := m >>> sh
  let rem := m % 2 ^ sh
  if rem = 0 then lo
  else match r with
    | .rtz => lo
    | .rne =>
      if 2 * rem < 2 ^ sh then lo
      else if 2 ^ sh < 2 * rem then lo + 1
      else lo + lo % 2
    | .sr u => if 65536 ≤ (65536 * rem) >>> sh + u then lo + 1 else lo

/-- Rounds a magnitude m * 2^e to the grid of step 2^q. -/
def roundAt (r : Rnd) (m : Nat) (e q : Int) : Nat :=
  if e < q then roundShift r m (q - e).toNat else m <<< (e - q).toNat

/-- Rounds an exact value to an integer, saturated to a range, NaN to 0 (R111, R114). -/
def roundInt (r : Rnd) (lo hi : Int) : Val → Int
  | .nan => 0
  | .inf neg => if neg then lo else hi
  | .num neg m e => let i : Int := roundAt r m e 0; clampI lo hi (if neg then -i else i)

/-- Converts an exact value to a format: the code of R111-R114, with the saturate flag of R113. -/
def encodeVal (f : Fmt) (sat : Bool) (r : Rnd) (v : Val) : Nat :=
  if fmtIsInt f then twos (fmtBits f) (roundInt r (intMin f) (intMax f) v)
  else
    let narrow := fmtBits f < 8
    let sgn := fun (n : Bool) (c : Nat) => if n then signBit f + c else c
    let overflow := fun (n : Bool) =>
      if narrow || (fmtIsFp8 f && sat) then sgn n (fMaxCode f)
      else if f == .e4m3 then 0x7F
      else sgn n ((2 ^ fExp f - 1) <<< fMan f)
    match v with
    | .nan => canonNan f
    | .inf n => overflow n
    | .num n m e =>
      if m = 0 then sgn n 0
      else
        let qMin : Int := 1 - (fBias f : Int) - fMan f
        let q : Int := max qMin ((Nat.log2 m : Int) + e - fMan f)
        let c := (q - qMin).toNat <<< fMan f + roundAt r m e q
        if c ≤ fMaxCode f then sgn n c
        else match r with
          | .rtz => sgn n (fMaxCode f)
          | _ => overflow n

/-- Rounds an exact value to a floating-point format and reads it back. -/
def roundTo (f : Fmt) (r : Rnd) (v : Val) : Val := decodeVal f (encodeVal f false r v)

/-- Rounds to FP32 under RNE. -/
def rne32 (v : Val) : Val := roundTo .fp32 .rne v

/-! Exact operations (R125). -/

def Val.neg? : Val → Bool
  | .nan => false | .inf n => n | .num n _ _ => n

def Val.isNan : Val → Bool
  | .nan => true | _ => false

def Val.isInf : Val → Bool
  | .inf _ => true | _ => false

def Val.isZero : Val → Bool
  | .num _ 0 _ => true | _ => false

def vZero : Val := .num false 0 0

def vOne : Val := .num false 1 0

def vNeg : Val → Val
  | .nan => .nan | .inf n => .inf (!n) | .num n m e => .num (!n) m e

def vAbs : Val → Val
  | .nan => .nan | .inf _ => .inf false | .num _ m e => .num false m e

def vMul (a b : Val) : Val :=
  match a, b with
  | .nan, _ => .nan
  | _, .nan => .nan
  | .inf n, .inf k => .inf (n != k)
  | .inf n, .num k m _ => if m = 0 then .nan else .inf (n != k)
  | .num k m _, .inf n => if m = 0 then .nan else .inf (n != k)
  | .num n m e, .num k l d => .num (n != k) (m * l) (e + d)

/-- The signed mantissa of a number over the exponent q, for q not above its exponent. -/
def alignTo (q : Int) (n : Bool) (m : Nat) (e : Int) : Int :=
  let a : Int := ((m <<< (e - q).toNat : Nat) : Int)
  if n then -a else a

/-- An exact sum. A zero sum is +0 unless both terms are negative zeros (DEDUCED from IEEE 754-2019, R125). -/
def vAdd (a b : Val) : Val :=
  match a, b with
  | .nan, _ => .nan
  | _, .nan => .nan
  | .inf n, .inf k => if n = k then .inf n else .nan
  | .inf n, .num _ _ _ => .inf n
  | .num _ _ _, .inf n => .inf n
  | .num n m e, .num k l d =>
    let q := min e d
    let s := alignTo q n m e + alignTo q k l d
    if s = 0 then .num (n && k) 0 q else .num (decide (s < 0)) s.natAbs q

def vSub (a b : Val) : Val := vAdd a (vNeg b)

def vFma (a b c : Val) : Val := vAdd (vMul a b) c

/-- Order of two values that are not NaN: -1, 0 or 1; zeros are equal. -/
def vCmp (a b : Val) : Int :=
  match a, b with
  | .inf n, .inf k => if n = k then 0 else if n then -1 else 1
  | .inf n, _ => if n then -1 else 1
  | _, .inf k => if k then 1 else -1
  | .num n m e, .num k l d =>
    let q := min e d
    let s := alignTo q n m e - alignTo q k l d
    if s < 0 then -1 else if 0 < s then 1 else 0
  | _, _ => 0

def vLt (a b : Val) : Bool := !a.isNan && !b.isNan && vCmp a b == -1
def vEq (a b : Val) : Bool := !a.isNan && !b.isNan && vCmp a b == 0

/-- MIN and MAX of R223: NaN if either is NaN, -0 below +0. -/
def vMin (a b : Val) : Val :=
  if a.isNan || b.isNan then .nan
  else if vCmp a b = 0 then (if a.neg? then a else b)
  else if vCmp a b < 0 then a else b
def vMax (a b : Val) : Val :=
  if a.isNan || b.isNan then .nan
  else if vCmp a b = 0 then (if a.neg? then b else a)
  else if vCmp a b < 0 then b else a

/-- Marks an inexact magnitude: one lower bit that stands for the discarded rest. -/
def jam (exact : Bool) (n : Bool) (m : Nat) (e : Int) : Val :=
  if exact then .num n m e else .num n (2 * m + 1) (e - 1)

/-- A quotient to 96 bits or more, jammed if inexact. -/
def vDiv (a b : Val) : Val :=
  match a, b with
  | .nan, _ => .nan
  | _, .nan => .nan
  | .inf _, .inf _ => .nan
  | .inf n, .num k _ _ => .inf (n != k)
  | .num n _ _, .inf k => .num (n != k) 0 0
  | .num n m e, .num k l d =>
    if l = 0 then (if m = 0 then .nan else .inf (n != k))
    else
      let sh := 96 + Nat.log2 l
      let x := m <<< sh
      jam (x % l == 0) (n != k) (x / l) (e - d - sh)

/-- One step of the integer square root: bit i of the root. -/
def isqrtStep (x r i : Nat) : Nat := if (r + 2 ^ i) * (r + 2 ^ i) ≤ x then r + 2 ^ i else r

/-- The integer square root of a number below 4^k, bit by bit from bit k - 1. -/
def isqrt : Nat → Nat → Nat → Nat
  | 0, _, r => r
  | k + 1, x, r => isqrt k x (isqrtStep x r k)

/-- The floor of the square root. -/
def natSqrt (x : Nat) : Nat := isqrt (Nat.log2 x / 2 + 1) x 0

/-- The square root of m * 2^e to 96 bits or more, jammed if inexact or if `exact` is false. -/
def sqrtMag (exact : Bool) (m : Nat) (e : Int) : Val :=
  let sh : Nat := 200 + (if (e - 200) % 2 = 0 then 0 else 1)
  let x := m <<< sh
  let r := natSqrt x
  jam (exact && r * r == x) false r ((e - sh) / 2)

def vSqrt : Val → Val
  | .nan => .nan
  | .inf n => if n then .nan else .inf false
  | .num n m e => if m = 0 then .num n 0 0 else if n then .nan else sqrtMag true m e

/-- 1 / sqrt x, with the infinities of R223 at the zeros. -/
def vRsqrt : Val → Val
  | .nan => .nan
  | .inf n => if n then .nan else vZero
  | .num n m e =>
    if m = 0 then .inf n
    else if n then .nan
    else
      let sh := 260 + Nat.log2 m
      let x := 2 ^ sh
      sqrtMag (x % m == 0) (x / m) (-e - sh)

/-! Exponential, logarithm and hyperbolic tangent in fixed point with 512 fraction bits. No binary32 argument other
than the exact cases gives a result so near a rounding boundary that the last of these bits could matter (log entry 12). -/

/-- Fraction bits of the fixed point. -/
def fxBits : Nat := 512

/-- The fixed-point image of m * 2^e, exact for e at least -512. -/
def fxOf (n : Bool) (m : Nat) (e : Int) : Int :=
  let a : Int := if e + fxBits < 0 then ((m >>> (-(e + fxBits)).toNat : Nat) : Int) else ((m <<< (e + fxBits).toNat : Nat) : Int)
  if n then -a else a

/-- Taylor series of exp on a fixed-point argument below 1/64 in magnitude. -/
def fxExpSmall (x : Int) : Int :=
  ((List.range 80).foldl (fun (p : Int × Int) k => let t := p.1 * x / ((2 ^ fxBits : Nat) : Int) / ((k + 1 : Nat) : Int); (t, p.2 + t))
    ((2 ^ fxBits : Nat), (2 ^ fxBits : Nat))).2

/-- exp of a fixed-point argument below 128 in magnitude: fourteen halvings, then as many squarings. -/
def fxExp (x : Int) : Nat :=
  (List.range 14).foldl (fun y _ => y * y / 2 ^ fxBits) (fxExpSmall (x / 16384)).toNat

/-- The exact exponential, jammed: beyond the binary32 range any value that rounds alike. -/
def vExp : Val → Val
  | .nan => .nan
  | .inf n => if n then vZero else .inf false
  | .num n m e =>
    if m = 0 then vOne
    else if (Nat.log2 m : Int) + e ≥ 7 then (if n then .num false 1 (-400) else .num false 1 400)
    else jam false false (fxExp (fxOf n m e)) (-(fxBits : Int))

/-- 2 * atanh z in fixed point, for |z| at most 1/3. -/
def fxAtanh2 (z : Int) : Int :=
  let one : Int := (2 ^ fxBits : Nat)
  let z2 := z * z / one
  2 * ((List.range 170).foldl (fun (p : Int × Int) k => (p.1 * z2 / one, p.2 + p.1 / ((2 * k + 1 : Nat) : Int))) (z, 0)).2

/-- ln 2 in fixed point. -/
def fxLn2 : Int := fxAtanh2 (((2 ^ fxBits : Nat) : Int) / 3)

/-- The exact natural logarithm, jammed (R225 value 8). -/
def vLn : Val → Val
  | .nan => .nan
  | .inf n => if n then .nan else .inf false
  | .num n m e =>
    if m = 0 then .inf true
    else if n then .nan
    else
      let l := Nat.log2 m
      -- m = f * 2^l with 1 <= f < 2; f above 3/2 is halved
      let up : Nat := if 3 * 2 ^ l < 2 * m then 1 else 0
      let den := 2 ^ (l + up)
      let k : Int := e + (l : Int) + up
      if m = den ∧ k = 0 then vZero
      else
        let z := (((m : Int) - (den : Int)) * ((2 ^ fxBits : Nat) : Int)) / (((m + den : Nat)) : Int)
        let y := k * fxLn2 + fxAtanh2 z
        jam false (decide (y < 0)) y.natAbs (-(fxBits : Int))

/-- The exact hyperbolic tangent, jammed (R225 value 4). -/
def vTanh : Val → Val
  | .nan => .nan
  | .inf n => .num n 1 0
  | .num n m e =>
    if m = 0 then .num n 0 0
    else if (Nat.log2 m : Int) + e ≥ 5 then .num n (2 ^ 90 - 1) (-90)
    else
      let y := fxExp (2 * fxOf false m e)
      let one := 2 ^ fxBits
      jam false n ((y - one) * one / (y + one)) (-(fxBits : Int))

/-- E of R199: the correctly rounded exponential in FP32. -/
def expE (x : Val) : Val := rne32 (vExp x)

/-- The fixed reduction red of R227. -/
def redPairs : List Val → List Val
  | a :: b :: xs => rne32 (vAdd a b) :: redPairs xs
  | xs => xs

/-- Lane j of the 64 partial sums of R227. -/
def redLane (j : Nat) (xs : List Val) : Val :=
  ((List.range (ceilDiv (xs.length - j) 64)).foldl (fun acc i => rne32 (vAdd acc (xs.getD (64 * i + j) vZero))) vZero)

def red (xs : List Val) : Val :=
  ((redPairs (redPairs (redPairs (redPairs (redPairs (redPairs ((List.range 64).map fun j => redLane j xs))))))).headD vZero)

/-! Block scales (R107, R116, R117). -/

/-- The value of an E8M0 scale byte (R107). -/
def scaleVal (x : Nat) : Val := if x = 0xFF then .nan else .num false 1 ((x : Int) - 127)

/-- Largest exponent of a normal value of an element format (R116). -/
def scaleK : Fmt → Int
  | .fp4 | .fp6e2m3 => 2 | .fp6e3m2 => 4 | .e4m3 => 8 | .e5m2 => 15 | _ => 0

/-- The exponent of the leading bit of a finite magnitude. -/
def vLog2 : Val → Int
  | .num _ m e => (Nat.log2 m : Int) + e
  | _ => 0

/-- Block-scaled quantisation of one group (R116): the scale byte and the element codes. -/
def quantGroup (f : Fmt) (rs : List Rnd) (xs : List Val) : Nat × List Nat :=
  if xs.any (fun x => x.isNan || x.isInf) then (0xFF, xs.map fun _ => 0)
  else if xs.all Val.isZero then (0x7F, xs.map fun x => if x.neg? then signBit f else 0)
  else
    let aMax := xs.foldl (fun a x => vMax a (vAbs x)) vZero
    let x0 : Int := max (-127) (vLog2 aMax - scaleK f)
    (if x0 ≤ 127 then (x0 + 127).toNat else Config.overScale x0 % 256,
     (xs.zip rs).map fun p => encodeVal f true p.2 (vMul p.1 (.num false 1 (-x0))))

/-! The Barrel (R119-R124). -/

/-- One Barrel: its exact sum in units of 2^-32 and its flags. -/
structure Barrel where
  sum  : Int := 0
  nan  : Bool := false
  pinf : Bool := false
  ninf : Bool := false
  deriving DecidableEq, Repr, Inhabited

/-- Adds one exact product (R119, R121). -/
def Barrel.addVal (b : Barrel) : Val → Barrel
  | .nan => { b with nan := true }
  | .inf n =>
    let b := if n then { b with ninf := true } else { b with pinf := true }
    { b with nan := b.nan || (b.pinf && b.ninf) }
  | .num n m e => { b with sum := b.sum + alignTo (-32) n m e }

/-- The exact value of a Barrel with its flags; a zero is +0 (R106, R121). -/
def Barrel.val (b : Barrel) : Val :=
  if b.nan then .nan
  else if b.pinf then .inf false
  else if b.ninf then .inf true
  else .num (decide (b.sum < 0)) b.sum.natAbs (-32)

/-- The ordered running sum of one group of exact products (R123, R124). -/
def orderedStep (s : Val) (g : Val) : Val := rne32 (vAdd s g)

/-- The exact sum of a list of products. The sum of zeros only takes the sign IEEE 754-2019 gives (R124). -/
def exactSum : List Val → Val
  | [] => vZero
  | x :: xs => xs.foldl vAdd x

end Sys2Proof.Machine
end

