-- ==== Sys2Proof/Machine/Mem.lean ====
section
/-! DEFINITION. Byte-addressed memory in canonical form, and the placement of elements in 512-byte blocks (R68, R69,
R99, R100, R138, R214). -/

namespace Sys2Proof.Machine

/-- Memory contents: address and byte, addresses strictly rising, no byte that an unlisted address reads as. -/
abbrev Memory := List Host.Cell

/-- What a byte of memory reads as that nothing has written (log entry 8). -/
def memDefault : Byte := 0

/-- The canonical form. -/
abbrev Memory.wf (m : Memory) : Prop :=
  m.Pairwise (fun a b => a.1 < b.1) ∧ ∀ c ∈ m, c.2 ≠ memDefault

/-- The byte at an address. -/
def memRead : Memory → Nat → Byte
  | [], _ => memDefault
  | c :: m, a => if c.1 = a then c.2 else memRead m a

/-- Stores one byte. -/
def memWrite : Memory → Nat → Byte → Memory
  | [], a, b => if b = memDefault then [] else [(a, b)]
  | c :: m, a, b =>
    if a < c.1 then (if b = memDefault then c :: m else (a, b) :: c :: m)
    else if a = c.1 then (if b = memDefault then m else (a, b) :: m)
    else c :: memWrite m a b

/-- Stores bytes at ascending addresses. -/
def memWrites : Memory → Nat → List Byte → Memory
  | m, _, [] => m
  | m, a, b :: bs => memWrites (memWrite m a b) (a + 1) bs

/-- The n bytes from an address. -/
def memReads (m : Memory) (a n : Nat) : List Byte := (List.range n).map fun i => memRead m (a + i)

/-- Byte offset of element i of a tensor (R99). -/
def elemByte (f : Fmt) (i : Nat) : Nat :=
  let per := fmtPerBlock f
  let j := i % per
  512 * (i / per) + (if fmtBits f = 6 then 3 * (j / 4) else j * fmtBits f / 8)

/-- Bit position of element i within the bytes at its offset (R99). -/
def elemShift (f : Fmt) (i : Nat) : Nat :=
  if fmtBits f = 4 then 4 * (i % 2) else if fmtBits f = 6 then 6 * (i % fmtPerBlock f % 4) else 0

/-- Bytes that hold one element (R99). -/
def elemLen (f : Fmt) : Nat := if fmtBits f = 6 then 3 else (fmtBits f + 7) / 8

/-- The code of element i of the tensor at an address. -/
def elemGet (m : Memory) (base : Nat) (f : Fmt) (i : Nat) : Nat :=
  bits (fromLe (memReads m (base + elemByte f i) (elemLen f))) (elemShift f i) (fmtBits f)

/-- Replaces n bits of a number. -/
def setBits (x l n v : Nat) : Nat := x - (bits x l n <<< l) + ((v % 2 ^ n) <<< l)

/-- Writes the code of element i, and zeros the padding of an FP6 block (R100). -/
def elemPut (m : Memory) (base : Nat) (f : Fmt) (i code : Nat) : Memory :=
  let a := base + elemByte f i
  let old := fromLe (memReads m a (elemLen f))
  let m := memWrites m a (leBytes (elemLen f) (setBits old (elemShift f i) (fmtBits f) code))
  if fmtBits f = 6 then memWrites m (base + 512 * (i / fmtPerBlock f) + 504) (List.replicate 8 0) else m

/-- Bytes that n elements cover from the start of the first block (R99). -/
def elemsExtent (f : Fmt) (n : Nat) : Nat :=
  if n = 0 then 0 else elemByte f (n - 1) + elemLen f

end Sys2Proof.Machine
end

