-- ==== Sys2Proof/Machine/CmdShape.lean ====
section
/-! DEFINITION. Commands and tensor descriptors as written in a plan: fields (R136, R217, R256, R263), shapes (R137, R138),
operand slots (R258), and the worst-case cycle counts (R160, R206, R248, R261). Nothing here reads the state. -/

namespace Sys2Proof.Machine

/-- Word Wi of the parameter area. -/
def pw (c : Cmd) (i : Nat) : Nat := c.param.getD i 0

def cWaitEn (c : Cmd) : Bool := bit c.flags 1
def cSigEn (c : Cmd) : Bool := bit c.flags 2
def cBestEffort (c : Cmd) : Bool := bit c.flags 0

/-- Operand slot i names no descriptor. -/
def opAbsent (c : Cmd) (i : Nat) : Bool := c.opnd.getD i 0xFFFF == 0xFFFF

/-- The descriptor that slot i names. -/
def opDesc (w : WingPlan) (c : Cmd) (i : Nat) : Option Desc :=
  if opAbsent c i then none else wingDesc w (c.opnd.getD i 0xFFFF)

/-- Queue number of a queue in storage order (R255). -/
def queueIdx : Queue → Nat
  | .me => 0 | .vt v => 1 + v.val | .xf x => 7 + x.val

/-- The queue an opcode may stand on (R257): 0 any, 1 XF, 2 ME, 3 VT; none for an unused opcode. -/
def opcodeKind (o : Nat) : Option Nat :=
  if o = 0x00 ∨ o = 0x01 then some 0
  else if o = 0x08 ∨ o = 0x09 then some 1
  else if (0x10 ≤ o ∧ o ≤ 0x13) ∨ (0x18 ≤ o ∧ o ≤ 0x1C) then some 2
  else if (0x20 ≤ o ∧ o ≤ 0x2E) ∨ (0x30 ≤ o ∧ o ≤ 0x32) ∨ (0x34 ≤ o ∧ o ≤ 0x36) ∨ (0x38 ≤ o ∧ o ≤ 0x3C)
      ∨ o = 0x3E ∨ o = 0x3F ∨ o = 0x40 then some 3
  else none

def kindFits (kind qi : Nat) : Bool :=
  match kind with
  | 0 => true
  | 1 => decide (7 ≤ qi)
  | 2 => qi == 0
  | _ => decide (1 ≤ qi ∧ qi ≤ 6)

/-! Shapes. -/

def dRow (d : Desc) : Bool := d.layout == 0
/-- Channel block size (R137). -/
def dBlk (d : Desc) : Nat := if d.layout = 1 then 16 else 32
/-- Channel blocks of a feature map. -/
def dCb (d : Desc) : Nat := ceilDiv d.d0 (dBlk d)
/-- Channels including padding. -/
def dCp (d : Desc) : Nat := dCb d * dBlk d
/-- Logical elements. -/
def dElems (d : Desc) : Nat := d.d0 * d.d1 * d.d2 * d.d3
/-- Elements of the storage order, from the first to the last (R138). -/
def dStored (d : Desc) : Nat := if dRow d then (d.d1 - 1) * d.pitch + d.d0 else d.d3 * d.d2 * d.d1 * dCp d
def dFmt (d : Desc) : Fmt := (fmtOfCode d.fmt).getD .uint8
/-- Bytes of the stored extent. -/
def dExtent (d : Desc) : Nat := elemsExtent (dFmt d) (dStored d)
/-- Storage index of row r, column c of a ROW tensor (R138). -/
def rowIdx (d : Desc) (r c : Nat) : Nat := r * d.pitch + c
/-- Storage index of element (n, y, x, c) of a feature map (R138). -/
def mapIdx (d : Desc) (n y x c : Nat) : Nat :=
  (((n * dCb d + c / dBlk d) * d.d2 + y) * d.d1 + x) * dBlk d + c % dBlk d

/-- Bytes of the logical elements of a ROW operand that holds raw records, in element order. -/
def rawBytes (d : Desc) : Nat := if fmtBits (dFmt d) < 8 then 0 else dElems d * (fmtBits (dFmt d) / 8)

/-- Same shape and layout, the ROW pitch apart (R222, R260). -/
def sameShape (a b : Desc) : Bool :=
  a.layout == b.layout && a.d0 == b.d0 && a.d1 == b.d1 && a.d2 == b.d2 && a.d3 == b.d3

/-! What a command reads of an operand, as runs of storage indices: first index and number of elements (R138, R146, R215). -/

/-- Rows × cols elements from the start of a ROW tensor. -/
def rowRuns (d : Desc) (rows cols : Nat) : List (Nat × Nat) :=
  if d.pitch = cols then [(0, rows * cols)] else (List.range rows).map fun r => (r * d.pitch, cols)

/-- Every element of a tensor; the padding between the rows of a ROW tensor is not read. -/
def allRuns (d : Desc) : List (Nat × Nat) := if dRow d then rowRuns d d.d1 d.d0 else [(0, dStored d)]

/-- The first n bytes of the raw content of a ROW operand. -/
def rawRuns (d : Desc) (n : Nat) : List (Nat × Nat) :=
  let len := fmtBits (dFmt d) / 8
  let cnt := if len = 0 then n else ceilDiv n len
  if d.pitch = d.d0 ∨ d.d0 = 0 then [(0, cnt)]
  else (List.range (ceilDiv cnt d.d0)).map fun r => (r * d.pitch, Nat.min d.d0 (cnt - r * d.d0))

/-- Bytes of a full block of a format: a 6-bit block ends with 8 bytes of padding (R99). -/
def blockFill (f : Fmt) : Nat := if fmtBits f = 6 then 504 else 512

/-- A list without what repeats the element before it. -/
def dropRepeats : List Nat → List Nat
  | a :: b :: l => if a = b then dropRepeats (b :: l) else a :: dropRepeats (b :: l)
  | l => l

/-- The blocks that runs of elements touch, counted from the start of the tensor (R99). -/
def runBlocks (f : Fmt) (rs : List (Nat × Nat)) : List Nat :=
  dropRepeats (rs.flatMap fun r =>
    if r.2 = 0 then []
    else let a := elemByte f r.1 / 512; (List.range ((elemByte f (r.1 + r.2 - 1) + elemLen f - 1) / 512 + 1 - a)).map (a + ·))

/-- The blocks of the scale plane that runs of elements touch (R108). -/
def scaleBlocks (rs : List (Nat × Nat)) : List Nat := runBlocks .uint8 (rs.map fun r => (r.1 / 32, if r.2 = 0 then 0 else (r.1 + r.2 - 1) / 32 + 1 - r.1 / 32))

/-- The elements of a tensor in linear order: linear index, storage index, and whether it is channel padding (R112, R138,
log entry 13). -/
def dOrder (d : Desc) : List (Nat × Nat × Bool) :=
  if dRow d then (List.range (d.d0 * d.d1)).map fun i => (i, rowIdx d (i / d.d0) (i % d.d0), false)
  else (List.range (dStored d)).map fun i =>
    let plane := d.d2 * d.d1 * dBlk d
    (i, i, decide (d.d0 ≤ i / plane % dCb d * dBlk d + i % dBlk d))

/-- Column (ROW) or channel (feature map) of the element at a storage index. -/
def dInner (d : Desc) (st : Nat) : Nat :=
  if dRow d then st % d.pitch else st / (d.d2 * d.d1 * dBlk d) % dCb d * dBlk d + st % dBlk d

/-- A descriptor's own rules (R98, R107, R109, R139, R263, R264). -/
def descOk (w : WingPlan) (d : Desc) : Bool :=
  decide (d.addr < 2 ^ 48) && d.addr % 512 == 0 && decide (d.space < 8) && (fmtOfCode d.fmt).isSome && decide (d.layout ≤ 2) &&
  d.resv == 0 && decide (d.vsel < 4) && ((d.region == 0xFFFF) == (d.vsel == 0)) &&
  decide (1 ≤ d.d0 ∧ 1 ≤ d.d1) &&
  (if dRow d then decide (d.d0 ≤ 16777216 ∧ d.d1 ≤ 16777215) && d.d2 == 1 && d.d3 == 1 && d.pitch % 32 == 0 && decide (d.d0 ≤ d.pitch)
   else decide (d.d0 ≤ 65535 ∧ d.d1 ≤ 65535 ∧ 1 ≤ d.d2 ∧ d.d2 ≤ 65535 ∧ 1 ≤ d.d3 ∧ d.d3 ≤ 65535) && d.pitch == 0 &&
     ((decide (8 ≤ fmtBits (dFmt d)) && !d.scaled) || d.layout == 2)) &&
  (if d.scaled then
     fmtIsNarrowFloat (dFmt d) && (!dRow d || d.d0 % 32 == 0) &&
     (match wingDesc w d.scaleIdx with
      | some p => p.fmt == 4 && p.layout == 0 && p.space == d.space && !p.scaled && decide (ceilDiv (dStored d) 32 ≤ dStored p)
      | none => false)
   else d.scaleIdx == 0xFFFF)

/-- Slots that an opcode may use and slots it must use, as bit masks (R258). -/
def slotMasks (o : Nat) : Nat × Nat :=
  match o with
  | 0x08 => (0x05, 0x05)
  | 0x09 => (0x04, 0x04)
  | 0x10 | 0x11 | 0x12 | 0x13 => (0x3F, 0x03)
  | 0x18 => (0xAF, 0x2B)
  | 0x19 => (0x7D, 0x2D)
  | 0x1A => (0xFF, 0xBF)
  | 0x1B => (0xE9, 0x69)
  | 0x1C => (0x05, 0x05)
  | 0x20 | 0x21 | 0x22 | 0x24 | 0x25 | 0x26 | 0x28 => (0x07, 0x05)
  | 0x23 | 0x27 => (0x0F, 0x0D)
  | 0x29 | 0x2A | 0x2B | 0x2C | 0x32 | 0x34 | 0x35 | 0x36 | 0x3E | 0x3F => (0x05, 0x05)
  | 0x2D | 0x2E | 0x30 | 0x31 => (0x15, 0x15)
  | 0x38 => (0x25, 0x05)
  | 0x39 => (0x25, 0x25)
  | 0x3A => (0x0D, 0x0D)
  | 0x3B => (0x4D, 0x05)
  | 0x3C => (0x4D, 0x0D)
  | 0x40 => (0x11, 0x11)
  | _ => (0, 0)

/-- The presence of the operands is as R258 gives it. -/
def slotsOk (c : Cmd) : Bool :=
  let m := slotMasks c.opcode
  (List.range 8).all fun i => if opAbsent c i then !bit m.2 i else bit m.1 i

/-! Matrix-engine fields (R136). -/

def meKh (c : Cmd) : Nat := bits (pw c 0) 0 6
def meKw (c : Cmd) : Nat := bits (pw c 0) 6 6
def meSy (c : Cmd) : Nat := bits (pw c 0) 12 4 + 1
def meSx (c : Cmd) : Nat := bits (pw c 0) 16 4 + 1
def meDy (c : Cmd) : Nat := bits (pw c 0) 20 4 + 1
def meDx (c : Cmd) : Nat := bits (pw c 0) 24 4 + 1
def mePadMode (c : Cmd) : Nat := bits (pw c 0) 28 2
def mePt (c : Cmd) : Nat := bits (pw c 1) 0 8
def mePb (c : Cmd) : Nat := bits (pw c 1) 8 8
def mePl (c : Cmd) : Nat := bits (pw c 1) 16 8
def mePr (c : Cmd) : Nat := bits (pw c 1) 24 8
def mePadCode (c : Cmd) : Nat := bits (pw c 2) 0 16
def meGroups (c : Cmd) : Nat := bits (pw c 2) 16 16
def meIntOut (c : Cmd) : Bool := bit (pw c 3) 0
def wRnd (c : Cmd) : Nat := bits (pw c 3) 1 2
def wSat (c : Cmd) : Bool := bit (pw c 3) 3
def meUseT (c : Cmd) : Bool := bit (pw c 3) 4
def meUseP (c : Cmd) : Bool := bit (pw c 3) 5
def meAct (c : Cmd) : Nat := bits (pw c 3) 6 2
def meKPart (c : Cmd) : Nat := bits (pw c 3) 8 2
def meChk (c : Cmd) : Bool := bit (pw c 3) 10
def vOpFmt (c : Cmd) : Nat := bits (pw c 3) 4 2

/-- Where a coordinate of one axis reads (R144): an index, or outside. -/
def borderIdx (mode : Nat) (x : Int) (n : Nat) : Option Nat :=
  if 0 ≤ x ∧ x < (n : Int) then some x.toNat
  else match mode with
    | 2 => some (if x < 0 then 0 else n - 1)
    | 3 => if x < 0 then some (-x).toNat else some (2 * ((n : Int) - 1) - x).toNat
    | _ => none

/-- Output size on one axis (R143). -/
def outSize (n lo hi k dil stride : Nat) : Int :=
  (((n + lo + hi : Nat) : Int) - ((dil * (k - 1) : Nat) : Int) - 1) / ((stride : Nat) : Int) + 1

def outH (c : Cmd) (a : Desc) : Int := outSize a.d2 (mePt c) (mePb c) (meKh c) (meDy c) (meSy c)
def outW (c : Cmd) (a : Desc) : Int := outSize a.d1 (mePl c) (mePr c) (meKw c) (meDx c) (meSx c)

/-- The indices of one axis that some output of a window reads (R146), in ascending order. -/
def axisReads (mode n lo k dil stride out : Nat) : List Nat :=
  (List.range n).filter fun i => (List.range out).any fun o => (List.range k).any fun t =>
    borderIdx mode (((o * stride + t * dil : Nat) : Int) - (lo : Int)) n == some i

/-- What a convolution or a pooling reads of its feature map (R142, R146, R229): the pixels that some window reaches. -/
def windowRuns (c : Cmd) (a : Desc) : List (Nat × Nat) :=
  let ys := axisReads (mePadMode c) a.d2 (mePt c) (meKh c) (meDy c) (meSy c) (outH c a).toNat
  let xs := axisReads (mePadMode c) a.d1 (mePl c) (meKw c) (meDx c) (meSx c) (outW c a).toNat
  (List.range a.d3).flatMap fun n => (List.range (dCb a)).flatMap fun b => ys.flatMap fun y => xs.map fun x =>
    (mapIdx a n y x (b * dBlk a), dBlk a)

/-- Cg_p of R140. -/
def cgp (c : Cmd) (a : Desc) : Nat := ceilDiv (a.d0 / meGroups c) (dBlk a) * dBlk a

/-- Winograd output size of an opcode (R158). -/
def winoM (o : Nat) : Nat := if o = 0x12 then 2 else 4

/-- Tiles of R158. -/
def winoTiles (c : Cmd) (a : Desc) : Nat :=
  a.d3 * ceilDiv (outH c a).toNat (winoM c.opcode) * ceilDiv (outW c a).toNat (winoM c.opcode)

/-- Rate mode of R131: q and K_t. -/
def rateMode (fa fb : Fmt) : Nat × Nat :=
  if 16 ≤ fmtBits fa ∨ 16 ≤ fmtBits fb then (4, 256)
  else if fmtBits fa = 4 ∧ fmtBits fb = 4 then (1, 512)
  else (1, 256)

/-- Greatest magnitude of a format, in units of 1/8 for the narrow floats and of 1 otherwise (R120). -/
def fmtMaxMag (f : Fmt) : Nat :=
  match f with
  | .int4 => 8 | .int8 => 128 | .int16 => 32768 | .uint8 => 255 | .uint16 => 65535
  | .fp4 => 48 | .fp6e2m3 => 60 | .fp6e3m2 => 224 | .e4m3 => 3584 | .e5m2 => 458752
  | _ => 0

/-- K * P_max < 2^47 (R120). -/
def barrelFits (fa fb : Fmt) (k : Nat) : Bool :=
  decide (k * fmtMaxMag fa * fmtMaxMag fb < 2 ^ 47 * (if fmtIsInt fa then 1 else 64))

/-- An operand format of the matrix engine (R96, R118). -/
def meFmtOk (f : Fmt) : Bool := f != .int32 && f != .fp32

/-- Both integer or both floating point (R118). -/
def mePairOk (fa fb : Fmt) : Bool := meFmtOk fa && meFmtOk fb && fmtIsInt fa == fmtIsInt fb

def is16Float (f : Fmt) : Bool := f == .bf16 || f == .fp16

/-- Accumulation path of R118: 0 Barrel, 1 Barrel per scale group, 2 ordered FP32 in groups of 16. -/
def mePath (a b : Desc) : Nat :=
  if is16Float (dFmt a) || is16Float (dFmt b) then 2 else if a.scaled || b.scaled then 1 else 0

/-- Bytes of n elements of C in 1/32 byte units, for w_out of R160. -/
def wOut32 (d : Desc) (n : Nat) : Nat := n * (fmtBits (dFmt d) * 4 + (if d.scaled then 1 else 0))

/-- Whether k_part writes C. -/
def meWrites (c : Cmd) : Bool := meKPart c == 0 || meKPart c == 3

/-- T and P terms of R160; a first or middle command writes no element. -/
def meExtra (c : Cmd) (t : Option Desc) (elems chans : Nat) : Nat :=
  (match t with
   | some d => if meUseT c && meWrites c then ceilDiv (elems * fmtBits (dFmt d)) (8 * 2048) else 0
   | none => 0) +
  (if meUseP c then ceilDiv (chans * 16) 2048 else 0)

/-- WCC of MM with N output columns, of which `nw` are written to C (R160, R206). -/
def wccMm (c : Cmd) (a b : Desc) (cd : Option Desc) (t : Option Desc) (nw : Nat) : Nat :=
  let (q, kt) := rateMode (dFmt a) (dFmt b)
  let m := a.d1
  128 + ceilDiv b.d1 256 * ceilDiv a.d0 kt * (m * q + 48 * ceilDiv m 512)
    + (if !meWrites c then 0
       else match cd with
         | some d => ceilDiv (wOut32 d (m * nw)) (32 * 1024)
         | none => 0)
    + meExtra c t (m * nw) b.d1

/-- Cout channels rounded up to whole blocks of C; of A where a first or middle command names no C (R160, log entry 92). -/
def coutPad (a : Desc) (cd : Option Desc) (cout : Nat) : Nat := let b := dBlk (cd.getD a); ceilDiv cout b * b

/-- The write term of R160 for n elements of C. -/
def wccOut (c : Cmd) (cd : Option Desc) (n : Nat) : Nat :=
  match cd with
  | some d => if meWrites c then ceilDiv (wOut32 d n) (32 * 1024) else 0
  | none => 0

def wccConv (c : Cmd) (a b : Desc) (cd t : Option Desc) : Nat :=
  let (q, kt) := rateMode (dFmt a) (dFmt b)
  let g := meGroups c
  let m := a.d3 * (outH c a).toNat * (outW c a).toNat
  128 + g * ceilDiv (b.d1 / g) 256 * ceilDiv b.d0 kt * (m * q + 48 * ceilDiv m 512)
    + wccOut c cd (m * coutPad a cd b.d1) + meExtra c t (m * coutPad a cd b.d1) b.d1

def wccWino (c : Cmd) (a b : Desc) (cd t : Option Desc) : Nat :=
  let two := c.opcode == 0x12
  let taps := if two then 16 else 36
  let cout := b.d1 / taps
  let cp := coutPad a cd cout
  let tl := winoTiles c a
  let nT := ceilDiv tl 512
  let nN := ceilDiv cout 256
  let nC := ceilDiv (dCp a) 256
  let ex := meExtra c t (a.d3 * (outH c a).toNat * (outW c a).toNat * cp) cout
  if two then
    256 + 16 * nN * nC * (tl + 48 * nT) + ceilDiv (tl * dCp a) 256 + ceilDiv (tl * cp) 256 + wccOut c cd (4 * tl * cp) + ex
  else
    256 + 36 * nN * nC * (4 * tl + 48 * nT) + ceilDiv (tl * dCp a) 64 + ceilDiv (tl * cp) 64 + wccOut c cd (16 * tl * cp) + ex

/-- Bytes of the entry of a coarse index (R202). -/
def coarseBytes (cl : SeqClass) : Nat :=
  let n := 16 + 2 * cl.hKv * cl.dK
  if n ≤ 64 then 64 else 2 ^ (Nat.log2 (n - 1) + 1)

/-- Bytes of K, V and scales of one token (R206). -/
def tokenBytes (cl : SeqClass) : Nat :=
  let one := fun (f : Fmt) (sc : Bool) (d : Nat) => cl.hKv * d * fmtBits f / 8 + (if sc then cl.hKv * d / 32 else 0)
  one cl.kFmt cl.kScaled cl.dK + one cl.vFmt cl.vScaled cl.dV

/-- WCC of the attention opcodes (R206). Which rows belong to one sequence depends on data, so the declared maxima are taken: as many
sequences as the command has rows or the Wing has slots, with the rows spread evenly over them (log entry 14). -/
def wccAttn (c : Cmd) (w : WingPlan) (cl : SeqClass) (a : Desc) (b cd : Option Desc) : Nat :=
  let m := a.d1
  let hq := bits (pw c 0) 4 7
  let seqs := Nat.min m (Nat.max 1 w.slotCount)
  let kRet := if bit (pw c 0) 14 then bits (pw c 0) 15 7 else 0
  let bs := fun (n : Nat) => ceilDiv (cl.window + n - 1 + kRet * cl.tP) 256
  let fs := fun (n : Nat) => (ceilDiv (cl.window + n - 1) cl.tP + 1 + kRet) * 16384
  -- a sum over the sequences: m mod seqs of them have one row more than the others
  let acrossSeqs := fun (f : Nat → Nat) => (m % seqs) * f (m / seqs + 1) + (seqs - m % seqs) * f (m / seqs)
  let q := (rateMode (dFmt a) cl.kFmt).1
  match c.opcode with
  | 0x18 =>
    let nPg := seqs + ceilDiv m cl.tP
    (match b with
     | some bd => wccMm c a bd cd none (hq * cl.dK)
     | none => 0) + 64 * nPg + ceilDiv (m * tokenBytes cl) 256 + nPg * (32 + ceilDiv (cl.hKv * cl.dK * cl.tP) 256)
  | 0x19 =>
    256 + acrossSeqs (fun n => hq * bs n * (n * (q + 4) + 112) + ceilDiv (fs n) 256)
      + (match cd with
         | some d => ceilDiv (wOut32 d (m * hq * cl.dV)) (32 * 1024)
         | none => 0) + ceilDiv (m * hq) 128
  | 0x1A =>
    512 + acrossSeqs (fun n => hq * bs n * (n * (2 * q + 12) + 336) + ceilDiv (fs n) 256) + ceilDiv (m * hq * (cl.dK + cl.dV)) 256
      + ceilDiv ((m + 256 * acrossSeqs bs) * cl.hKv * (cl.dK + cl.dV)) 256
  | _ =>
    128 + a.d1 * (ceilDiv (cl.nRet * coarseBytes cl) 256 + ceilDiv (cl.nRet * cl.hKv * cl.dK) 4096 + ceilDiv cl.nRet 4 + 64)

/-- WCC of SEQ (R206): every operation may be a LEAVE of a sequence that holds the most pages of any class. -/
def wccSeq (cls : List SeqClass) (nOp : Nat) : Nat := 64 + 24 * nOp + 8 * (nOp * (cls.map fun c => c.nRet).foldl Nat.max 0)

/-- λ of R248. -/
def vLanes (c : Cmd) : Nat := if vOpFmt c = 2 then 64 else 256

/-- c of R248. -/
def vCost (c : Cmd) : Nat :=
  match c.opcode with
  | 0x28 | 0x29 | 0x2A => 8
  | 0x2B => match bits (pw c 0) 0 4 with
    | 4 | 7 | 8 => 6
    | 3 => 15
    | 5 => 16
    | 6 => 17
    | _ => 1
  | _ => 1

/-- WCC of the vector tile opcodes (R248). -/
def wccVt (c : Cmd) (a cd : Desc) (t : Option Desc) : Nat :=
  let lam := vLanes c
  let n := dElems a
  match c.opcode with
  | 0x30 => 48 + a.d1 * (4 * ceilDiv a.d0 64 + 40)
  | 0x31 => 48 + a.d1 * (3 * ceilDiv a.d0 64 + 32)
  | 0x32 => 48 + a.d1 * (16 * ceilDiv a.d0 64 + 32)
  | 0x34 => 48 + a.d3 * (outH c a).toNat * (outW c a).toNat * ceilDiv (dCp a) lam * meKh c * meKw c
  | 0x35 => 48 + a.d3 * (outH c a).toNat * (outW c a).toNat * ceilDiv (dCp a) lam * (meKh c * meKw c + 8)
  | 0x36 => 48 + a.d3 * ceilDiv (dCp a) lam * (a.d2 * a.d1 + 8)
  | 0x38 => 48 + dCp a * ceilDiv (a.d3 * a.d2 * a.d1) lam
  | 0x39 => 64 + a.d1 * (4 * ceilDiv a.d0 lam + 2 * bits (pw c 0) 0 7 + 16)
  | 0x3A =>
    let e := match t with | some d => dElems d | none => 0
    48 + e * ceilDiv (ceilDiv (a.d0 * fmtBits (dFmt a)) 8) 512 + ceilDiv e 64
  | 0x3B =>
    let nb := bits (pw c 0) 0 13
    48 + ceilDiv n 64 + ceilDiv (nb + 2) 4 + ceilDiv (nb + 2) 128
  | 0x3C => 48 + a.d1 * ceilDiv a.d0 64 + 2 * ceilDiv a.d0 16
  | 0x3E => 64 + 4 * ceilDiv (dExtent a) 512
  | 0x3F => 64 + 4 * ceilDiv (dExtent cd) 512
  | 0x40 => 48 + a.d1 * (ceilDiv a.d0 64 + bits (pw c 0) 0 7)
  | _ => 48 + vCost c * ceilDiv n lam

/-- Partly covered blocks of a destination (R260, R261). -/
def partBlocks (d : Desc) : Nat :=
  let per := fmtPerBlock (dFmt d)
  if !dRow d || d.pitch == d.d0 then (if dStored d % per = 0 then 0 else 1)
  else
    let rows := (List.range d.d1).map fun r => (r * d.pitch, r * d.pitch + d.d0)
    let touched := (rows.foldl (fun (acc : Nat × Nat) p =>
      let f := Nat.max acc.2 (p.1 / per)
      let l := (p.2 - 1) / per + 1
      (acc.1 + (l - f), Nat.max acc.2 l)) (0, 0)).1
    let full := (rows.map fun p => p.2 / per - ceilDiv p.1 per).foldl (· + ·) 0
    touched - full

/-- WCC of COPY and FILL (R261): b counts what is written to C, the rows of a COPY without their padding, else the whole stored extent. -/
def wccXf (fill : Bool) (beta : Nat) (dram : Bool) (d : Desc) : Nat :=
  let b := if fill || !dRow d then dExtent d else ceilDiv (dElems d * fmtBits (dFmt d)) 8
  let p := if !fill then partBlocks d else if dExtent d % 512 = 0 then 0 else 1
  if dram then 640 + ceilDiv b beta + 700 * p else 32 + ceilDiv b 512 + 4 * p

end Sys2Proof.Machine
end

