-- ==== Sys2Proof/Machine/CmdFault.lean ====
section
/-! DEFINITION. Command faults (R98, R110, R135, R144-R159, R170-R206, R219-R246, R259, R260): what the image loader refuses
and a Wing sequencer does not issue. -/

namespace Sys2Proof.Machine

/-- The words of a parameter area that must be zero, by mask. -/
def zeroBits (c : Cmd) (i mask : Nat) : Bool := pw c i &&& mask == 0

def wordsZero (c : Cmd) (is : List Nat) : Bool := is.all fun i => pw c i == 0

/-- Conversions that are exact and take no rounding mode (R115). -/
def exactTo (src dst : Fmt) : Bool :=
  src == dst ||
  (match dst with
   | .bf16 | .fp16 => fmtIsNarrowFloat src || src == .int4 || src == .int8
   | .fp32 => fmtIsNarrowFloat src || is16Float src || src == .int4 || src == .int8 || src == .uint8 || src == .int16 || src == .uint16
   | .int8 => src == .int4
   | .int16 => src == .int4 || src == .int8 || src == .uint8
   | .int32 => fmtIsInt src
   | .uint16 => src == .uint8
   | _ => false)

/-- The float format of an op_fmt (R217). -/
def opFloat (n : Nat) : Fmt := match n with | 0 => .bf16 | 1 => .fp16 | _ => .fp32

/-- An input may be brought to op_fmt (R218). A block-scaled input stands for its elements times their scales (R107, log
entry 15). -/
def inputOk (opf : Nat) (d : Desc) : Bool :=
  if opf = 3 then fmtIsInt (dFmt d) else exactTo (dFmt d) (opFloat opf)

/-- A clamp range with a NaN bound or in the wrong order (R151, R225). -/
def clampBad (isInt : Bool) (f : Fmt) (lo hi : Nat) : Bool :=
  if isInt then decide (sext 32 hi < sext 32 lo)
  else
    let a := decodeVal f lo
    let b := decodeVal f hi
    a.isNan || b.isNan || vLt b a

/-- Sizes, padding and strides of a window (R143-R148). -/
def windowOk (c : Cmd) (a : Desc) : Bool :=
  decide (1 ≤ meKh c ∧ meKh c ≤ 32 ∧ 1 ≤ meKw c ∧ meKw c ≤ 32) && zeroBits c 0 0xC0000000 &&
  decide (1 ≤ outH c a ∧ outH c a ≤ 65535 ∧ 1 ≤ outW c a ∧ outW c a ≤ 65535) &&
  (mePadMode c != 3 ||
    decide (mePt c ≤ a.d2 - 1 ∧ mePb c ≤ a.d2 - 1 ∧ mePl c ≤ a.d1 - 1 ∧ mePr c ≤ a.d1 - 1))

/-- Raw bytes that a ROW operand offers. -/
def rawOk (d : Desc) (n : Nat) : Bool := dRow d && decide (n ≤ rawBytes d)

/-- A per-channel parameter tensor of the matrix engine (R152). -/
def pOk (n : Nat) : Option Desc → Bool
  | some p => p.fmt == 3 && !p.scaled && rawOk p (16 * n)
  | none => false

/-- The output stage of R149-R152: fields, T, P and C. -/
def outStageOk (c : Cmd) (pairInt : Bool) (cd : Option Desc) (t p : Option Desc) (chans : Nat) : Bool :=
  let isInt := meIntOut c
  zeroBits c 3 0xFFFFF800 && wRnd c != 3 && meAct c != 3 && pw c 7 == 0 && zeroBits c 6 0xFFFF0000 &&
  (isInt || pw c 6 == 0) &&
  (if meAct c = 2 then !clampBad isInt .fp32 (pw c 4) (pw c 5) else pw c 4 == 0) &&
  (!isInt || (pairInt && (match cd with | some d => fmtIsInt (dFmt d) | none => true))) &&
  (!meUseT c || t.isSome) &&
  (match t with
   | some td => !td.scaled && (if isInt then fmtIsInt (dFmt td) else td.fmt != 3) &&
       (match cd with | some d => sameShape td d | none => true)
   | none => true) &&
  (!meUseP c || pOk chans p)

/-- MM (R141). -/
def mmOk (c : Cmd) (a b : Desc) (cd t p x : Option Desc) : Bool :=
  wordsZero c [0, 1, 2] && dRow a && dRow b && mePairOk (dFmt a) (dFmt b) && a.d0 == b.d0 && decide (b.d1 ≤ 65535) &&
  (mePath a b != 0 || barrelFits (dFmt a) (dFmt b) a.d0) &&
  (match cd with
   | some d => dRow d && d.d0 == b.d1 && d.d1 == a.d1
   | none => !meWrites c) &&
  outStageOk c (fmtIsInt (dFmt a)) cd t p b.d1 && (meChk c || x.isSome) &&
  (meKPart c == 0 || decide (a.d1 * b.d1 ≤ 131072))

/-- CONV (R142-R148). -/
def convOk (c : Cmd) (a b : Desc) (cd t p x : Option Desc) : Bool :=
  let g := meGroups c
  !dRow a && dRow b && mePairOk (dFmt a) (dFmt b) && windowOk c a && decide (1 ≤ g ∧ b.d1 ≤ 65535) && a.d0 % g == 0 && b.d1 % g == 0 &&
  b.d0 == meKh c * meKw c * cgp c a && (!a.scaled || (a.d0 / g % 32 == 0 && mePadMode c != 1)) &&
  mePadCode c >>> fmtBits (dFmt a) == 0 &&
  (mePath a b != 0 || barrelFits (dFmt a) (dFmt b) b.d0) &&
  (match cd with
   | some d => !dRow d && d.d0 == b.d1 && (d.d1 : Int) == outW c a && (d.d2 : Int) == outH c a && d.d3 == a.d3
   | none => !meWrites c) &&
  outStageOk c (fmtIsInt (dFmt a)) cd t p b.d1 && (meChk c || x.isSome) &&
  (meKPart c == 0 || decide (a.d3 * (outH c a).toNat * (outW c a).toNat * b.d1 ≤ 131072))

/-- WINO2 and WINO4 (R154-R159). -/
def winoOk (c : Cmd) (a b : Desc) (cd t p x : Option Desc) : Bool :=
  let taps := if c.opcode = 0x12 then 16 else 36
  let cout := b.d1 / taps
  !dRow a && dRow b && windowOk c a && meKh c == 3 && meKw c == 3 && bits (pw c 0) 12 16 == 0 && meGroups c == 1 &&
  (if c.opcode = 0x12 then (a.fmt == 0 || a.fmt == 1 || a.fmt == 4) && b.fmt == 2
   else is16Float (dFmt a) && is16Float (dFmt b)) &&
  !a.scaled && !b.scaled && mePadCode c >>> fmtBits (dFmt a) == 0 && b.d0 == dCp a && b.d1 % taps == 0 && decide (1 ≤ cout ∧ cout ≤ 65535) &&
  (match cd with
   | some d => !dRow d && d.d0 == cout && (d.d1 : Int) == outW c a && (d.d2 : Int) == outH c a && d.d3 == a.d3
   | none => !meWrites c) &&
  outStageOk c (c.opcode == 0x12) cd t p cout && (meChk c || x.isSome) &&
  (meKPart c == 0 || decide (taps * winoTiles c a * cout ≤ 131072))

/-- A key format for a query format (R193). -/
def keyOk (q k : Fmt) : Bool :=
  match q with
  | .int4 => k == .int4
  | .int8 => k == .int4 || k == .int8
  | .e4m3 | .e5m2 => fmtIsNarrowFloat k
  | .bf16 | .fp16 => fmtIsNarrowFloat k || k == q
  | _ => false

/-- A value format for p_fmt (R194). -/
def valueOk (p v : Fmt) : Bool := fmtIsNarrowFloat v || v == p

/-- p_fmt of W0 bit 12 (R196). -/
def pFmt (c : Cmd) : Fmt := if bit (pw c 0) 12 then .fp16 else .bf16

/-- The space that every operand of a queue lies in: the Gallery slice for ME (R133, R181), the tile's own store for VT
(R214, R216); XF operands are checked by R260. -/
def spaceOk (qi : Nat) (d : Desc) : Bool :=
  if qi = 0 then d.space == 0 else if qi ≤ 6 then d.space == qi + 1 else true

/-- The write version and read version rules of R265 for a descriptor of logical Wing k. -/
def vselOk (img : Image) (k : Nat) (write : Bool) (d : Desc) : Bool :=
  if d.vsel = 0 then true
  else match img.plan.regions.find? (fun r => r.id == d.region) with
    | some r => (r.owner == k || d.vsel == 1) && (!write || d.vsel == 2) && (r.gallery == (d.space == 0))
    | none => false

/-- ATTN and ATTN_BWD (R196, R205). -/
def attnOk (img : Image) (k : Nat) (w : WingPlan) (c : Cmd) (cl : SeqClass) (a : Desc) (cd y z s e dd b : Option Desc) : Bool :=
  let hq := bits (pw c 0) 4 7
  let useRet := bit (pw c 0) 14
  let kRet := bits (pw c 0) 15 7
  let m := a.d1
  let bwd := c.opcode == 0x1A
  dRow a && decide (1 ≤ hq ∧ hq ≤ 64) && hq % cl.hKv == 0 && a.d0 == hq * cl.dK &&
  zeroBits c 0 0xFFC00000 && decide (kRet ≤ 64) && (useRet || kRet == 0) &&
  (let q := decodeVal .fp32 (pw c 2); !q.isNan && !q.isInf) &&
  keyOk (dFmt a) cl.kFmt && valueOk (pFmt c) cl.vFmt &&
  (if bwd then zeroBits c 1 0xFFFF0000 && pw c 3 == 0 else pw c 1 == 0 && zeroBits c 3 0xFFFFFFF1 && wRnd c != 3) &&
  wordsZero c [4, 5, 6, 7] &&
  (match y with | some d => rawOk d (8 * m) | none => false) &&
  (match s with | some d => rawOk d 32768 | none => false) &&
  (match z with | some d => rawOk d (8 * m * hq) | none => !bwd && !bit (pw c 0) 13) &&
  (match e with | some d => useRet && rawOk d (4 * kRet) | none => !useRet || kRet == 0) &&
  (match cd with
   | some d => dRow d && d.d1 == m && (if bwd then d.d0 == hq * cl.dK && d.fmt == 13 else d.d0 == hq * cl.dV)
   | none => false) &&
  (!bwd ||
    ((match wingDesc w (pw c 1) with | some d => descOk w d && spaceOk 0 d && vselOk img k false d && dRow d && d.fmt == 13 && d.d0 == hq * cl.dV && d.d1 == m | none => false) &&
     (match dd with | some d => dRow d && dFmt d == pFmt c && d.d0 == hq * cl.dV && d.d1 == m | none => false) &&
     (match b with | some d => dRow d && d.fmt == 13 && d.d0 == cl.hKv * (cl.dK + cl.dV) | none => false)))

/-- PROJ (R190). -/
def projOk (c : Cmd) (cl : SeqClass) (a b : Desc) (cd y s x : Option Desc) : Bool :=
  let hq := bits (pw c 0) 4 7
  zeroBits c 0 0xFFFFF800 && wordsZero c [1, 2] && decide (hq ≤ 64) && !meIntOut c && meKPart c == 0 &&
  !meUseT c && !meUseP c &&
  dRow a && dRow b && mePairOk (dFmt a) (dFmt b) && a.d0 == b.d0 && b.d1 == hq * cl.dK + cl.hKv * (cl.dK + cl.dV) &&
  (mePath a b != 0 || barrelFits (dFmt a) (dFmt b) a.d0) &&
  outStageOk c (fmtIsInt (dFmt a)) cd none none b.d1 && (meChk c || x.isSome) &&
  (match cd with | some d => decide (1 ≤ hq) && dRow d && d.d0 == hq * cl.dK && d.d1 == a.d1 | none => hq == 0) &&
  (match y with | some d => rawOk d (8 * a.d1) | none => false) &&
  (match s with | some d => rawOk d 32768 | none => false)

/-- RETR (R203). -/
def retrOk (c : Cmd) (cl : SeqClass) (a : Desc) (y s e : Option Desc) : Bool :=
  let k := bits (pw c 0) 4 7
  zeroBits c 0 0xFFFFF800 && wordsZero c [1, 2, 3, 4, 5, 6, 7] && decide (1 ≤ k ∧ k ≤ 64) && cl.coarse &&
  dRow a && a.fmt == 11 && a.d0 == cl.hKv * cl.dK && y.isSome && (match s with | some d => rawOk d 32768 | none => false) &&
  (match e with | some d => rawOk d (4 * k * a.d1) | none => false)

/-- SEQ (R183). -/
def seqOk (c : Cmd) (a : Desc) (cd : Option Desc) : Bool :=
  let n := bits (pw c 0) 0 13
  decide (1 ≤ n ∧ n ≤ 4096) && zeroBits c 0 0xFFFFE000 && wordsZero c [1, 2, 3, 4, 5, 6, 7] &&
  rawOk a (16 * n) && (match cd with | some d => rawOk d (8 * n) | none => false)

/-- The operand B of an elementwise opcode (R222). -/
def bcastOk (c : Cmd) (a : Desc) (b : Option Desc) : Bool :=
  match bits (pw c 0) 0 2, b with
  | 0, some d => sameShape a d
  | 1, some d => dRow d && d.d1 == 1 && d.d0 == a.d0
  | 2, some d => !dRow a && dRow d && d.d1 == 1 && d.d0 == a.d0
  | 3, none => true
  | _, _ => false

/-- A scalar in W4 uses only the bits of its format (R222). -/
def scalarOk (c : Cmd) : Bool :=
  if bits (pw c 0) 0 2 = 3 then (decide (2 ≤ vOpFmt c) || decide (pw c 4 < 65536)) else pw c 4 == 0

/-- Bits of W3 that an opcode does not use (R217): GATHER, HIST, COLSTAT, ZCOMP, ZDEC and VERDICT use none, ARGMAX and TOPK make no final
conversion. -/
def w3Unused (o : Nat) : Nat :=
  if o = 0x38 ∨ o = 0x39 then 0xFFFFFFCF else if 0x3A ≤ o then 0xFFFFFFFF else 0xFFFFFFC1

/-- Vector tile commands (R217-R246). -/
def vtOk (c : Cmd) (a : Desc) (b cd t p c2 t2 : Option Desc) : Bool :=
  let o := c.opcode
  let opf := vOpFmt c
  let inA := inputOk opf a
  let inB := match b with | some d => inputOk opf d | none => true
  let cOk := match cd with
    | some d => if opf = 3 then fmtIsInt (dFmt d) && !d.scaled else true
    | none => true
  let cShape := match cd with | some d => sameShape a d | none => false
  let n := dElems a
  wRnd c != 3 && zeroBits c 3 (w3Unused o) &&
  (if o ≤ 0x2E then decide (1 ≤ n ∧ n ≤ 16777215) && cShape else true) &&
  (if o ≤ 0x28 then
     bcastOk c a b && scalarOk c && wordsZero c [1, 2, 5, 6, 7] && zeroBits c 0 (if o = 0x26 then 0xFFFFFFE0 else 0xFFFFFFFC) && inA && inB &&
     (match o with
      | 0x22 => opf != 3 || !(a.fmt == 3 && (match b with | some d => d.fmt == 3 | none => true))
      | 0x23 => (opf != 3 || !(a.fmt == 3 && (match b with | some d => d.fmt == 3 | none => true))) &&
          (match t with | some d => sameShape a d && inputOk opf d | none => false)
      | 0x26 => decide (bits (pw c 0) 2 3 ≤ 5) && (match cd with | some d => d.fmt == 4 && !d.scaled | none => false)
      | 0x27 => (match t with | some d => sameShape a d && d.fmt == 4 && !d.scaled | none => false)
      | 0x28 => opf != 3
      | _ => true) && (o == 0x26 || cOk)
   else match o with
   | 0x29 | 0x2A => wordsZero c [0, 1, 2, 4, 5, 6, 7] && inA && opf != 3
   | 0x2B =>
     let fn := bits (pw c 0) 0 4
     zeroBits c 0 0xFFFFFFF0 && wordsZero c [1, 2, 6, 7] && decide (fn ≤ 10) && inA && cOk &&
     (if 3 ≤ fn ∧ fn ≤ 8 then opf == 2 else true) && (fn != 2 || opf != 3) &&
     (match fn with
      | 1 => !clampBad (opf == 3) (opFloat opf) (pw c 4) (pw c 5) &&
          (decide (2 ≤ opf) || (decide (pw c 4 < 65536) && decide (pw c 5 < 65536)))
      | 2 => !(decodeVal .fp32 (pw c 4)).isNan && pw c 5 == 0
      | _ => wordsZero c [4, 5])
   | 0x2C =>
     wordsZero c [0, 1, 2, 4, 5, 6, 7] &&
     (match cd with
      | some d =>
        let f := dFmt d
        if d.scaled || fmtBits f < 8 || fmtIsFp8 f || fmtIsInt f then opf == 2 else opf != 3 && opFloat opf == f
      | none => false)
   | 0x2D | 0x2E =>
     wordsZero c [1, 2, 4, 5, 6, 7] && zeroBits c 0 0xFFFFFFFC && !a.scaled &&
     (match bits (pw c 0) 0 2, p with
      | 2, some d => !dRow a && rawOk d (8 * a.d0)
      | 3, some d => rawOk d 8
      | _, _ => false) &&
     (match cd with
      | some d =>
        inA && (if o = 0x2D then fmtIsInt (dFmt d) else !fmtIsInt (dFmt d) && fmtIsInt (dFmt a))
      | none => false)
   | 0x30 | 0x31 | 0x32 =>
     wordsZero c [0, 1, 2, 5, 6, 7] && (o != 0x32 || pw c 4 == 0) && opf == 2 && inA && dRow a && cShape && decide (a.d0 ≤ 65536) &&
     (let e := decodeVal .fp32 (pw c 4); !e.isNan && !(e.neg? && !e.isZero)) &&
     (match o, p with
      | 0x30, some d => rawOk d (8 * a.d0)
      | 0x31, some d => rawOk d (4 * a.d0)
      | 0x32, none => true
      | _, _ => false)
   | 0x34 | 0x35 =>
     !dRow a && windowOk c a && mePadMode c == 0 && zeroBits c 2 (if o = 0x35 then 0xFFFFFFFE else 0xFFFFFFFF) && wordsZero c [4, 5, 6, 7] &&
     (match cd with
      | some d => d.layout == a.layout && d.d0 == a.d0 && (d.d1 : Int) == outW c a && (d.d2 : Int) == outH c a && d.d3 == a.d3
      | none => false) && cOk &&
     (if fmtIsInt (dFmt a) then opf == 3
      else if o = 0x35 then opf == 2 && inA
      else opf != 3 && opFloat opf == dFmt a && inA)
   | 0x36 =>
     !dRow a && zeroBits c 0 0xFFFFFFFE && wordsZero c [1, 2, 4, 5, 6, 7] && inA && cOk &&
     (match cd with
      | some d => d.layout == a.layout && d.d0 == a.d0 && d.d1 == 1 && d.d2 == 1 && d.d3 == a.d3
      | none => false)
   | 0x38 =>
     !dRow a && !a.scaled && inA && decide (a.d0 ≤ 65534) && zeroBits c 0 0xFFFFFFFE && wordsZero c [1, 2, 4, 5, 6, 7] &&
     (match cd with | some d => dRow d && d.fmt == 5 && dElems d == a.d3 * a.d2 * a.d1 | none => false) &&
     (match c2 with
      | some d => bit (pw c 0) 0 && dRow d && d.fmt == a.fmt && !d.scaled && dElems d == a.d3 * a.d2 * a.d1
      | none => !bit (pw c 0) 0)
   | 0x39 =>
     let k := bits (pw c 0) 0 7
     dRow a && !a.scaled && inA && decide (a.d0 ≤ 65536) && decide (1 ≤ k ∧ k ≤ 64) && zeroBits c 0 0xFFFFFF80 && wordsZero c [1, 2, 4, 5, 6, 7] &&
     (match cd with | some d => dRow d && d.fmt == a.fmt && !d.scaled && d.d0 == k && d.d1 == a.d1 | none => false) &&
     (match c2 with | some d => dRow d && d.fmt == 3 && d.d0 == k && d.d1 == a.d1 | none => false)
   | 0x3A =>
     dRow a && !a.scaled && decide (a.d0 ≤ 65536) && wordsZero c [0, 1, 2, 4, 5, 6, 7] &&
     (match t, cd with
      | some i, some d => (i.fmt == 3 || i.fmt == 5) && decide (dElems i ≤ 16777215) && dRow d && d.fmt == a.fmt && !d.scaled && d.d0 == a.d0 && d.d1 == dElems i
      | _, _ => false)
   | 0x3B =>
     let nb := bits (pw c 0) 0 13
     !a.scaled && (a.fmt == 1 || a.fmt == 2 || a.fmt == 4 || a.fmt == 5) && decide (1 ≤ nb ∧ nb ≤ 4096) && zeroBits c 0 0xFFFFC000 &&
     zeroBits c 5 0xFFFFFFE0 && decide (pw c 5 ≤ 16) && wordsZero c [1, 2, 6, 7] &&
     (match cd with | some d => dRow d && d.fmt == 3 && dElems d == nb + 2 | none => false) &&
     (match t2, cd with
      | some d, some e => bit (pw c 0) 13 && sameShape d e && d.fmt == e.fmt
      | none, _ => !bit (pw c 0) 13
      | _, _ => false) &&
     (match t with | some d => sameShape a d && d.fmt == 4 | none => true)
   | 0x3C =>
     dRow a && a.fmt == 5 && decide (a.d0 ≤ 65535) && zeroBits c 0 0xFFFFFE00 && wordsZero c [1, 2, 6, 7] &&
     (match t with
      | some d => dRow d && d.fmt == 5 && decide (ceilDiv a.d1 (bits (pw c 0) 0 4 + 1) ≤ d.d1 ∧ ceilDiv a.d0 (bits (pw c 0) 4 4 + 1) ≤ d.d0)
      | none => false) &&
     (match cd with | some d => rawOk d (32 * a.d0) | none => false) &&
     (match t2 with | some d => bit (pw c 0) 8 && rawOk d (32 * a.d0) | none => !bit (pw c 0) 8)
   | 0x3E =>
     wordsZero c [0, 1, 2, 4, 5, 6, 7] && !a.scaled &&
     (let nb := ceilDiv (dExtent a) 512
      decide (1 ≤ nb ∧ nb ≤ 2048) && (match cd with | some d => rawOk d (16 + nb * 520) | none => false))
   | 0x3F => wordsZero c [0, 1, 2, 4, 5, 6, 7] && dRow a
   | 0x40 =>
     let nr := bits (pw c 0) 0 7
     let rev := bit (pw c 2) 0
     let w := fun (x : Nat) => bits x 0 4
     dRow a && (is16Float (dFmt a) || a.fmt == 13) && !a.scaled && decide (a.d1 ≤ 16384 ∧ a.d0 ≤ 4096) && decide (1 ≤ nr ∧ nr ≤ 64) &&
     zeroBits c 0 0x8000FF80 && zeroBits c 2 0xFFFFFFFE && wordsZero c [4, 5, 6, 7] && zeroBits c 1 0xF000F000 &&
     decide (w (pw c 1) ≤ 2) && (let nv := w (pw c 1 >>> 16); nv == 1 || nv == 2) &&
     (!rev || (w (pw c 1) != 2 && w (pw c 1 >>> 16) != 2)) &&
     (match p with | some d => rawOk d (16 * nr) | none => false)
   | _ => false)

/-- COPY and FILL operands (R260). -/
def xfOk (c : Cmd) (a cd : Option Desc) : Bool :=
  match c.opcode, a, cd with
  | 0x08, some x, some y =>
    sameShape x y && x.fmt == y.fmt && wordsZero c [0, 1, 2, 3, 4, 5, 6, 7] &&
    (match x.space, y.space with
     | 1, 0 => true
     | 0, 1 => true
     | 0, n => decide (2 ≤ n)
     | n, 0 => decide (2 ≤ n)
     | _, _ => false)
  | 0x09, none, some _ => wordsZero c [0, 1, 2, 3, 5, 6, 7]
  | _, _, _ => false

/-- The operand rules of the opcode. -/
def opOk (img : Image) (k : Nat) (w : WingPlan) (c : Cmd) : Bool :=
  let d := fun i => opDesc w c i
  match c.opcode with
  | 0x00 | 0x01 => wordsZero c [0, 1, 2, 3, 4, 5, 6, 7]
  | 0x08 | 0x09 => xfOk c (d 0) (d 2)
  | o =>
    match d 0 with
    | none => false
    | some a =>
      let cls := img.plan.classes[bits (pw c 0) 0 4]?
      match o with
      | 0x10 => match d 1 with | some b => mmOk c a b (d 2) (d 3) (d 4) (d 5) | none => false
      | 0x11 => match d 1 with | some b => convOk c a b (d 2) (d 3) (d 4) (d 5) | none => false
      | 0x12 | 0x13 => match d 1 with | some b => winoOk c a b (d 2) (d 3) (d 4) (d 5) | none => false
      | 0x18 => match cls, d 1 with | some cl, some b => projOk c cl a b (d 2) (d 3) (d 5) (d 7) | _, _ => false
      | 0x19 | 0x1A => match cls with | some cl => attnOk img k w c cl a (d 2) (d 3) (d 4) (d 5) (d 6) (d 7) (d 1) | none => false
      | 0x1B => match cls with | some cl => retrOk c cl a (d 3) (d 5) (d 6) | none => false
      | 0x1C => seqOk c a (d 2)
      | _ => vtOk c a (d 1) (d 2) (d 3) (d 4) (d 5) (d 6)

/-- A COPY whose C lies in the Assembler mailbox of the Wing (R353). -/
def mailboxCopy (w : WingPlan) (c : Cmd) : Bool :=
  c.opcode == 0x08 && match opDesc w c 2 with
    | some d => d.space == 1 && d.vsel == 0 && decide (w.asm.mailBase ≤ d.addr ∧ d.addr + dExtent d ≤ w.asm.mailBase + w.asm.mailSize ∧ 0 < w.asm.mailSize)
    | none => false

/-- What the Assembler adds to the WCC of its COPY (R353); the sample bytes are those of O_max samples of one byte a pixel
(log entry 30). -/
def asmWcc (a : AsmPlan) (d : Desc) : Nat := 256 + ceilDiv (dExtent d) 64 + 64 * a.oMax + ceilDiv (a.oMax * a.sampleW * a.sampleH) 64

/-- WCC of a command by its opcode's formula (R160, R206, R248, R261). -/
def wccOf (img : Image) (w : WingPlan) (c : Cmd) : Nat :=
  let d := fun i => opDesc w c i
  let a := (d 0).getD { addr := 0 }
  let b := (d 1).getD { addr := 0 }
  let cd := (d 2).getD { addr := 0 }
  let cl := (img.plan.classes[bits (pw c 0) 0 4]?).getD {}
  match c.opcode with
  | 0x00 | 0x01 => 8
  | 0x08 | 0x09 => wccXf (c.opcode == 9) w.beta (a.space == 1 && !opAbsent c 0 || cd.space == 1) cd + (if mailboxCopy w c then asmWcc w.asm cd else 0)
  | 0x10 => wccMm c a b (d 2) (d 3) b.d1
  | 0x11 => wccConv c a b (d 2) (d 3)
  | 0x12 | 0x13 => wccWino c a b (d 2) (d 3)
  | 0x18 | 0x19 | 0x1A | 0x1B => wccAttn c w cl a (d 1) (d 2)
  | 0x1C => wccSeq img.plan.classes (bits (pw c 0) 0 13)
  | _ => wccVt c a cd (d 3)

/-- Slots that an opcode writes. -/
def writeSlots (o : Nat) : List Nat :=
  match o with
  | 0x1A => [1, 2]
  | 0x1B => [6]
  | 0x19 => [2, 4]
  | 0x40 => []
  | _ => [2, 5]

/-- Slot i of an opcode is written (X and S share slot 5 with C' of the vector tiles). -/
def slotWritten (o i : Nat) : Bool := (writeSlots o).contains i && !(i == 5 && decide (o < 0x20))

/-- Command faults (R98, R135, R219, R259): the command may not issue. `be` is true in a step list. -/
def cmdFault (img : Image) (k qi : Nat) (be : Bool) (c : Cmd) : Bool :=
  let w := img.plan.wings.getD k {}
  !((match opcodeKind c.opcode with | some kind => kindFits kind qi | none => false) &&
    c.flags >>> 3 == 0 && (cBestEffort c == be) &&
    (if cWaitEn c then decide (c.waitTok < 64 ∧ 1 ≤ c.waitVal ∧ c.waitVal ≤ 65535) else c.waitTok == 0 && c.waitVal == 0) &&
    (if cSigEn c then decide (c.sigTok < 64) else c.sigTok == 0) &&
    decide (c.job < 256) && decide (1 ≤ c.wcc ∧ c.wcc ≤ 0xFFFFFFFF) && (!be || c.slot == 0) && decide (c.slot ≤ 0xFFFFFFFF) &&
    ((List.range 8).all fun i => opAbsent c i ||
      (match opDesc w c i with
       | some d => descOk w d && spaceOk qi d && vselOk img k (slotWritten c.opcode i) d
       | none => false)) &&
    slotsOk c && c.param.all (fun x => decide (x < 2 ^ 32)) && opOk img k w c && decide (wccOf img w c ≤ c.wcc))

/-- A token range breach (R268). -/
def tokenBreach (be : Bool) (c : Cmd) : Bool :=
  (cSigEn c && (if be then decide (c.sigTok < 48) else decide (48 ≤ c.sigTok))) || (!be && cWaitEn c && decide (48 ≤ c.waitTok))

end Sys2Proof.Machine
end

