-- ==== Sys2Proof/Machine/Engine.lean ====
section
/-! DEFINITION. What a command changes while an engine of a Wing runs it (R66, R132, R171-R179, R214, R242, R265-R270):
the regions of the KV allocator, the accumulator bank, the command at issue and the engine's view. -/

namespace Sys2Proof.Machine

/-- The KV allocator of a logical Wing, as its five DRAM-resident Carried regions hold it (R175-R179, R202), each as bytes from offset 0:
sequence records, page lists, free list with its head and tail, the Wing's share of the page map, and the coarse index. The freed list
of the Beat and the slots that its LEAVEs freed stand beside them until the Landing (R186). -/
structure Kv where
  recs   : Memory := []
  lists  : Memory := []
  free   : Memory := []
  pmap   : Memory := []
  coarse : Memory := []
  freed  : List Nat := []
  left   : List Nat := []
  deriving DecidableEq, Repr, Inhabited

/-- One output accumulator of the bank (R132): a Barrel, or the running sum S in FP32. -/
inductive Acc80 where
  | barrel (b : Barrel)
  | sum (v : Val)
  deriving DecidableEq, Repr, Inhabited

/-- What the commands of a chain have alike (R153): opcode, M, N, and format, scaled use and layout of the operands. -/
structure ChainKey where
  opcode : Nat
  m      : Nat
  n      : Nat
  fa     : Fmt
  fb     : Fmt
  sa     : Bool
  sb     : Bool
  la     : Nat
  deriving DecidableEq, Repr, Inhabited

/-- The Barrel bank with the open chain it belongs to (R132, R153). -/
structure Bank where
  key    : ChainKey
  vals   : List Acc80
  /-- The commands of the chain so far, for its repeat (R168). -/
  cmds   : List (Nat × Cmd) := []
  deriving DecidableEq, Repr

/-- What stops a command as a failed check of its own (R98, R168, R169, R249, R250). -/
inductive EngErr where
  /-- A command fault. -/
  | fault
  /-- A block whose CRC-32C does not match, and whether it lies in DRAM. -/
  | crc (block : Nat) (dram : Bool)
  /-- An unwritten block of a tile store. -/
  | unwritten (block : Nat)
  /-- A compressed stream fault. -/
  | stream (block : Nat)
  /-- A result-list fault. -/
  | results
  /-- A check of the matrix engine, with the fields of its summary (R152, R154, R155, R162-R164). -/
  | check (f : CheckFail)
  /-- A write into a region of another logical Wing. -/
  | ownership
  /-- A breach of the job shares. -/
  | share
  /-- A page tag that differs from the tag of the class. -/
  | tag
  deriving DecidableEq, Repr

/-- The command at issue and what it runs under. -/
structure Issue where
  img   : Image
  k     : Nat
  qi    : Nat
  index : Nat
  cmd   : Cmd
  /-- The Beat whose work runs. -/
  beat  : Nat
  be    : Bool := false
  /-- β of R275: the Beat, or the step number of a best-effort job. -/
  beta  : Nat := 0
  seed  : Nat := 0
  dramBytes : Nat := 0
  /-- Adapter bank in force for the Beat. -/
  bank  : Nat := 0

/-- What an engine reads and writes. -/
structure Eng where
  gal     : Memory := []
  tiles   : Vector Memory 6 := Vector.replicate 6 []
  tileW   : Vector (List Nat) 6 := Vector.replicate 6 []
  dram    : Memory := []
  /-- Blocks whose CRC-32C does not match their data (R69). -/
  badGal  : List Nat := []
  badTile : Vector (List Nat) 6 := Vector.replicate 6 []
  badDram : List Nat := []
  shadow  : Bool := false
  scratch : List Host.Cell := []
  kv      : Kv := {}
  bank    : Option Bank := none
  posts   : List (Nat × Nat) := []
  written : List Nat := []
  /-- Bits of WNG_VT_STATUS_k that the command sets (R251) and rows given the NaN verdict (R252). -/
  vtFlags : Nat := 0
  nanRows : Nat := 0
  /-- Bits of MEM_KV_STATUS (R209), refusals (R212) and alarm codes raised. -/
  kvFlags : Nat := 0
  kvRefused : Nat := 0
  alarms  : List (Nat × Nat) := []

end Sys2Proof.Machine
end

