-- ==== Sys2Proof/Machine/Operands.lean ====
section
/-! DEFINITION. Operands of the Wing engines: how a descriptor resolves to a space and an address, shares and ownership, reads and
writes with their checks, elements and draws (R66, R87, R98-R100, R107, R111-R116, R214, R215, R260, R265-R270, R275). -/

namespace Sys2Proof.Machine

/-- An operand resolved to a space and a byte address. -/
structure Opnd where
  d     : Desc
  space : Nat
  addr  : Nat
  /-- Address of the scale plane, in the same space. -/
  scale : Nat := 0

def opFmt (o : Opnd) : Fmt := dFmt o.d

/-- The plan of the issuing logical Wing. -/
def iWing (i : Issue) : WingPlan := i.img.plan.wings.getD i.k {}

/-- Size of a space in bytes (R68, R214, R266). -/
def spaceSize (i : Issue) (sp : Nat) : Nat := if sp = 0 then 0x3000000 else if sp = 1 then i.dramBytes else 0x100000

/-- Position of version v of a region (R265): r + 2 places, used in turn. -/
def versionAt (r : Region) (places : Nat) (v : Int) : Nat := r.base + (v % (places : Int)).toNat * r.stride

/-- The version that vsel selects for a reader k of region r in the work of a Beat (R87, R265). -/
def vselVersion (i : Issue) (r : Region) (vsel : Nat) : Int :=
  if vsel = 1 then (if r.owner = i.k then (i.beat : Int) - 1 else (i.beat : Int) - 1 - i.img.plan.r) else (i.beat : Int)

/-- [a, a + n) lies within [b, b + m). -/
def within (a n b m : Nat) : Bool := decide (b ≤ a ∧ a + n ≤ b + m)

/-- The two ranges share a byte. -/
def overlaps (a n b m : Nat) : Bool := decide (a < b + m ∧ b < a + n)

/-- Where the versions of a region start for a descriptor of a space (R77, R265, log entry 90): a Gallery-resident region has its home in
the slice and its mirror in DRAM. -/
def regionBase (r : Region) (sp : Nat) : Option Nat :=
  if sp = 1 then (if r.gallery then r.mirror else some r.base) else if sp = 0 ∧ r.gallery then some r.base else none

/-- DRAM that a region occupies: base and size of its r + 2 versions, in its home or its mirror. -/
def regionDram (p : Plan) (r : Region) : Option (Nat × Nat) := (regionBase r 1).map fun b => (b, (p.r + 2) * r.stride)

/-- DRAM [a, a + n) touches a region, a mirror or a KV page that another logical Wing than k owns (R87, R172). -/
def foreignDram (p : Plan) (k a n : Nat) : Bool :=
  (p.regions.any fun r => r.owner != k && (match regionDram p r with | some x => overlaps x.1 x.2 a n | none => false)) ||
  (List.range p.wings.length).any fun j =>
    let w := p.wings.getD j {}
    j != k && overlaps (p.kvBase + 16384 * w.pageBase) (16384 * w.pageCount) a n

/-- Resolves a descriptor to a space and address (R87, R265, R266, R286). -/
def resolveDesc (i : Issue) (write : Bool) (d : Desc) : Except EngErr (Nat × Nat) :=
  let w := iWing i
  let ext := dExtent d
  if d.vsel = 0 then
    let a := d.addr + (if d.adp then i.bank * w.adptStep else 0)
    if spaceSize i d.space < a + ext then .error .fault
    else if write && d.space == 1 && foreignDram i.img.plan i.k a ext then .error .ownership
    else .ok (d.space, a)
  else match i.img.plan.regions.find? (fun r => r.id == d.region) with
    | none => .error .fault
    | some r =>
      if d.vsel = 2 ∧ r.owner ≠ i.k then .error .ownership
      else if (d.vsel = 3 ∧ r.owner ≠ i.k) ∨ r.size < d.addr + ext then .error .fault
      else match regionBase r d.space with
        | none => .error .fault
        | some b =>
          let a := versionAt { r with base := b } (i.img.plan.r + 2) (vselVersion i r d.vsel) + d.addr
          if a + ext ≤ spaceSize i d.space then .ok (d.space, a) else .error .fault

/-- Base and size in bytes of a job's share of a space on logical Wing k (R269). -/
def jobShare (j : Job) (k sp : Nat) : Nat × Nat :=
  if sp = 0 then let p := j.galShare.getD k (0, 0); (p.1 * 65536, p.2 * 65536)
  else if sp = 1 then (j.dramShare.1 * 16777216, j.dramShare.2 * 16777216)
  else let p := j.tsShare.getD (6 * k + (sp - 2)) (0, 0); (p.1 * 4096, p.2 * 4096)

/-- The share check of R270. A write lies in the own job's share. A read of a Carried version is one that R87 and R265 allow, and a read
of an adapter bank is that of the promoted set (R286); any other read touches no share of another job, so that what it reads is its own or
is written by no command (log entry 17). A latency-critical command reads nothing else that a best-effort job may write. -/
def shareOk (i : Issue) (write : Bool) (d : Desc) (sp a : Nat) : Bool :=
  let off := fun (j : Job) => let s := jobShare j i.k sp; !overlaps a (dExtent d) s.1 s.2
  if write then i.img.plan.jobs.any fun j => j.id == i.cmd.job && (let s := jobShare j i.k sp; within a (dExtent d) s.1 s.2)
  else if d.adp then true
  else if d.vsel ≠ 0 then i.be || i.img.plan.jobs.all fun j => !j.bestEffort || off j
  else i.img.plan.jobs.all fun j => j.id == i.cmd.job || off j

/-- A descriptor resolved for a read or a write, its place and that of its scale plane checked against the shares. -/
def resolveOpnd (i : Issue) (write : Bool) (d : Desc) : Except EngErr Opnd := do
  let (sp, a) ← resolveDesc i write d
  if !shareOk i write d sp a then .error .share
  else if d.scaled then
    match wingDesc (iWing i) d.scaleIdx with
    | some pd => do
      let (psp, pa) ← resolveDesc i write pd
      if shareOk i write pd psp pa then .ok { d := d, space := sp, addr := a, scale := pa } else .error .share
    | none => .error .fault
  else .ok { d := d, space := sp, addr := a }

/-- The operand in a slot, resolved and checked; none if absent. -/
def operand (i : Issue) (slot : Nat) : Except EngErr (Option Opnd) :=
  if opAbsent i.cmd slot then .ok none
  else match opDesc (iWing i) i.cmd slot with
    | none => .error .fault
    | some d => (resolveOpnd i (slotWritten i.cmd.opcode slot) d).map some

/-- An operand that must be present. -/
def operandReq (i : Issue) (slot : Nat) : Except EngErr Opnd := do
  match ← operand i slot with
  | some o => .ok o
  | none => .error .fault

/-- The byte at an address of a space. -/
def engRead (e : Eng) (sp a : Nat) : Byte :=
  if sp = 0 then memRead e.gal a
  else if sp = 1 then
    match (if e.shadow then e.scratch.find? (fun c => c.1 == a) else none) with
    | some c => c.2
    | none => memRead e.dram a
  else if h : sp - 2 < 6 then memRead e.tiles[sp - 2] a else 0

def engReads (e : Eng) (sp a n : Nat) : List Byte := (List.range n).map fun j => engRead e sp (a + j)

/-- Marks the blocks that [a, a + n) touches as written (R215). -/
def markBlocks (l : List Nat) (a n : Nat) : List Nat :=
  if n = 0 then l
  else
    (List.range ((a + n - 1) / 512 - a / 512 + 1)).foldl
      (fun acc j => if acc.contains (a / 512 + j) then acc else acc ++ [a / 512 + j]) l

/-- The blocks that an extent touches. -/
def blocksOf (a n : Nat) : List Nat := if n = 0 then [] else (List.range ((a + n - 1) / 512 - a / 512 + 1)).map fun j => a / 512 + j

/-- A list of failing blocks without those that [a, a + n) touches. -/
def cleared (bad : List Nat) (a n : Nat) : List Nat := bad.filter fun b => !overlaps (512 * b) 512 a n

/-- Stores bytes in a space; every block that they touch takes a new CRC-32C (R260, R414). -/
def engWrite (e : Eng) (sp a : Nat) (bs : List Byte) : Eng :=
  if sp = 0 then { e with gal := memWrites e.gal a bs, badGal := cleared e.badGal a bs.length }
  else if sp = 1 then
    if e.shadow then { e with scratch := (bs.zipIdx.map fun x => (a + x.2, x.1)).reverse ++ e.scratch }
    else { e with dram := memWrites e.dram a bs, badDram := cleared e.badDram a bs.length }
  else if h : sp - 2 < 6 then
    { e with tiles := e.tiles.set (sp - 2) (memWrites e.tiles[sp - 2] a bs)
             badTile := e.badTile.set (sp - 2) (cleared e.badTile[sp - 2] a bs.length)
             tileW := e.tileW.set (sp - 2) (markBlocks e.tileW[sp - 2] a bs.length) }
  else e

/-- The CRC-32C of a block of a space does not match (R69). A block that a shadow Wing has written to its scratch area is read there. -/
def blockBad (e : Eng) (sp b : Nat) : Bool :=
  if sp = 0 then e.badGal.contains b
  else if sp = 1 then e.badDram.contains b && !(e.shadow && e.scratch.any fun c => c.1 / 512 == b)
  else if h : sp - 2 < 6 then e.badTile[sp - 2].contains b else false

/-- The block of a tile store has not been written since the last Landing (R215). -/
def blockUnwritten (e : Eng) (sp b : Nat) : Bool := if h : 2 ≤ sp ∧ sp - 2 < 6 then !e.tileW[sp - 2].contains b else false

/-- The CRC-32C of blocks that are read (R69, R414). -/
def checkCrc (e : Eng) (sp : Nat) (bs : List Nat) : Except EngErr Unit :=
  match bs.find? (blockBad e sp) with
  | some b => .error (.crc b (sp == 1))
  | none => .ok ()

/-- The checks of blocks that an engine reads: unwritten blocks of a tile store (R215), then the CRC-32C. -/
def checkBlocks (e : Eng) (sp : Nat) (bs : List Nat) : Except EngErr Unit :=
  match bs.find? (blockUnwritten e sp) with
  | some b => .error (.unwritten b)
  | none => checkCrc e sp bs

/-- The blocks that runs of an operand's elements touch, and those of its scale plane. -/
def opndBlocks (o : Opnd) (rs : List (Nat × Nat)) : List Nat :=
  (runBlocks (opFmt o) rs).map (fun b => o.addr / 512 + b) ++ (if o.d.scaled then (scaleBlocks rs).map fun b => o.scale / 512 + b else [])

/-- Checks the blocks of runs of an operand. -/
def checkRuns (e : Eng) (o : Opnd) (rs : List (Nat × Nat)) : Except EngErr Unit := checkBlocks e o.space (opndBlocks o rs)

/-- Checks every block that holds elements of an operand. -/
def checkOpnd (e : Eng) (o : Opnd) : Except EngErr Unit := checkRuns e o (allRuns o.d)

def checkOpnds (e : Eng) : List (Option Opnd) → Except EngErr Unit
  | [] => .ok ()
  | none :: os => checkOpnds e os
  | some o :: os => do
    checkOpnd e o
    checkOpnds e os

/-- The code of the element at a storage index. -/
def getCode (e : Eng) (o : Opnd) (st : Nat) : Nat :=
  let f := opFmt o
  bits (fromLe (engReads e o.space (o.addr + elemByte f st) (elemLen f))) (elemShift f st) (fmtBits f)

/-- The scale byte of the element at a storage index (R108). -/
def getScale (e : Eng) (o : Opnd) (st : Nat) : Nat := if o.d.scaled then (engRead e o.space (o.scale + st / 32)).toNat else 0x7F

/-- The value of the element at a storage index, times its scale in scaled use (R107). -/
def getVal (e : Eng) (o : Opnd) (st : Nat) : Val :=
  let v := decodeVal (opFmt o) (getCode e o st)
  if o.d.scaled then vMul v (scaleVal (getScale e o st)) else v

/-- The signed integer at a storage index of an integer tensor. -/
def getInt (e : Eng) (o : Opnd) (st : Nat) : Int :=
  let f := opFmt o
  let c := getCode e o st
  if fmtSigned f then sext (fmtBits f) c else (c : Int)

/-- Writes one element code (R99, R100). -/
def putCode (e : Eng) (o : Opnd) (st code : Nat) : Eng :=
  let f := opFmt o
  let a := o.addr + elemByte f st
  let old := fromLe (engReads e o.space a (elemLen f))
  let e := engWrite e o.space a (leBytes (elemLen f) (setBits old (elemShift f st) (fmtBits f) code))
  if fmtBits f = 6 then engWrite e o.space (o.addr + 512 * (st / fmtPerBlock f) + 504) (List.replicate 8 0) else e

def putCodes (e : Eng) (o : Opnd) : List (Nat × Nat) → Eng
  | [] => e
  | x :: xs => putCodes (putCode e o x.1 x.2) o xs

/-- Byte n of the raw content of a ROW operand, in ascending element order. -/
def rawAddr (o : Opnd) (n : Nat) : Nat :=
  let len := fmtBits (opFmt o) / 8
  if len = 0 then o.addr + n else o.addr + elemByte (opFmt o) (rowIdx o.d (n / len / o.d.d0) (n / len % o.d.d0)) + n % len

/-- The n raw bytes of an operand from offset off. -/
def rawReads (e : Eng) (o : Opnd) (off n : Nat) : List Byte := (List.range n).map fun j => engRead e o.space (rawAddr o (off + j))

/-- Stores raw bytes in an operand from offset off. -/
def rawWrites (e : Eng) (o : Opnd) : Nat → List Byte → Eng
  | _, [] => e
  | off, b :: bs => rawWrites (engWrite e o.space (rawAddr o off) [b]) o (off + 1) bs

/-- The key of the command's draws (R275): stream 0 for stochastic rounding, 1 for draws of adapter training. -/
def drawKey (i : Issue) (stream : Nat := 0) : DrawKey :=
  { seed := i.seed, index := i.index, beta := i.beta, lwing := i.k, stream := stream }

/-- The stream of a command's draws (R275, R285): 1 in adapter training, else 0. -/
def drawStream (i : Issue) : Nat := if i.be && i.img.plan.trainJob == some i.cmd.job then 1 else 0

/-- The rounding mode of a command for the output element of a linear index (R110, R112). -/
def rndAt (i : Issue) (lin : Nat) : Rnd :=
  match wRnd i.cmd with
  | 1 => .rtz
  | 2 => .sr (draw (drawKey i (drawStream i)) lin)
  | _ => .rne

/-- Takes n elements at a time. -/
def chunks {α : Type} (n : Nat) : Nat → List α → List (List α)
  | 0, _ => []
  | k + 1, xs => if xs.isEmpty then [] else xs.take n :: chunks n k (xs.drop n)

/-- Converts output values to C's format and writes them (R111-R114, R116): linear index, storage index and value of each
element, in storage order. -/
def putVals (i : Issue) (e : Eng) (o : Opnd) (sat : Bool) (xs : List (Nat × Nat × Val)) : Eng :=
  let f := opFmt o
  if o.d.scaled then
    (chunks 32 xs.length xs).foldl (fun e g =>
      let q := quantGroup f (g.map fun x => rndAt i x.1) (g.map fun x => x.2.2)
      let e := putCodes e o ((g.map fun x => x.2.1).zip q.2)
      match g with
      | x :: _ => engWrite e o.space (o.scale + x.2.1 / 32) [BitVec.ofNat 8 q.1]
      | [] => e) e
  else putCodes e o (xs.map fun x => (x.2.1, encodeVal f sat (rndAt i x.1) x.2.2))

end Sys2Proof.Machine
end

