-- ==== Sys2Proof/Machine/VectorCore.lean ====
section
/-! DEFINITION. What the vector tile opcodes compute (06_vector_tiles.md): elementwise, activation, quantisation, normalisation,
pooling, selection, histograms, statistics, zero compression and verdict logic. -/

namespace Sys2Proof.Machine

/-- Storage index of the element with a linear index (R112, R138, log entry 13). -/
def dSt (d : Desc) (lin : Nat) : Nat := if dRow d then rowIdx d (lin / d.d0) (lin % d.d0) else lin

/-- The bounds of the 48-bit internal width (R102, R218). -/
def clamp48 (x : Int) : Int := clampI (-(2 ^ 47)) (2 ^ 47 - 1) x

/-- The operand word of R222 as a value in op_fmt. -/
def scalarVal (opf w : Nat) : Val := if opf = 3 then valOfInt (sext 32 w) else decodeVal (opFloat opf) w

/-- An input element brought to op_fmt (R218). -/
def inVal (i : Issue) (e : Eng) (o : Opnd) (lin st : Nat) : Val :=
  let v := getVal e o st
  if o.d.scaled then roundTo (opFloat (vOpFmt i.cmd)) (rndAt i lin) v else v

/-- The integer an integer-format value stands for. -/
def valInt : Val → Int
  | .num n m e => let a : Int := ((m <<< e.toNat : Nat) : Int); if n then -a else a
  | _ => 0

/-- One comparison of R224: EQ NE LT LE GT GE. -/
def cmpPred (p : Nat) (a b : Val) : Bool :=
  if a.isNan || b.isNan then p == 1
  else
    let c := vCmp a b
    match p with
    | 0 => c == 0 | 1 => c != 0 | 2 => decide (c < 0) | 3 => decide (c ≤ 0) | 4 => decide (0 < c) | _ => decide (0 ≤ c)

/-- The integer opcodes 0x20 to 0x25 in the 48-bit width (R102, R218). -/
def intOp (o : Nat) (a b t : Int) : Int :=
  match o with
  | 0x20 => clamp48 (a + b)
  | 0x21 => clamp48 (a - b)
  | 0x22 => clamp48 (a * b)
  | 0x23 => clamp48 (clamp48 (a * b) + t)
  | 0x24 => if a < b then a else b
  | _ => if a < b then b else a

/-- The exact result of the float opcodes 0x20 to 0x25 and 0x28 to 0x2A before the one rounding of R125. -/
def floatOp (o : Nat) (a b t : Val) : Val :=
  match o with
  | 0x20 => vAdd a b
  | 0x21 => vSub a b
  | 0x22 => vMul a b
  | 0x23 => vFma a b t
  | 0x24 => vMin a b
  | 0x25 => vMax a b
  | 0x28 => vDiv a b
  | 0x29 => vSqrt a
  | _ => vRsqrt a

/-- One elementwise result in op_fmt: arithmetic opcodes (R125, R223). -/
def arithVal (i : Issue) (lin : Nat) (a b t : Val) : Val :=
  let o := i.cmd.opcode
  if vOpFmt i.cmd = 3 then valOfInt (intOp o (valInt a) (valInt b) (valInt t))
  else roundTo (opFloat (vOpFmt i.cmd)) (rndAt i lin) (floatOp o a b t)

/-- Element of B for an element of A, by bcast (R222). -/
def bVal (i : Issue) (e : Eng) (a : Opnd) (b : Option Opnd) (lin : Nat) : Val :=
  match b with
  | none => scalarVal (vOpFmt i.cmd) (pw i.cmd 4)
  | some bo =>
    if bits (pw i.cmd 0) 0 2 = 0 then inVal i e bo lin (dSt bo.d lin)
    else inVal i e bo lin (rowIdx bo.d 0 (dInner a.d (dSt a.d lin)))

/-- The elements of C with their values; channel padding is zero (R220). -/
def mapElems (o : Opnd) (f : Nat → Val) : List (Nat × Nat × Val) :=
  (dOrder o.d).map fun x => (x.1, x.2.1, if x.2.2 then vZero else f x.1)

/-- Runs an elementwise opcode with inputs A, B and T: the function gives the result of one element (R222). -/
def elementwise (i : Issue) (e : Eng) (f : Nat → Val → Val → Val → Val) : Except EngErr Eng := do
  let a ← operandReq i 0
  let b ← operand i 1
  let c ← operandReq i 2
  let t ← operand i 3
  checkOpnds e [some a, b, t]
  let sel := fun (lin : Nat) => match t with | some o => inVal i e o lin (dSt o.d lin) | none => vZero
  .ok (putVals i e c (wSat i.cmd) (mapElems c fun lin => f lin (inVal i e a lin (dSt a.d lin)) (if decide (0x29 ≤ i.cmd.opcode) then vZero else bVal i e a b lin) (sel lin)))

/-- ADD SUB MUL FMA MIN MAX DIV SQRT RSQRT (R223). -/
def vtArith (i : Issue) (e : Eng) : Except EngErr Eng := elementwise i e fun lin a b t => arithVal i lin a b t

/-- CMP (R224). -/
def vtCmp (i : Issue) (e : Eng) : Except EngErr Eng :=
  elementwise i e fun _ a b _ => valOfInt (if cmpPred (bits (pw i.cmd 0) 2 3) a b then 1 else 0)

/-- SEL (R224). -/
def vtSel (i : Issue) (e : Eng) : Except EngErr Eng := elementwise i e fun _ a b t => if t.isZero then b else a

/-- Sigmoid by the steps of R225. -/
def sigmoid (x : Val) : Val := rne32 (vDiv vOne (rne32 (vAdd vOne (expE (vNeg x)))))

/-- max(x, 0) with -0 taken to +0 (R225, R151). -/
def vRelu (x : Val) : Val := if x.isNan then .nan else if x.isZero || x.neg? then vZero else x

/-- min(max(x, lo), hi) with NaN kept (R225, R151). -/
def vClamp (lo hi x : Val) : Val := if x.isNan then .nan else vMin (vMax x lo) hi

/-- ACT of one element (R225). -/
def actVal (i : Issue) (x : Val) : Val :=
  let opf := vOpFmt i.cmd
  match bits (pw i.cmd 0) 0 4 with
  | 0 => vRelu x
  | 1 => vClamp (scalarVal opf (pw i.cmd 4)) (scalarVal opf (pw i.cmd 5)) x
  | 2 => if x.isNan then .nan else if vLt x vZero then rne32 (vMul x (decodeVal .fp32 (pw i.cmd 4))) else x
  | 3 => sigmoid x
  | 4 => rne32 (vTanh x)
  | 5 => rne32 (vMul x (sigmoid x))
  | 6 => rne32 (vMul x (sigmoid (rne32 (vMul (decodeVal .fp32 0x3FD9DB23) x))))
  | 7 => expE x
  | 8 => rne32 (vLn x)
  | 9 => vAbs x
  | _ => vNeg x

def vtAct (i : Issue) (e : Eng) : Except EngErr Eng := elementwise i e fun _ a _ _ => actVal i a

/-- CVT (R226): A in its own format, one rounding. -/
def vtCvt (i : Issue) (e : Eng) : Except EngErr Eng := do
  let a ← operandReq i 0
  let c ← operandReq i 2
  checkOpnds e [some a]
  .ok (putVals i e c (wSat i.cmd) (mapElems c fun lin => getVal e a (dSt a.d lin)))

/-- The scale and zero point of a QNT or DQNT element (R226). -/
def qRecord (i : Issue) (e : Eng) (a p : Opnd) (lin : Nat) : Val × Int :=
  let j := if bits (pw i.cmd 0) 0 2 = 2 then dInner a.d (dSt a.d lin) else 0
  let bs := rawReads e p (8 * j) 8
  (decodeVal .fp32 (leAt bs 0 4), sext 32 (leAt bs 4 4))

/-- Bytes of the records of QNT and DQNT: one for each channel or one in all (R226). -/
def qBytes (i : Issue) (a : Opnd) : Nat := if bits (pw i.cmd 0) 0 2 = 2 then 8 * a.d.d0 else 8

/-- QNT (R226). -/
def vtQnt (i : Issue) (e : Eng) : Except EngErr Eng := do
  let a ← operandReq i 0
  let c ← operandReq i 2
  let p ← operandReq i 4
  checkOpnd e a
  checkRuns e p (rawRuns p.d (qBytes i a))
  .ok (putVals i e c false (mapElems c fun lin =>
    let r := qRecord i e a p lin
    valOfInt (roundInt (rndAt i lin) (-(2 ^ 47)) (2 ^ 47 - 1) (vMul (inVal i e a lin (dSt a.d lin)) r.1) + r.2)))

/-- DQNT (R226). -/
def vtDqnt (i : Issue) (e : Eng) : Except EngErr Eng := do
  let a ← operandReq i 0
  let c ← operandReq i 2
  let p ← operandReq i 4
  checkOpnd e a
  checkRuns e p (rawRuns p.d (qBytes i a))
  .ok (putVals i e c (wSat i.cmd) (mapElems c fun lin =>
    let r := qRecord i e a p lin
    rne32 (vMul (valOfInt (getInt e a (dSt a.d lin) - r.2)) r.1)))

/-! Rows (R227, R228). -/

def rowVals (i : Issue) (e : Eng) (a : Opnd) (r : Nat) : List Val :=
  (List.range a.d.d0).map fun c => inVal i e a (r * a.d.d0 + c) (rowIdx a.d r c)

/-- FP32 word j of a raw operand. -/
def rawF32 (e : Eng) (p : Opnd) (j : Nat) : Val := decodeVal .fp32 (fromLe (rawReads e p (4 * j) 4))

def lnormRow (e : Eng) (p : Opnd) (eps : Val) (xs : List Val) : List Val :=
  let n := valOfInt xs.length
  let mu := rne32 (vDiv (red xs) n)
  let ds := xs.map fun x => rne32 (vSub x mu)
  let v := rne32 (vDiv (red (ds.map fun d => rne32 (vMul d d))) n)
  let rho := rne32 (vRsqrt (rne32 (vAdd v eps)))
  ds.zipIdx.map fun d => rne32 (vFma (rne32 (vMul d.1 rho)) (rawF32 e p (2 * d.2)) (rawF32 e p (2 * d.2 + 1)))

def rmsRow (e : Eng) (p : Opnd) (eps : Val) (xs : List Val) : List Val :=
  let q := rne32 (vDiv (red (xs.map fun x => rne32 (vMul x x))) (valOfInt xs.length))
  let rho := rne32 (vRsqrt (rne32 (vAdd q eps)))
  xs.zipIdx.map fun x => rne32 (vMul (rne32 (vMul x.1 rho)) (rawF32 e p x.2))

def softmaxRow (xs : List Val) : List Val :=
  let m := xs.foldl vMax (.inf true)
  if m.isInf then xs.map fun _ => .nan
  else
    let es := xs.map fun x => expE (rne32 (vSub x m))
    let s := red es
    es.map fun x => rne32 (vDiv x s)

/-- LNORM, RMSNORM, SOFTMAX: a NaN anywhere in a row makes the whole row NaN (R228). -/
def vtRows (i : Issue) (e : Eng) (f : Eng → Option Opnd → List Val → List Val) : Except EngErr Eng := do
  let a ← operandReq i 0
  let c ← operandReq i 2
  let p ← operand i 4
  checkOpnd e a
  match p with
  | some o => checkRuns e o (rawRuns o.d ((if i.cmd.opcode = 0x30 then 8 else 4) * a.d.d0))
  | none => .ok ()
  let ys := (List.range a.d.d1).flatMap fun r =>
    let xs := rowVals i e a r
    let ys := if xs.any Val.isNan then xs.map fun _ => Val.nan else f e p xs
    ys.zipIdx.map fun y => (r * a.d.d0 + y.2, rowIdx c.d r y.2, y.1)
  .ok (putVals i e c (wSat i.cmd) ys)

/-! Pooling (R229-R231). -/

/-- The values that a window reads inside A, in ascending ky, then kx. -/
def windowVals (i : Issue) (e : Eng) (a : Opnd) (n oy ox ch : Nat) : List Val :=
  (List.range (meKh i.cmd)).flatMap fun ky => (List.range (meKw i.cmd)).filterMap fun kx =>
    let y : Int := ((oy * meSy i.cmd + ky * meDy i.cmd : Nat) : Int) - (mePt i.cmd : Int)
    let x : Int := ((ox * meSx i.cmd + kx * meDx i.cmd : Nat) : Int) - (mePl i.cmd : Int)
    if 0 ≤ y ∧ y < (a.d.d2 : Int) ∧ 0 ≤ x ∧ x < (a.d.d1 : Int) then
      some (getVal e a (mapIdx a.d n y.toNat x.toNat ch))
    else none

/-- The exact integer sum over a count, rounded (R230). -/
def intMean (r : Rnd) (xs : List Val) (count : Nat) : Val :=
  valOfInt (roundInt r (-(2 ^ 47)) (2 ^ 47 - 1) (vDiv (valOfInt ((xs.map valInt).foldl (· + ·) 0)) (valOfInt count)))

/-- Coordinates of a storage index of a feature map: batch, row, column, channel. -/
def mapCoord (d : Desc) (st : Nat) : Nat × Nat × Nat × Nat :=
  let b := dBlk d
  (st / (b * d.d1 * d.d2 * dCb d), st / (b * d.d1) % d.d2, st / b % d.d1, dInner d st)

/-- One pooled value (R230). -/
def poolVal (i : Issue) (lin : Nat) (xs : List Val) : Val :=
  if i.cmd.opcode = 0x34 then
    match xs with
    | [] => vZero
    | x :: r => r.foldl vMax x
  else
    let count := if bit (pw i.cmd 2) 0 then meKh i.cmd * meKw i.cmd else xs.length
    if xs.isEmpty then vZero
    else if vOpFmt i.cmd = 3 then intMean (rndAt i lin) xs count
    else rne32 (vDiv (xs.foldl (fun s x => rne32 (vAdd s x)) vZero) (valOfInt count))

/-- MAXPOOL and AVGPOOL. -/
def vtPool (i : Issue) (e : Eng) : Except EngErr Eng := do
  let a ← operandReq i 0
  let c ← operandReq i 2
  checkRuns e a (windowRuns i.cmd a.d)
  let win := fun (lin : Nat) => let q := mapCoord c.d lin; windowVals i e a q.1 q.2.1 q.2.2.1 q.2.2.2
  let flag := !bit (pw i.cmd 2) 0 && (dOrder c.d).any fun x => !x.2.2 && (win x.1).isEmpty
  let e := if flag then { e with vtFlags := e.vtFlags ||| 1 } else e
  .ok (putVals i e c (wSat i.cmd) (mapElems c fun lin => poolVal i lin (win lin)))

/-- GPOOL (R231). An average in BF16 or FP16 is summed in FP32 and rounded once to op_fmt (DEDUCED, log entry 94). -/
def vtGpool (i : Issue) (e : Eng) : Except EngErr Eng := do
  let a ← operandReq i 0
  let c ← operandReq i 2
  checkOpnds e [some a]
  .ok (putVals i e c (wSat i.cmd) (mapElems c fun lin =>
    let q := mapCoord c.d lin
    let xs := (List.range (a.d.d2 * a.d.d1)).map fun p => inVal i e a lin (mapIdx a.d q.1 (p / a.d.d1) (p % a.d.d1) q.2.2.2)
    if bit (pw i.cmd 0) 0 then
      match xs with
      | [] => vZero
      | x :: r => r.foldl vMax x
    else if vOpFmt i.cmd = 3 then intMean (rndAt i lin) xs xs.length
    else roundTo (opFloat (vOpFmt i.cmd)) .rne (vDiv (red xs) (valOfInt xs.length))))

/-! Argmax, top-k and gather (R232-R234). -/

/-- Index and value of the greatest value that is not NaN, ties to the lowest index. -/
def argmaxOf (xs : List Val) : Option (Nat × Val) :=
  xs.zipIdx.foldl (fun best x =>
    if x.1.isNan then best
    else match best with
      | none => some (x.2, x.1)
      | some b => if vLt b.2 x.1 then some (x.2, x.1) else best) none

/-- ARGMAX. -/
def vtArgmax (i : Issue) (e : Eng) : Except EngErr Eng := do
  let a ← operandReq i 0
  let c ← operandReq i 2
  let c2 ← operand i 5
  checkOpnds e [some a]
  let px := (List.range (a.d.d3 * a.d.d2 * a.d.d1)).map fun p =>
    let n := p / (a.d.d2 * a.d.d1)
    let y := p / a.d.d1 % a.d.d2
    let x := p % a.d.d1
    let st := fun ch => mapIdx a.d n y x ch
    match argmaxOf ((List.range a.d.d0).map fun ch => getVal e a (st ch)) with
    | some b => (p, b.1, getCode e a (st b.1), false)
    | none => (p, 0xFFFF, canonNan (opFmt a), true)
  let e := putCodes e c (px.map fun q => (dSt c.d q.1, q.2.1))
  let e := match c2 with
    | some o => putCodes e o (px.map fun q => (dSt o.d q.1, q.2.2.1))
    | none => e
  .ok (if px.any (fun q => q.2.2.2) then { e with vtFlags := e.vtFlags ||| 2 } else e)

/-- Picks the greatest remaining entry (index, value, code) and drops it. -/
def topStep (xs : List (Nat × Val × Nat)) : Option (Nat × Nat) × List (Nat × Val × Nat) :=
  let best := xs.foldl (fun (b : Option (Nat × Val × Nat)) x =>
    if x.2.1.isNan then b
    else match b with
      | none => some x
      | some y => if vLt y.2.1 x.2.1 then some x else b) none
  match best with
  | some b => (some (b.1, b.2.2), xs.filter fun x => x.1 != b.1)
  | none => (none, xs)

def topK : Nat → List (Nat × Val × Nat) → List (Option (Nat × Nat))
  | 0, _ => []
  | k + 1, xs => let r := topStep xs; r.1 :: topK k r.2

/-- TOPK. -/
def vtTopk (i : Issue) (e : Eng) : Except EngErr Eng := do
  let a ← operandReq i 0
  let c ← operandReq i 2
  let c2 ← operandReq i 5
  checkOpnds e [some a]
  let k := bits (pw i.cmd 0) 0 7
  let out := (List.range a.d.d1).flatMap fun r =>
    let xs := (List.range a.d.d0).map fun q => let st := rowIdx a.d r q; (q, getVal e a st, getCode e a st)
    (topK k xs).zipIdx.map fun x => (r, x.2, x.1)
  let e := putCodes e c (out.map fun x => (rowIdx c.d x.1 x.2.1, match x.2.2 with | some b => b.2 | none => canonNan (opFmt a)))
  .ok (putCodes e c2 (out.map fun x => (rowIdx c2.d x.1 x.2.1, match x.2.2 with | some b => b.1 | none => 0xFFFFFFFF)))

/-- GATHER: the entries of T in their logical order; only the rows that T names are read. -/
def vtGather (i : Issue) (e : Eng) : Except EngErr Eng := do
  let a ← operandReq i 0
  let c ← operandReq i 2
  let t ← operandReq i 3
  checkOpnd e t
  let idx := ((dOrder t.d).filter fun x => !x.2.2).zipIdx.map fun x => (x.2, getInt e t x.1.2.1)
  checkRuns e a (((List.range a.d.d1).filter fun (r : Nat) => idx.any fun p => p.2 == (r : Int)).map fun r => (rowIdx a.d r 0, a.d.d0))
  let row := fun (j : Nat) (x : Int) => (List.range a.d.d0).map fun q =>
    (rowIdx c.d j q, if 0 ≤ x ∧ x < (a.d.d1 : Int) then getCode e a (rowIdx a.d x.toNat q) else 0)
  let e' := putCodes e c (idx.flatMap fun p => row p.1 p.2)
  let oob := idx.any fun p => !(decide (0 ≤ p.2 ∧ p.2 < (a.d.d1 : Int)) || (p.2 == -1 && t.d.fmt == 3))
  .ok (if oob then { e' with vtFlags := e'.vtFlags ||| 4 } else e')

/-! Histograms and column statistics (R235, R236). -/

/-- Adds one to counter n of a list. -/
def bumpAt : List Nat → Nat → List Nat
  | [], _ => []
  | x :: xs, 0 => (x + 1) :: xs
  | x :: xs, n + 1 => x :: bumpAt xs n

/-- HIST. -/
def vtHist (i : Issue) (e : Eng) : Except EngErr Eng := do
  let a ← operandReq i 0
  let c ← operandReq i 2
  let t ← operand i 3
  let t2 ← operand i 6
  checkOpnds e [some a, t, t2]
  let nb := bits (pw i.cmd 0) 0 13
  let lo := sext 32 (pw i.cmd 4)
  let sh := bits (pw i.cmd 5) 0 5
  let prior := match t2 with
    | some o => (List.range (nb + 2)).map fun j => getCode e o (dSt o.d j)
    | none => List.replicate (nb + 2) 0
  let counts := (dOrder a.d).foldl (fun cs x =>
    if x.2.2 then cs
    else
      let use := match t with | some o => getCode e o (dSt o.d x.1) != 0 | none => true
      if !use then cs
      else
        let b : Int := (getInt e a x.2.1 - lo) / ((2 ^ sh : Nat) : Int)
        bumpAt cs (if b < 0 then nb else if b < (nb : Int) then b.toNat else nb + 1)) prior
  let e := putCodes e c (counts.zipIdx.map fun x => (dSt c.d x.2, Nat.min 0xFFFFFFFF x.1))
  .ok (if counts.any (fun x => decide (0xFFFFFFFF < x)) then { e with vtFlags := e.vtFlags ||| 8 } else e)

/-- A statistics record: count, least, greatest, sum, sum of squares (R236). -/
structure ColRec where
  count : Nat := 0
  lo    : Nat := 0xFFFF
  hi    : Nat := 0
  sum   : Nat := 0
  sq    : Nat := 0
  deriving DecidableEq, Repr, Inhabited

def colOfBytes (bs : List Byte) : ColRec :=
  { count := leAt bs 0 4, lo := leAt bs 4 2, hi := leAt bs 6 2, sum := leAt bs 8 8, sq := leAt bs 16 8 }

def colToBytes (r : ColRec) : List Byte :=
  leBytes 4 (Nat.min 0xFFFFFFFF r.count) ++ leBytes 2 r.lo ++ leBytes 2 r.hi ++ leBytes 8 (Nat.min (2 ^ 64 - 1) r.sum) ++
  leBytes 8 (Nat.min (2 ^ 64 - 1) r.sq) ++ leBytes 8 0

def colSat (r : ColRec) : Bool := decide (0xFFFFFFFF < r.count ∨ 2 ^ 64 - 1 < r.sum ∨ 2 ^ 64 - 1 < r.sq)

def colAdd (r : ColRec) (x : Nat) : ColRec :=
  { count := r.count + 1, lo := Nat.min r.lo x, hi := Nat.max r.hi x, sum := r.sum + x, sq := r.sq + x * x }

/-- COLSTAT. -/
def vtColstat (i : Issue) (e : Eng) : Except EngErr Eng := do
  let a ← operandReq i 0
  let c ← operandReq i 2
  let t ← operandReq i 3
  let t2 ← operand i 6
  let fy := bits (pw i.cmd 0) 0 4 + 1
  let fx := bits (pw i.cmd 0) 4 4 + 1
  checkOpnd e a
  checkRuns e t (rowRuns t.d (ceilDiv a.d.d1 fy) (ceilDiv a.d.d0 fx))
  match t2 with
  | some o => checkRuns e o (rawRuns o.d (32 * a.d.d0))
  | none => .ok ()
  let mask := pw i.cmd 4 + (pw i.cmd 5 <<< 32)
  let recs := (List.range a.d.d0).map fun x =>
    let r0 := match t2 with
      | some o => colOfBytes (rawReads e o (32 * x) 32)
      | none => {}
    (List.range a.d.d1).foldl (fun r y =>
      let cls := getCode e t (rowIdx t.d (y / fy) (x / fx))
      if cls < 64 ∧ bit mask cls then colAdd r (getCode e a (rowIdx a.d y x)) else r) r0
  let e := rawWrites e c 0 (recs.flatMap colToBytes)
  .ok (if recs.any colSat then { e with vtFlags := e.vtFlags ||| 8 } else e)

/-! Zero compression (R237-R240). -/

/-- The codes of a 512-byte block. -/
def blockCodes (f : Fmt) (bs : List Byte) : List Nat :=
  (List.range (fmtPerBlock f)).map fun j => bits (leAt bs (elemByte f j) (elemLen f)) (elemShift f j) (fmtBits f)

/-- Packs codes of width w least significant bit first into bytes. -/
def packBits (w : Nat) (cs : List Nat) : List Byte :=
  leBytes ((cs.length * w + 7) / 8) (cs.zipIdx.foldl (fun acc c => acc + (c.1 <<< (w * c.2))) 0)

/-- Length of the mask of a record (R238). -/
def maskLen (f : Fmt) : Nat := fmtPerBlock f / 8

/-- A data block with its FP6 padding bytes at 0x00 (R100, R238). -/
def zeroFill (f : Fmt) (bs : List Byte) : List Byte := if fmtBits f = 6 then padTo 512 (bs.take 504) else bs

/-- One record of a compressed stream (R238, R239). -/
def zRecord (f : Fmt) (block : List Byte) : List Byte :=
  let bs := zeroFill f block
  let cs := blockCodes f bs
  let nz := cs.filter (· != 0)
  let plen := (nz.length * fmtBits f + 7) / 8
  let raw := decide (512 < maskLen f + plen)
  let body := if raw then bs else packBits 1 (cs.map fun c => if c = 0 then 0 else 1) ++ packBits (fmtBits f) nz
  let r := [BitVec.ofNat 8 (fmtCode f), if raw then 1 else 0] ++ leBytes 2 (if raw then 512 else plen) ++
    leBytes 4 (crc32c bs).toNat ++ body
  r ++ List.replicate ((8 - r.length % 8) % 8) 0

/-- ZCOMP. -/
def vtZcomp (i : Issue) (e : Eng) : Except EngErr Eng := do
  let a ← operandReq i 0
  let c ← operandReq i 2
  checkOpnds e [some a]
  let f := opFmt a
  let nb := ceilDiv (dExtent a.d) 512
  let recs := (List.range nb).flatMap fun j => zRecord f (engReads e a.space (a.addr + 512 * j) 512)
  let hdr := leBytes 4 nb ++ [BitVec.ofNat 8 (fmtCode f), 0, 0, 0] ++ leBytes 4 (16 + recs.length) ++ leBytes 4 0
  .ok (rawWrites e c 0 (hdr ++ recs))

/-- Puts codes into a 512-byte block, padding zero (R99, R238). -/
def blockOfCodes (f : Fmt) (cs : List Nat) : List Byte := padTo 512 (packBits (fmtBits f) cs)

/-- Spreads the payload over the mask. -/
def spread : List Bool → List Nat → List Nat
  | [], _ => []
  | false :: ms, cs => 0 :: spread ms cs
  | true :: ms, c :: cs => c :: spread ms cs
  | true :: ms, [] => 0 :: spread ms []

/-- Expands the record at the head of the bytes: the block and what follows it, or none for a fault of R240. -/
def zExpand (f : Fmt) (bs : List Byte) : Option (List Byte × List Byte) :=
  if bs.length < 8 then none
  else
    let flags := leAt bs 1 1
    let plen := leAt bs 2 2
    let crc := leAt bs 4 4
    let raw := flags == 1
    let ml := if raw then 0 else maskLen f
    let body := bs.drop 8
    let len := 8 + ml + plen
    let pad := (8 - len % 8) % 8
    if leAt bs 0 1 ≠ fmtCode f ∨ 1 < flags ∨ bs.length < len + pad then none
    else
      let mask := (List.range (8 * ml)).map fun j => bit (leAt body (j / 8) 1) (j % 8)
      let pop := (mask.filter id).length
      let w := fmtBits f
      let pay := (body.drop ml).take plen
      let x := fromLe pay
      let blk := if raw then zeroFill f pay else blockOfCodes f (spread mask ((List.range pop).map fun j => bits x (w * j) w))
      if plen ≠ (if raw then 512 else (pop * w + 7) / 8) then none
      else if !raw ∧ x >>> (pop * w) ≠ 0 then none
      else if ((bs.drop len).take pad).any (· != 0) then none
      else if (crc32c blk).toNat ≠ crc then none
      else some (blk, bs.drop (len + pad))

def zExpandAll (f : Fmt) : Nat → Nat → List Byte → Except EngErr (List Byte)
  | 0, _, _ => .ok []
  | n + 1, j, bs =>
    match zExpand f bs with
    | none => .error (.stream j)
    | some r => do
      let rest ← zExpandAll f n (j + 1) r.2
      .ok (r.1 ++ rest)

/-- ZDEC: reads the stream header, then the stream_len bytes of the stream (R237, R240). -/
def vtZdec (i : Issue) (e : Eng) : Except EngErr Eng := do
  let a ← operandReq i 0
  let c ← operandReq i 2
  checkRuns e a (rawRuns a.d 16)
  let bs := rawReads e a 0 (rawBytes a.d)
  let nb := leAt bs 0 4
  let len := leAt bs 8 4
  let f := opFmt c
  if nb = 0 ∨ 2048 < nb ∨ ceilDiv (dExtent c.d) 512 < nb ∨ rawBytes a.d < len ∨ len < 16 ∨ leAt bs 4 1 ≠ fmtCode f ∨
      leAt bs 5 3 ≠ 0 ∨ leAt bs 12 4 ≠ 0 then
    .error (.stream 0)
  else do
    checkRuns e a (rawRuns a.d len)
    let out ← zExpandAll f nb 0 ((bs.take len).drop 16)
    .ok (engWrite e c.space c.addr out)

/-! Verdict logic (R242-R247). -/

/-- A rule of R243. -/
structure VRule where
  cls    : Nat
  op     : Nat
  code   : Nat
  detail : Nat
  resv   : Nat
  thr    : Nat
  deriving DecidableEq, Repr

def vRule (bs : List Byte) : VRule :=
  { cls := leAt bs 0 2, op := leAt bs 2 1, code := leAt bs 3 1, detail := leAt bs 4 1,
    resv := leAt bs 5 3 + leAt bs 12 4, thr := leAt bs 8 4 }

/-- The rules of R243 and R245 for one rule. -/
def vRuleOk (nCls : Nat) (review : Bool) (r : VRule) : Bool :=
  let t := decodeVal .fp32 r.thr
  decide (r.cls < nCls) && decide (r.op ≤ 4) && decide (r.code ≤ 2) && (r.code != 0 || r.detail == 0) && r.resv == 0 &&
  (if r.op = 4 then r.thr == 0 else !t.isNan && !t.isInf) && (!review || r.code != 2)

/-- Whether a rule holds for a row of scores (R243). -/
def vRuleHolds (xs : List Val) (r : VRule) : Bool :=
  let x := xs.getD r.cls .nan
  let t := decodeVal .fp32 r.thr
  match r.op with
  | 0 => vLt t x
  | 1 => !vLt x t
  | 2 => vLt x t
  | 3 => !vLt t x
  | _ => match argmaxOf xs with
    | some b => b.1 == r.cls
    | none => false

/-- A result-list entry (R244): code, detail, written, score. -/
def vEntry (code detail score : Nat) : Nat := code % 16 + ((detail % 256) <<< 4) + 0x1000 + (score <<< 16)

/-- The entry of a row, and whether it is the NaN verdict (R244). -/
def vDecide (w1 : Nat) (rules : List VRule) (xs : List Val) : Nat × Bool :=
  if xs.any Val.isNan then (vEntry (bits w1 16 4) (bits w1 20 8) 0x7FC0, true)
  else match rules.find? (vRuleHolds xs) with
    | some r => (vEntry r.code r.detail (encodeVal .bf16 false .rne (xs.getD r.cls .nan)), false)
    | none => (vEntry (bits w1 0 4) (bits w1 4 8) 0, false)

/-- Address of an entry of the Wing's result list (R242). -/
def resultAddr (w : WingPlan) (slot : Nat) : Nat := w.resultAt + 4 * slot

/-- VERDICT. -/
def vtVerdict (i : Issue) (e : Eng) : Except EngErr Eng := do
  let a ← operandReq i 0
  let p ← operandReq i 4
  let w := iWing i
  let nr := bits (pw i.cmd 0) 0 7
  let base := bits (pw i.cmd 0) 16 15
  checkOpnd e a
  checkRuns e p (rawRuns p.d (16 * nr))
  checkCrc e 0 (blocksOf (resultAddr w base) (4 * a.d.d1))
  let rules := (List.range nr).map fun j => vRule (rawReads e p (16 * j) 16)
  if !rules.all (vRuleOk a.d.d0 (bit (pw i.cmd 2) 0)) then .error .fault
  else if w.vShare.getD 0 + w.qShare.getD 0 < base + a.d.d1 then .error .results
  else if (List.range a.d.d1).any (fun m => bit (fromLe (engReads e 0 (resultAddr w (base + m)) 4)) 12) then .error .results
  else
    let vs := (List.range a.d.d1).map fun m => vDecide (pw i.cmd 1) rules ((List.range a.d.d0).map fun q => getVal e a (rowIdx a.d m q))
    let e := vs.zipIdx.foldl (fun e v => engWrite e 0 (resultAddr w (base + v.2)) (leBytes 4 v.1.1)) e
    let n := (vs.filter fun v => v.2).length
    .ok (if n = 0 then e else { e with vtFlags := e.vtFlags ||| 16, nanRows := e.nanRows + n })

/-- The computation of a vector tile opcode (R221). -/
def vtBody (i : Issue) (e : Eng) : Except EngErr Eng :=
  let eps := decodeVal .fp32 (pw i.cmd 4)
  match i.cmd.opcode with
  | 0x20 | 0x21 | 0x22 | 0x23 | 0x24 | 0x25 | 0x28 | 0x29 | 0x2A => vtArith i e
  | 0x26 => vtCmp i e
  | 0x27 => vtSel i e
  | 0x2B => vtAct i e
  | 0x2C => vtCvt i e
  | 0x2D => vtQnt i e
  | 0x2E => vtDqnt i e
  | 0x30 => vtRows i e fun e p xs => match p with | some o => lnormRow e o eps xs | none => xs
  | 0x31 => vtRows i e fun e p xs => match p with | some o => rmsRow e o eps xs | none => xs
  | 0x32 => vtRows i e fun _ _ xs => softmaxRow xs
  | 0x34 | 0x35 => vtPool i e
  | 0x36 => vtGpool i e
  | 0x38 => vtArgmax i e
  | 0x39 => vtTopk i e
  | 0x3A => vtGather i e
  | 0x3B => vtHist i e
  | 0x3C => vtColstat i e
  | 0x3E => vtZcomp i e
  | 0x3F => vtZdec i e
  | _ => vtVerdict i e

end Sys2Proof.Machine
end

