-- ==== Sys2Proof/Machine/MatrixCore.lean ====
section
/-! DEFINITION. What the matrix engine computes (04_matrix_engine.md): products, convolutions and Winograd convolutions on the
Barrel and the ordered FP32 paths, the output stage, the chaining of k_part and the residue checks against X. -/

namespace Sys2Proof.Machine

/-- An operand element with its scale byte. -/
abbrev SVal := Val × Nat

/-- The element and its scale byte at a storage index. -/
def getS (e : Eng) (o : Opnd) (st : Nat) : SVal := (decodeVal (opFmt o) (getCode e o st), getScale e o st)

/-- The value of an element with its scale (R107). -/
def sVal (x : SVal) : Val := if x.2 = 0x7F then x.1 else vMul x.1 (scaleVal x.2)

def zeroS : SVal := (vZero, 0x7F)

/-- A cleared accumulator of a path (R118, R132). -/
def accZero (path : Nat) : Acc80 := if path = 0 then .barrel {} else .sum vZero

/-- One group of 32 of the scaled path (R123). -/
def scaledGroup (s : Val) (g : List (SVal × SVal)) : Val :=
  match g with
  | [] => s
  | x :: _ =>
    let sj := (g.foldl (fun (b : Barrel) p => b.addVal (vMul p.1.1 p.2.1)) {}).val
    orderedStep s (vMul sj (vMul (scaleVal x.1.2) (scaleVal x.2.2)))

/-- One group of 16 of the 16-bit float path (R124). -/
def floatGroup (s : Val) (g : List (SVal × SVal)) : Val := orderedStep s (exactSum (g.map fun p => vMul (sVal p.1) (sVal p.2)))

/-- Continues a reduction over ascending k (R119, R123, R124). -/
def reduceK (path : Nat) (acc : Acc80) (ps : List (SVal × SVal)) : Acc80 :=
  match acc with
  | .barrel b => .barrel (ps.foldl (fun b p => b.addVal (vMul p.1.1 p.2.1)) b)
  | .sum s => .sum (if path = 1 then (chunks 32 ps.length ps).foldl scaledGroup s else (chunks 16 ps.length ps).foldl floatGroup s)

/-- The read-out in float mode (R122). -/
def accFloat : Acc80 → Val
  | .barrel b => rne32 b.val
  | .sum s => s

/-- The read-out in integer mode (R122). -/
def accInt : Acc80 → Int
  | .barrel b => clampI (intMin .int32) (intMax .int32) (b.sum / 2 ^ 32)
  | .sum _ => 0

/-- The record of P for a channel (R152), read as four words. -/
def pWords (e : Eng) (p : Opnd) (ch : Nat) : List Nat := (List.range 4).map fun j => fromLe (rawReads e p (16 * ch + 4 * j) 4)

/-- A word of P that must be 0 is not (R150, R152). -/
def pBad (isInt : Bool) (ws : List Nat) : Bool :=
  ws.getD 3 0 != 0 || (if isInt then decide (64 ≤ ws.getD 2 0) else ws.getD 2 0 != 0)

/-- The float output stage up to the conversion (R149, R151). -/
def outFloat (c : Cmd) (p : Option (List Nat)) (t : Option Val) (v : Val) : Val :=
  let y := match p with
    | some ws => rne32 (vFma v (decodeVal .fp32 (ws.getD 0 0)) (decodeVal .fp32 (ws.getD 1 0)))
    | none => v
  let y := match t with
    | some tv => rne32 (vAdd y tv)
    | none => y
  match meAct c with
  | 1 => vRelu y
  | 2 => vClamp (decodeVal .fp32 (pw c 4)) (decodeVal .fp32 (pw c 5)) y
  | _ => y

/-- The integer output stage up to the saturation (R150, R151). -/
def outInt (c : Cmd) (r : Rnd) (p : Option (List Nat)) (t : Option Int) (v : Int) : Int :=
  let (beta, m, sh) := match p with
    | some ws => (sext 32 (ws.getD 0 0), sext 32 (ws.getD 1 0), ws.getD 2 0)
    | none => (0, 1, 0)
  let x := (v + beta) * m
  let z := roundInt r (-(2 ^ 100)) (2 ^ 100) (.num (decide (x < 0)) x.natAbs (-(sh : Int)))
  let z := z + sext 16 (bits (pw c 6) 0 16)
  let z := match t with
    | some tv => z + tv
    | none => z
  match meAct c with
  | 1 => if z < 0 then 0 else z
  | 2 => clampI (sext 32 (pw c 4)) (sext 32 (pw c 5)) z
  | _ => z

/-- The output stage for one element of C. -/
def outStage (i : Issue) (e : Eng) (p t : Option Opnd) (lin st ch : Nat) (acc : Acc80) : Val :=
  let c := i.cmd
  let ws := if meUseP c then p.map fun o => pWords e o ch else none
  if meIntOut c then valOfInt (outInt c (rndAt i lin) ws (if meUseT c then t.map fun o => getInt e o st else none) (accInt acc))
  else outFloat c ws (if meUseT c then t.map fun o => getVal e o st else none) (accFloat acc)

/-! Residue checks (R162-R164). -/

def mersenne : Nat := 2 ^ 31 - 1

/-- The residue of a value (R162). -/
def rho : Val → Nat
  | .num n m e => let i : Int := if n then -(m : Int) else (m : Int); (i % (mersenne : Int)).toNat * 2 ^ (e % 31).toNat % mersenne
  | _ => 0

/-- A failed check of the matrix engine with the fields of its summary (R169). -/
def meFail (result passes : Nat) (first row col expected observed : Nat) : EngErr :=
  .check { cause := 1, unit := 0, result := result, passes := passes, first := first, row := row, col := col, expected := expected,
           observed := observed }

/-- A fault that a command meets after all its passes (R152, R154). -/
def meLate (passes : Nat) : EngErr := meFail 32 passes 0xFFFFFFFF 0xFFFF 0xFFFF 0 0

/-- One matrix product of a command: the streamed rows, the stationary rows as they are stored, and the reduction indices that take part in
it. The others are padding: A reads as zero there, and B only enters the residues (R142, R163). -/
structure Product where
  aRows : List (List SVal)
  bRows : List (List SVal)
  live  : Nat → Bool := fun _ => true

/-- Passes of a product of m rows, n columns and depth k: column tiles, in each the row tiles, in each the K tiles (R141). -/
def passesOf (m n k kt : Nat) : Nat := ceilDiv n 256 * ceilDiv m 512 * ceilDiv k kt

def Product.passes (p : Product) (kt : Nat) : Nat := passesOf p.aRows.length p.bRows.length (p.bRows.headD []).length kt

/-- The sum of residues of a list of elements. -/
def rhoSum (xs : List SVal) : Nat := (xs.map fun v => rho (sVal v)).foldl (fun a b => (a + b) % mersenne) 0

/-- The checks of one pass against X (R162-R164): the elements of X in range and the column residues at tile load, then the row sums. X gives
the words of the tile. -/
def passCheck (aRows part : List (List SVal)) (kt pass : Nat) (x : Nat → Nat) : Option EngErr :=
  let depth := (part.headD []).length
  let w := fun (j : Nat) => rhoSum (part.map fun r => r.getD j zeroS)
  match (List.range (kt + 256)).find? fun j => decide (mersenne ≤ x j) with
  | some j => some (meFail 1 pass pass 0xFFFF (if kt ≤ j then j - kt else 0xFFFF) (x j) 0)
  | none => match part.zipIdx.find? fun r => rhoSum r.1 != x (kt + r.2) with
    | some r => some (meFail 1 pass pass 0xFFFF r.2 (x (kt + r.2)) (rhoSum r.1))
    | none =>
      let dot := fun (a : List SVal) (u : Nat → Nat) => ((List.range depth).map fun j => rho (sVal (a.getD j zeroS)) * u j).foldl (· + ·) 0 % mersenne
      match aRows.zipIdx.find? fun r => dot r.1 w != dot r.1 x with
      | some r => some (meFail 2 pass pass r.2 0xFFFF (dot r.1 x) (dot r.1 w))
      | none => none

/-- Checks one product against X, whose words from the product's start the function gives. X holds each stationary tile once, the Winograd
taps outermost, although a tile is loaded again for every 512 rows (DESIGN CHOICE, log entry 93). -/
def xTiles (p : Product) (kt pass0 : Nat) (x : Nat → Nat) : Option EngErr :=
  let nk := ceilDiv (p.bRows.headD []).length kt
  let nm := ceilDiv p.aRows.length 512
  (List.range (p.passes kt)).findSome? fun q =>
    let ct := q / (nm * nk)
    let kk := q % nk
    let cut := fun (r : List SVal) => (r.drop (kk * kt)).take kt
    passCheck (((p.aRows.drop (q / nk % nm * 512)).take 512).map cut) (((p.bRows.drop (ct * 256)).take 256).map cut) kt (pass0 + q)
      fun j => x ((ct * nk + kk) * (kt + 256) + j)

/-- Words of X that one product takes. -/
def xWords (n k kt : Nat) : Nat := ceilDiv n 256 * ceilDiv k kt * (kt + 256)

def Product.words (p : Product) (kt : Nat) : Nat := xWords p.bRows.length (p.bRows.headD []).length kt

/-- Checks every product of a command against X with chk_mode 0 (R163, R164); row weights derived at tile load need no
check of X (R162). -/
def xCheck (i : Issue) (e : Eng) (x : Option Opnd) (kt : Nat) (ps : List Product) : Except EngErr Unit :=
  if meChk i.cmd then .ok ()
  else match x with
    | none => .error .fault
    | some o =>
      let total := (ps.map fun p => p.words kt).sum
      if dElems o.d < total ∨ o.d.fmt ≠ 3 then .error .fault
      else do
        checkRuns e o (rawRuns o.d (4 * total))
        let word := fun (j : Nat) => getCode e o (dSt o.d j)
        match (ps.foldl (fun (acc : Nat × Nat × Option EngErr) p =>
            (acc.1 + p.words kt, acc.2.1 + p.passes kt,
              match acc.2.2 with
              | some er => some er
              | none => xTiles p kt acc.2.1 fun j => word (acc.1 + j))) (0, 0, none)).2.2 with
        | some er => .error er
        | none => .ok ()

/-- The pairs of a product's outputs in ascending k, row by row; a padding index contributes zero. -/
def Product.pairs (p : Product) : List (List (SVal × SVal)) :=
  p.aRows.flatMap fun ar => p.bRows.map fun br => (ar.zip br).zipIdx.map fun q => if p.live q.2 then q.1 else (zeroS, zeroS)

/-! Chaining (R132, R153). -/

/-- The accumulators a command starts from: cleared, or those of the open chain it continues. -/
def bankStart (i : Issue) (e : Eng) (key : ChainKey) (path count : Nat) : Except EngErr (List Acc80) :=
  if meKPart i.cmd = 0 ∨ meKPart i.cmd = 1 then .ok (List.replicate count (accZero path))
  else match e.bank with
    | none => .error .fault
    | some b => if b.key = key ∧ b.vals.length = count then .ok b.vals else .error .fault

/-- Keeps the bank open after a first or middle command, and closes it otherwise. -/
def bankEnd (i : Issue) (e : Eng) (key : ChainKey) (vals : List Acc80) : Eng :=
  if meWrites i.cmd then { e with bank := none }
  else
    let before := if meKPart i.cmd = 2 then (match e.bank with | some b => b.cmds | none => []) else []
    { e with bank := some { key := key, vals := vals, cmds := before ++ [(i.index, i.cmd)] } }

/-- The key of a command's chain. -/
def chainKey (i : Issue) (m n : Nat) (a b : Opnd) : ChainKey :=
  { opcode := i.cmd.opcode, m := m, n := n, fa := opFmt a, fb := opFmt b, sa := a.d.scaled, sb := b.d.scaled, la := a.d.layout }

/-- The accumulators after a command's products (R118, R153). -/
def accumulate (i : Issue) (e : Eng) (key : ChainKey) (path : Nat) (ps : List Product) : Except EngErr (List Acc80) := do
  let pairs := ps.flatMap Product.pairs
  let start ← bankStart i e key path pairs.length
  .ok ((pairs.zip start).map fun q => reduceK path q.2 q.1)

/-- P records that must hold zeros (R152), after the passes of the command. -/
def pCheck (i : Issue) (e : Eng) (p : Option Opnd) (n passes : Nat) : Except EngErr Unit :=
  match p with
  | some o =>
    if !meUseP i.cmd then .ok ()
    else do
      checkRuns e o (rawRuns o.d (16 * n))
      if (List.range n).any fun j => pBad (meIntOut i.cmd) (pWords e o j) then .error (meLate passes) else .ok ()
  | none => .ok ()

/-- The checks of the blocks that a command reads of A, B and T (R69, R146). -/
def meReads (i : Issue) (e : Eng) (a b : Opnd) (aRuns : List (Nat × Nat)) (t : Option Opnd) : Except EngErr Unit := do
  checkRuns e a aRuns
  checkRuns e b (allRuns b.d)
  match t with
  | some o => if meUseT i.cmd && meWrites i.cmd then checkRuns e o (allRuns o.d) else .ok ()
  | none => .ok ()

/-- Writes C from the accumulators: the function gives the accumulator and channel of a linear index. -/
def writeOut (i : Issue) (e : Eng) (c : Option Opnd) (p t : Option Opnd) (acc : Nat → Acc80 × Nat) : Eng :=
  match c with
  | none => e
  | some o =>
    putVals i e o (wSat i.cmd) ((dOrder o.d).map fun x =>
      (x.1, x.2.1, if x.2.2 then vZero else
        let a := acc x.1
        outStage i e p t x.1 (match t with | some td => dSt td.d x.1 | none => 0) a.2 a.1))

/-- MM (R141). -/
def meMm (i : Issue) (e : Eng) : Except EngErr Eng := do
  let a ← operandReq i 0
  let b ← operandReq i 1
  let c ← operand i 2
  let t ← operand i 3
  let p ← operand i 4
  let x ← operand i 5
  let m := a.d.d1
  let n := b.d.d1
  let path := mePath a.d b.d
  let kt := (rateMode (opFmt a) (opFmt b)).2
  let aRows := (List.range m).map fun r => (List.range a.d.d0).map fun k => getS e a (rowIdx a.d r k)
  let bRows := (List.range n).map fun r => (List.range b.d.d0).map fun k => getS e b (rowIdx b.d r k)
  let prod : Product := { aRows := aRows, bRows := bRows }
  meReads i e a b (allRuns a.d) t
  xCheck i e x kt [prod]
  pCheck i e p n (prod.passes kt)
  let vals ← accumulate i e (chainKey i m n a b) path [prod]
  let e := if meWrites i.cmd then writeOut i e c p t fun lin => (vals.getD lin (accZero path), lin % n) else e
  .ok (bankEnd i e (chainKey i m n a b) vals)

/-- The element of A at a coordinate, extended by the border mode (R144). -/
def borderGet (i : Issue) (e : Eng) (a : Opnd) (n : Nat) (y x : Int) (ch : Nat) : SVal :=
  match borderIdx (mePadMode i.cmd) y a.d.d2, borderIdx (mePadMode i.cmd) x a.d.d1 with
  | some yy, some xx => getS e a (mapIdx a.d n yy xx ch)
  | _, _ => if mePadMode i.cmd = 1 then (decodeVal (opFmt a) (mePadCode i.cmd), 0x7F) else zeroS

/-- CONV (R142). -/
def meConv (i : Issue) (e : Eng) : Except EngErr Eng := do
  let a ← operandReq i 0
  let b ← operandReq i 1
  let c ← operand i 2
  let t ← operand i 3
  let p ← operand i 4
  let x ← operand i 5
  let cm := i.cmd
  let g := meGroups cm
  let oh := (outH cm a.d).toNat
  let ow := (outW cm a.d).toNat
  let m := a.d.d3 * oh * ow
  let cout := b.d.d1
  let ng := cout / g
  let cg := a.d.d0 / g
  let cp := cgp cm a.d
  let path := mePath a.d b.d
  let kt := (rateMode (opFmt a) (opFmt b)).2
  let aRow := fun (gi r : Nat) => (List.range b.d.d0).map fun k =>
    let ch := k % cp
    let tap := k / cp
    if cg ≤ ch then zeroS
    else
      borderGet i e a (r / (oh * ow))
        (((r / ow % oh * meSy cm + tap / meKw cm * meDy cm : Nat) : Int) - (mePt cm : Int))
        (((r % ow * meSx cm + tap % meKw cm * meDx cm : Nat) : Int) - (mePl cm : Int)) (gi * cg + ch)
  let bRow := fun (r : Nat) => (List.range b.d.d0).map fun k => getS e b (rowIdx b.d r k)
  let prods := (List.range g).map fun gi =>
    ({ aRows := (List.range m).map (aRow gi), bRows := (List.range ng).map fun j => bRow (gi * ng + j), live := fun k => decide (k % cp < cg) } : Product)
  meReads i e a b (windowRuns cm a.d) t
  xCheck i e x kt prods
  pCheck i e p cout ((prods.map fun q => q.passes kt).sum)
  let vals ← accumulate i e (chainKey i m cout a b) path prods
  -- group gi holds its m × ng outputs at gi * m * ng
  let acc := fun (lin : Nat) =>
    match c with
    | some o =>
      let q := mapCoord o.d lin
      let row := (q.1 * oh + q.2.1) * ow + q.2.2.1
      let co := q.2.2.2
      (vals.getD (co / ng * (m * ng) + row * ng + co % ng) (accZero path), co)
    | none => (accZero path, 0)
  let e := if meWrites cm then writeOut i e c p t acc else e
  .ok (bankEnd i e (chainKey i m cout a b) vals)

/-! Winograd (R154-R158). -/

def wino2Bt : List (List Int) := [[1, 0, -1, 0], [0, 1, 1, 0], [0, -1, 1, 0], [0, 1, 0, -1]]
def wino2At : List (List Int) := [[1, 1, 1, 0], [0, 1, -1, -1]]
def wino4Bt : List (List Int) :=
  [[4, 0, -5, 0, 1, 0], [0, -4, -4, 1, 1, 0], [0, 4, -4, -1, 1, 0], [0, -2, -1, 2, 1, 0], [0, 2, -1, -2, 1, 0], [0, 4, 0, -5, 0, 1]]
def wino4At : List (List Int) := [[1, 1, 1, 1, 1, 0], [0, 1, -1, 2, -2, 0], [0, 1, 1, 4, 4, 0], [0, 1, -1, 8, -8, 1]]

/-- A sum of coefficient times value: zero coefficients skipped, each product and sum rounded to FP32 (R157). -/
def winoSum (cs : List Int) (vs : List Val) : Val :=
  match (cs.zip vs).filter fun p => p.1 != 0 with
  | [] => vZero
  | p :: ps => ps.foldl (fun s q => rne32 (vAdd s (rne32 (vMul (valOfInt q.1) q.2)))) (rne32 (vMul (valOfInt p.1) p.2))

/-- L d Lᵀ in rounded FP32, the left product first (R157). -/
def winoBoth (l : List (List Int)) (d : List (List Val)) : List (List Val) :=
  let cols := (d.headD []).length
  let t1 := l.map fun row => (List.range cols).map fun j => winoSum row (d.map fun r => r.getD j vZero)
  t1.map fun r => l.map fun row => winoSum row r

/-- L d Lᵀ in integers (R154). -/
def winoInt (l : List (List Int)) (d : List (List Int)) : List (List Int) :=
  let cols := (d.headD []).length
  let dot := fun (a b : List Int) => ((a.zip b).map fun p => p.1 * p.2).foldl (· + ·) 0
  let t1 := l.map fun row => (List.range cols).map fun j => dot row (d.map fun r => r.getD j 0)
  t1.map fun r => l.map fun row => dot row r

/-- The value of the input tile at (y, x): inside the padded extent by R144, beyond it zero (R158). -/
def winoGet (i : Issue) (e : Eng) (a : Opnd) (n : Nat) (y x : Int) (ch : Nat) : SVal :=
  if y < (a.d.d2 : Int) + mePb i.cmd ∧ x < (a.d.d1 : Int) + mePr i.cmd then borderGet i e a n y x ch else zeroS

/-- The first tile load that finds an element of B′ outside -2,048 to 2,047, padding channels among them (R155): rows by tap and output
channel, nm row tiles. -/
def winoRange (e : Eng) (b : Opnd) (cout cinP nm : Nat) : Option EngErr :=
  let nk := ceilDiv cinP 256
  let bad := (List.range b.d.d1).flatMap fun r => (List.range cinP).filterMap fun ch =>
    let v := getInt e b (rowIdx b.d r ch)
    let co := r % cout
    if v < -2048 ∨ 2047 < v then some (r / cout * (ceilDiv cout 256 * nm * nk) + co / 256 * (nm * nk) + ch / 256, co % 256, twos 32 v) else none
  (bad.foldl (fun (m : Option (Nat × Nat × Nat)) x => match m with | some y => if x.1 < y.1 then some x else some y | none => some x) none).map
    fun x => meFail 32 x.1 x.1 0xFFFF x.2.1 0 x.2.2

/-- WINO2 and WINO4. -/
def meWino (i : Issue) (e : Eng) : Except EngErr Eng := do
  let a ← operandReq i 0
  let b ← operandReq i 1
  let c ← operand i 2
  let t ← operand i 3
  let p ← operand i 4
  let x ← operand i 5
  let cm := i.cmd
  let exact := cm.opcode == 0x12
  let om := winoM cm.opcode
  let side := om + 2
  let taps := side * side
  let cout := b.d.d1 / taps
  let oh := (outH cm a.d).toNat
  let ow := (outW cm a.d).toNat
  let th := ceilDiv oh om
  let tw := ceilDiv ow om
  let tiles := a.d.d3 * th * tw
  let path := if exact then 0 else 2
  let vTile := fun (ti ch : Nat) =>
    let d := (List.range side).map fun r => (List.range side).map fun q =>
      (winoGet i e a (ti / (th * tw)) (((om * (ti / tw % th) + r : Nat) : Int) - (mePt cm : Int))
        (((om * (ti % tw) + q : Nat) : Int) - (mePl cm : Int)) ch).1
    if exact then ((winoInt wino2Bt (d.map fun r => r.map valInt)).flatten).map valOfInt
    else ((winoBoth wino4Bt d).flatten).map fun v => roundTo (opFmt a) .rne v
  let cinP := dCp a.d
  let vs := (List.range tiles).map fun ti => (List.range cinP).map fun ch => if ch < a.d.d0 then vTile ti ch else List.replicate taps vZero
  let each := passesOf tiles cout cinP 256
  meReads i e a b (windowRuns cm a.d) t
  match if exact then winoRange e b cout cinP (ceilDiv tiles 512) else none with
  | some er => .error er
  | none => do
    let prods := (List.range taps).map fun tap =>
      ({ aRows := vs.map fun chs => chs.map fun v => (v.getD tap vZero, 0x7F)
         bRows := (List.range cout).map fun co => (List.range cinP).map fun ch => getS e b (rowIdx b.d (tap * cout + co) ch)
         live := fun k => decide (k < a.d.d0) } : Product)
    xCheck i e x 256 prods
    pCheck i e p cout (taps * each)
    let vals ← accumulate i e (chainKey i tiles cout a b) path prods
    let sums := fun (ti co : Nat) => (List.range side).map fun r => (List.range side).map fun q =>
      vals.getD (((side * r + q) * tiles + ti) * cout + co) (accZero path)
    if !meWrites cm then .ok (bankEnd i e (chainKey i tiles cout a b) vals)
    else
      let at2 := fun (ti co : Nat) => winoInt wino2At ((sums ti co).map fun r => r.map fun s => match s with | .barrel bb => bb.sum / 2 ^ 32 | .sum _ => 0)
      if exact && (List.range tiles).any (fun ti => (List.range cout).any fun co => (at2 ti co).any fun r => r.any fun v => v % 4 != 0) then .error (meLate (taps * each))
      else
        let acc := fun (lin : Nat) =>
          match c with
          | some o =>
            let q := mapCoord o.d lin
            let ti := (q.1 * th + q.2.1 / om) * tw + q.2.2.1 / om
            let co := q.2.2.2
            if exact then
              (.barrel { sum := ((at2 ti co).getD (q.2.1 % om) []).getD (q.2.2.1 % om) 0 / 4 * 2 ^ 32 }, co)
            else
              (.sum (((winoBoth wino4At ((sums ti co).map fun r => r.map accFloat)).getD (q.2.1 % om) []).getD (q.2.2.1 % om) vZero), co)
          | none => (accZero path, 0)
        .ok (bankEnd i (writeOut i e c p t acc) (chainKey i tiles cout a b) vals)

/-- Passes of a command of the matrix engine (R141, R169): what a repeat that passes reports. -/
def cmdPasses (w : WingPlan) (index : Nat) (c : Cmd) : Nat :=
  match opDesc w c 0, opDesc w c 1 with
  | some a, some b =>
    let kt := (rateMode (dFmt a) (dFmt b)).2
    let taps := if c.opcode = 0x12 then 16 else 36
    match c.opcode with
    | 0x10 | 0x18 => passesOf a.d1 b.d1 a.d0 kt
    | 0x11 => meGroups c * passesOf (a.d3 * (outH c a).toNat * (outW c a).toNat) (b.d1 / meGroups c) b.d0 kt
    | 0x12 | 0x13 => taps * passesOf (winoTiles c a) (b.d1 / taps) (dCp a) 256
    | _ => Config.attnPasses c.opcode index
  | _, _ => if c.opcode = 0x1C then 0 else Config.attnPasses c.opcode index

end Sys2Proof.Machine
end

