-- ==== Sys2Proof/Machine/AttnCore.lean ====
section
/-! DEFINITION. What the attention opcodes compute (05_attention_and_kv_pages.md): the KV allocator, PROJ, ATTN, ATTN_BWD,
RETR and SEQ. -/

namespace Sys2Proof.Machine

/-! The regions of the allocator (R172-R187, R202). The manual gives their records byte for byte, and leaves open where in the page-list and
coarse-index regions a slot's ring stands and how the free-list region is laid out (DESIGN CHOICE, log entry 95). -/

/-- The page format tag of a class (R174). -/
def pageTag (cl : SeqClass) : Nat :=
  fmtCode cl.kFmt + (if cl.kScaled then 16 else 0) + (fmtCode cl.vFmt <<< 5) + (if cl.vScaled then 512 else 0) + ((Nat.log2 cl.tP - 4) <<< 10)

/-- The number in the n bytes at an offset of a region. -/
def kvGet (m : Memory) (a n : Nat) : Nat := fromLe (memReads m a n)

/-- Puts a number into the n bytes at an offset of a region. -/
def kvPut (m : Memory) (a n v : Nat) : Memory := memWrites m a (leBytes n v)

/-- One 8-byte page-map entry (R175): state (0 free, 1 held, 2 quarantined, 3 absent), owner, tag and slot while held, and the ordinal or
bits [23:0] of the ready Beat. -/
structure PageEnt where
  state : Nat := 0
  owner : Nat := 0
  tag   : Nat := 0
  slot  : Nat := 0
  aux   : Nat := 0
  deriving DecidableEq, Repr, Inhabited

def entOf (x : Nat) : PageEnt := { state := bits x 0 2, owner := bits x 2 3, tag := bits x 8 16, slot := bits x 24 15, aux := bits x 40 24 }

def entWord (p : PageEnt) : Nat :=
  p.state % 4 + (p.owner % 8 <<< 2) + (p.tag % 2 ^ 16 <<< 8) + (p.slot % 2 ^ 15 <<< 24) + (p.aux % 2 ^ 24 <<< 40)

/-- The page-map entry of a page; absent outside the Wing's range. -/
def pageEnt (w : WingPlan) (kv : Kv) (page : Nat) : PageEnt :=
  if w.pageBase ≤ page ∧ page < w.pageBase + w.pageCount then entOf (kvGet kv.pmap (8 * (page - w.pageBase)) 8) else { state := 3 }

def setEnt (w : WingPlan) (kv : Kv) (page : Nat) (f : PageEnt → PageEnt) : Kv :=
  { kv with pmap := kvPut kv.pmap (8 * (page - w.pageBase)) 8 (entWord (f (pageEnt w kv page))) }

/-- A 64-byte sequence record (R176): state 0 free, 1 active, 2 truncated. -/
structure SeqRec where
  state    : Nat := 0
  cls      : Nat := 0
  object   : Nat := 0
  joinBeat : Nat := 0
  cursor   : Nat := 0
  firstOrd : Nat := 0
  held     : Nat := 0
  listOff  : Nat := 0
  cidxOff  : Nat := 0
  deriving DecidableEq, Repr, Inhabited

def recOf (bs : List Byte) : SeqRec :=
  { state := leAt bs 0 1, cls := leAt bs 1 1, object := leAt bs 4 4, joinBeat := leAt bs 8 6, cursor := leAt bs 16 6, firstOrd := leAt bs 24 4,
    held := leAt bs 28 4, listOff := leAt bs 32 4, cidxOff := leAt bs 36 4 }

def recBytes (r : SeqRec) : List Byte :=
  leBytes 1 r.state ++ leBytes 1 r.cls ++ leBytes 2 0 ++ leBytes 4 r.object ++ leBytes 6 r.joinBeat ++ leBytes 2 0 ++ leBytes 6 r.cursor ++
  leBytes 2 0 ++ leBytes 4 r.firstOrd ++ leBytes 4 r.held ++ leBytes 4 r.listOff ++ leBytes 4 r.cidxOff ++ leBytes 24 0

def kvRec (w : WingPlan) (kv : Kv) (slot : Nat) : Option SeqRec :=
  if w.slotFirst ≤ slot ∧ slot < w.slotFirst + w.slotCount then some (recOf (memReads kv.recs (64 * (slot - w.slotFirst)) 64)) else none

def kvSetRec (w : WingPlan) (kv : Kv) (slot : Nat) (r : SeqRec) : Kv := { kv with recs := memWrites kv.recs (64 * (slot - w.slotFirst)) (recBytes r) }

/-- The slots that hold a sequence, with their records. -/
def kvSeqs (w : WingPlan) (kv : Kv) : List (Nat × SeqRec) :=
  (List.range w.slotCount).filterMap fun j => match kvRec w kv (w.slotFirst + j) with
    | some r => if r.state = 0 then none else some (w.slotFirst + j, r)
    | none => none

/-- Byte offset of the entry of an ordinal in the page lists: the ring of R177. -/
def listAt (cl : SeqClass) (r : SeqRec) (ord : Nat) : Nat := 4 * (r.listOff + ord % cl.cap)

/-- The page of an ordinal while the sequence holds it (R177). -/
def seqPage (kv : Kv) (cl : SeqClass) (r : SeqRec) (ord : Nat) : Option Nat :=
  let x := kvGet kv.lists (listAt cl r ord) 4
  if r.firstOrd ≤ ord ∧ ord < r.firstOrd + r.held ∧ bit x 31 then some (bits x 0 24) else none

/-- Enters a page under an ordinal. -/
def listPage (kv : Kv) (cl : SeqClass) (r : SeqRec) (ord page : Nat) : Kv := { kv with lists := kvPut kv.lists (listAt cl r ord) 4 (page % 2 ^ 24 + 2 ^ 31) }

/-- Byte offset of the coarse entry of an ordinal: a ring of cap entries of e_b bytes (R202). -/
def coarseAt (cl : SeqClass) (r : SeqRec) (ord : Nat) : Nat := coarseBytes cl * (r.cidxOff + ord % cl.cap)

/-- A coarse entry (R202): its ordinal and its summary as BF16 codes, if it is valid. -/
def coarseOf (kv : Kv) (cl : SeqClass) (r : SeqRec) (ord : Nat) : Option (Nat × List Nat) :=
  let a := coarseAt cl r ord
  if bit (kvGet kv.coarse a 4) 31 then some (kvGet kv.coarse (a + 4) 4, (List.range (cl.hKv * cl.dK)).map fun q => kvGet kv.coarse (a + 16 + 2 * q) 2)
  else none

/-- The valid entries of a sequence's held pages, in ascending ordinal. -/
def coarseEntries (kv : Kv) (cl : SeqClass) (r : SeqRec) : List (Nat × List Nat) :=
  (List.range r.held).filterMap fun j => coarseOf kv cl r (r.firstOrd + j)

/-- Writes the coarse entry of a page that closes in a Beat. -/
def putCoarse (kv : Kv) (cl : SeqClass) (r : SeqRec) (ord page beat : Nat) (summary : List Nat) : Kv :=
  let entry := leBytes 4 (page % 2 ^ 24 + 2 ^ 31) ++ leBytes 4 ord ++ leBytes 6 beat ++ leBytes 2 0 ++ summary.flatMap (leBytes 2)
  { kv with coarse := memWrites kv.coarse (coarseAt cl r ord) entry }

/-- Pages on the free list, from the head: a ring of n_k page numbers behind head and tail, each counted modulo 2 n_k (R178). -/
def freePages (w : WingPlan) (kv : Kv) : List Nat :=
  let n := w.pageCount
  let head := kvGet kv.free 0 4
  let tail := kvGet kv.free 4 4
  (List.range ((tail + 2 * n - head) % (2 * n))).map fun j => kvGet kv.free (8 + 4 * ((head + j) % n)) 4

/-- Takes the head off the free list. -/
def freePop (w : WingPlan) (kv : Kv) : Kv := { kv with free := kvPut kv.free 0 4 ((kvGet kv.free 0 4 + 1) % (2 * w.pageCount)) }

/-- Puts a page at the tail of the free list. -/
def freePush (w : WingPlan) (kv : Kv) (page : Nat) : Kv :=
  let t := kvGet kv.free 4 4
  { kv with free := kvPut (kvPut kv.free (8 + 4 * (t % w.pageCount)) 4 page) 4 4 ((t + 1) % (2 * w.pageCount)) }

/-- A page is ready in a Beat: free, or its ready Beat has come (R184). -/
def pageReady (p : PageEnt) (beat : Nat) : Bool := p.state == 0 || (p.state == 2 && decide ((beat + 2 ^ 24 - p.aux) % 2 ^ 24 < 2 ^ 23))

/-- Pages at the head of the free list that are ready in a Beat (R184). -/
def readyPages (w : WingPlan) (kv : Kv) (beat : Nat) : Nat := ((freePages w kv).takeWhile fun p => pageReady (pageEnt w kv p) beat).length

/-- The allocator of logical Wing k at start (R178): every page free, in ascending number, ready from Beat 0. -/
def kvStart (k : Nat) (w : WingPlan) : Kv :=
  (List.range w.pageCount).foldl (fun kv j => setEnt w (freePush w kv (w.pageBase + j)) (w.pageBase + j) fun _ => { owner := k }) {}

/-- Takes the page at the head of the free list when more than `keep` are ready (R184). -/
def kvAlloc (w : WingPlan) (kv : Kv) (beat keep tag slot ord : Nat) : Option (Nat × Kv) :=
  match freePages w kv with
  | [] => none
  | p :: _ =>
    if keep < readyPages w kv beat then some (p, setEnt w (freePop w kv) p fun x => { x with state := 1, tag := tag, slot := slot, aux := ord })
    else none

/-- Releases the oldest held page of a sequence into the freed list (R186, R191, R202). -/
def kvRelease (kv : Kv) (cl : SeqClass) (r : SeqRec) : Kv × SeqRec :=
  match seqPage kv cl r r.firstOrd with
  | none => (kv, r)
  | some p =>
    let c := coarseAt cl r r.firstOrd
    ({ kv with freed := kv.freed ++ [p], lists := kvPut kv.lists (listAt cl r r.firstOrd) 4 p
               coarse := if cl.coarse then kvPut kv.coarse c 4 (kvGet kv.coarse c 4 % 2 ^ 31) else kv.coarse },
     { r with held := r.held - 1, firstOrd := r.firstOrd + 1 })

/-- At a Landing n the freed list joins the tail of the free list, quarantined until Beat n + r (R186). -/
def kvLanding (w : WingPlan) (kv : Kv) (n r : Nat) : Kv :=
  let kv := kv.freed.foldl (fun kv p => setEnt w (freePush w kv p) p fun x => { x with state := 2, tag := 0, slot := 0, aux := (n + r) % 2 ^ 24 }) kv
  { kv with freed := [], left := [] }

/-- Quarantined pages become free when their ready Beat begins (R186). -/
def kvBegin (w : WingPlan) (kv : Kv) (beat : Nat) : Kv :=
  (freePages w kv).foldl (fun kv p => setEnt w kv p fun x => if pageReady x beat then { x with state := 0 } else x) kv

/-- The memory of the j-th region of R179: records, page lists, free list, page map, coarse index. -/
def kvMem (kv : Kv) (j : Nat) : Memory :=
  match j with
  | 0 => kv.recs | 1 => kv.lists | 2 => kv.free | 3 => kv.pmap | _ => kv.coarse

/-- Replaces it. -/
def kvPutMem (kv : Kv) (j : Nat) (m : Memory) : Kv :=
  match j with
  | 0 => { kv with recs := m } | 1 => { kv with lists := m } | 2 => { kv with free := m } | 3 => { kv with pmap := m } | _ => { kv with coarse := m }

/-- The Carried regions that hold the allocator of a logical Wing, with their numbers (R179). -/
def kvRegions (p : Plan) (w : WingPlan) : List (Nat × Region) :=
  w.kvRegions.zipIdx.filterMap fun x => (p.regions.find? fun r => r.id == x.1).map fun r => (x.2, r)

/-- Blocks that bytes [off, off + n) of the j-th region occupy in version b − 1, which the ME reads (R39, R179). -/
def kvBlocks (i : Issue) (j off n : Nat) : List Nat :=
  match (kvRegions i.img.plan (iWing i)).find? fun x => x.1 == j with
  | some x => blocksOf (versionAt x.2 (i.img.plan.r + 2) ((i.beat : Int) - 1) + off) n
  | none => []

/-- The blocks of a sequence's record, page list and, where it is read, coarse ring (R207). -/
def seqBlocks (i : Issue) (cl : SeqClass) (slot : Nat) (r : SeqRec) (coarse : Bool) : List Nat :=
  kvBlocks i 0 (64 * (slot - (iWing i).slotFirst)) 64 ++ kvBlocks i 1 (listAt cl r 0) (4 * cl.cap) ++
  (if coarse then kvBlocks i 4 (coarseAt cl r 0) (coarseBytes cl * cl.cap) else [])

/-- The allocator's changes reach version b of its regions in DRAM, or the scratch area of a handover (R179, R188, R189). -/
def kvFlush (i : Issue) (e : Eng) : Eng :=
  (kvRegions i.img.plan (iWing i)).foldl (fun e x =>
    engWrite e 1 (versionAt x.2 (i.img.plan.r + 2) i.beat) (memReads (kvMem e.kv x.1) 0 x.2.size)) e

/-- Byte offsets of the areas of a page: K, V, K scales, V scales (R173). -/
def pageAreas (cl : SeqClass) : Nat × Nat × Nat × Nat :=
  let up := fun (n : Nat) => ceilDiv n 512 * 512
  let nk := cl.tP * cl.hKv * cl.dK
  let nv := cl.tP * cl.hKv * cl.dV
  let v := up (elemsExtent cl.kFmt nk)
  let ks := v + up (elemsExtent cl.vFmt nv)
  let vs := ks + (if cl.kScaled then up (nk / 32) else 0)
  (0, v, ks, vs)

/-- Bytes of a page's layout (R170). -/
def pageBytes (cl : SeqClass) : Nat :=
  let (_, _, _, vs) := pageAreas cl
  vs + (if cl.vScaled then ceilDiv (cl.tP * cl.hKv * cl.dV / 32) 512 * 512 else 0)

def pageAddr (i : Issue) (page : Nat) : Nat := i.img.plan.kvBase + page * 16384

/-- A KV area of a page as an operand of its format. -/
def areaOpnd (i : Issue) (page off sc : Nat) (f : Fmt) (scaled : Bool) : Opnd :=
  { d := { addr := 0, space := 1, fmt := fmtCode f, scaled := scaled }, space := 1,
    addr := pageAddr i page + off, scale := pageAddr i page + sc }

def kArea (i : Issue) (cl : SeqClass) (page : Nat) : Opnd :=
  let (k, _, ks, _) := pageAreas cl
  areaOpnd i page k ks cl.kFmt cl.kScaled

def vArea (i : Issue) (cl : SeqClass) (page : Nat) : Opnd :=
  let (_, v, _, vs) := pageAreas cl
  areaOpnd i page v vs cl.vFmt cl.vScaled

/-- Blocks of a page (R173). -/
def pageBlocks (i : Issue) (cl : SeqClass) (page : Nat) : List Nat := blocksOf (pageAddr i page) (pageBytes cl)

/-- A page that the ME fetches comes into S, at a place that the manual leaves open (R181, log entry 96); the ME computes on that copy. -/
def stagePages (i : Issue) (e : Eng) (s : Opnd) (pages : List Nat) : Eng :=
  pages.zipIdx.foldl (fun e p =>
    rawWrites e s (Config.stagePlace i.k i.beat i.index p.2 % (rawBytes s.d - 16384 + 1)) (engReads e 1 (pageAddr i p.1) 16384)) e

/-- Prepares a block for a row append (R192): the first write since the allocation clears it, a later one reads it. `first` is
the index at which the row starts and `at0` that of the block. -/
def openBlock (e : Eng) (addr first at0 : Nat) : Except EngErr Eng :=
  if first ≤ at0 then .ok (engWrite e 1 addr (List.replicate 512 0))
  else do
    checkCrc e 1 [addr / 512]
    .ok e

/-- Prepares the blocks that n units from unit s touch, per units to a block. -/
def openBlocks (e : Eng) (base per s n : Nat) : Except EngErr Eng :=
  (List.range ((s + n - 1) / per - s / per + 1)).foldlM (fun e j => openBlock e (base + 512 * (s / per + j)) s (per * (s / per + j))) e

/-- Appends one row of keys or values to an area (R191, R192). -/
def appendRow (i : Issue) (e : Eng) (o : Opnd) (row : Nat) (lin0 : Nat) (xs : List Val) : Except EngErr Eng := do
  let n := xs.length
  let f := opFmt o
  let e ← openBlocks e o.addr (fmtPerBlock f) (row * n) n
  let e ← if o.d.scaled then openBlocks e o.scale 512 (row * n / 32) (n / 32) else .ok e
  .ok (putVals i e o (wSat i.cmd) (xs.zipIdx.map fun x => (lin0 + x.2, row * n + x.2, x.1)))

/-- The ordered sum over a list of exact terms, 16 at a time from +0 (R124). -/
def sum124 (xs : List Val) : Val := (chunks 16 xs.length xs).foldl (fun s g => orderedStep s (exactSum g)) vZero

/-- The summary of a closed page (R202). -/
def pageSummary (i : Issue) (e : Eng) (cl : SeqClass) (page : Nat) : List Nat :=
  let o := kArea i cl page
  (List.range (cl.hKv * cl.dK)).map fun q =>
    let xs := (List.range cl.tP).map fun r => getVal e o (r * (cl.hKv * cl.dK) + q)
    let s := if is16Float cl.kFmt then sum124 xs else (let v := rne32 (exactSum xs); if v.isZero then vZero else v)
    encodeVal .bf16 false .rne (rne32 (vDiv s (valOfInt cl.tP)))

/-- The row record of an A row (R182): slot, skip, position. -/
def rowRec (e : Eng) (y : Opnd) (r : Nat) : Nat × Bool × Nat :=
  let w := fromLe (rawReads e y (8 * r) 8)
  (bits w 0 15, bit w 15, bits w 16 48)

/-- Sequence a comes before sequence b in submission order: by the Beat of the JOIN, then by object ID (R182, R353, R355, log entry 98). -/
def seqBefore (a b : SeqRec) : Bool :=
  decide (a.joinBeat < b.joinBeat) ||
  (a.joinBeat == b.joinBeat && (let d := (b.object + 2 ^ 29 - a.object % 2 ^ 29) % 2 ^ 29; decide (0 < d ∧ d < 2 ^ 28)))

/-- The rows of one sequence stand together, in ascending position, and the sequences in submission order (R182). The rows that a truncated
sequence no longer appends carry one position (R187). -/
def rowsOrdered (w : WingPlan) (kv : Kv) (usePos : Bool) : List (Nat × Bool × Nat) → Bool
  | a :: b :: rest =>
    (match kvRec w kv a.1, kvRec w kv b.1 with
     | some p, some q =>
       if a.1 = b.1 then !usePos || decide (a.2.2 < b.2.2) || (p.state == 2 && a.2.2 == b.2.2 && a.2.2 == p.cursor) else seqBefore p q
     | _, _ => false) && rowsOrdered w kv usePos (b :: rest)
  | _ => true

/-- The row rules of R182 over a command's rows that do not skip. -/
def rowRules (w : WingPlan) (kv : Kv) (usePos : Bool) (rows : List (Nat × Bool × Nat)) : Except EngErr Unit :=
  let live := rows.filter fun r => !r.2.1
  if live.any (fun r => match kvRec w kv r.1 with
      | some q => q.state != 1 && q.state != 2
      | none => true) then .error .fault
  else if rowsOrdered w kv usePos live then .ok () else .error .fault

/-- The records, lists and coarse rings of the sequences of a command's rows are read (R207), each of the command's class. -/
def readSeqs (i : Issue) (e : Eng) (cl : SeqClass) (coarse : Bool) (rows : List (Nat × Bool × Nat)) : Except EngErr Unit :=
  let slots := ((rows.filter fun r => !r.2.1).map fun r => r.1).eraseDups
  slots.forM fun slot => match kvRec (iWing i) e.kv slot with
    | none => .error .fault
    | some r => do
      checkCrc e 1 (seqBlocks i cl slot r coarse)
      if r.cls = bits (pw i.cmd 0) 0 4 then .ok () else .error .fault

/-- Posts an object with a reason to the Wing's UNASSESSED list. -/
def postObj (e : Eng) (obj reason : Nat) : Eng := { e with posts := e.posts ++ [(obj, reason)] }

/-- Truncates a sequence (R187). -/
def truncateSeq (w : WingPlan) (e : Eng) (slot : Nat) (r : SeqRec) : Eng :=
  let e := postObj { e with kv := kvSetRec w e.kv slot { r with state := 2 } } r.object 3
  { e with kvFlags := e.kvFlags ||| 4, kvRefused := e.kvRefused + 1, alarms := e.alarms ++ [(0x0008, r.object)] }

/-- The page of an ordinal of a sequence, checked against its class and the page map (R195, R207). -/
def keyPage (w : WingPlan) (kv : Kv) (cl : SeqClass) (slot : Nat) (r : SeqRec) (ord : Nat) : Except EngErr Nat :=
  match seqPage kv cl r ord with
  | none => .error .fault
  | some p =>
    let m := pageEnt w kv p
    if m.tag ≠ pageTag cl then .error .tag
    else if m.state = 1 ∧ m.slot = slot ∧ m.aux = ord % 2 ^ 24 then .ok p else .error .fault

/-- Opens the page that the next row needs, if it needs one, and whether it was granted (R191): the oldest page of a full sequence is
released first. The row at position 0 uses the page of the JOIN (log entry 19). -/
def openPage (i : Issue) (w : WingPlan) (cl : SeqClass) (e : Eng) (slot : Nat) (r : SeqRec) : Eng × SeqRec × Bool :=
  if r.cursor % cl.tP ≠ 0 ∨ r.cursor = 0 then (e, r, true)
  else
    let ord := r.cursor / cl.tP
    let (kv, r) := if r.held = cl.nRet then kvRelease e.kv cl r else (e.kv, r)
    match kvAlloc w kv i.beat 0 (pageTag cl) slot ord with
    | some (p, kv) =>
      let r := { r with held := r.held + 1 }
      ({ e with kv := kvSetRec w (listPage kv cl r ord p) slot r }, r, true)
    | none => ({ e with kv := kvSetRec w kv slot r }, r, false)

/-- The coarse entry of a page that closes (R191, R202): its keys are read again, with the checks of R207. -/
def closePage (i : Issue) (cl : SeqClass) (e : Eng) (r : SeqRec) (ord page : Nat) : Except EngErr Eng :=
  if !cl.coarse then .ok e
  else do
    checkCrc e 1 (blocksOf (pageAddr i page) (let a := pageAreas cl; if cl.kScaled then a.2.2.2 else a.2.1))
    checkCrc e 1 (kvBlocks i 4 (coarseAt cl r ord) (coarseBytes cl))
    .ok { e with kv := putCoarse e.kv cl r ord page i.beat (pageSummary i e cl page) }

/-- One PROJ row (R191, R187): the Y record is rewritten with the position. -/
def projRow (i : Issue) (w : WingPlan) (cl : SeqClass) (y s : Opnd) (e : Eng) (m : Nat) (ks vs : List Val) (lin0 : Nat) : Except EngErr Eng :=
  let (slot, _, _) := rowRec e y m
  match kvRec w e.kv slot with
  | none => .error .fault
  | some r =>
    let writePos := fun (e : Eng) (pos : Nat) => rawWrites e y (8 * m + 2) (leBytes 6 pos)
    if r.state = 2 then .ok (writePos e r.cursor)
    else if 2 ^ 48 - 1 ≤ r.cursor then .ok (writePos (truncateSeq w e slot r) r.cursor)
    else match openPage i w cl e slot r with
      | (e, r, false) => .ok (writePos (truncateSeq w e slot r) r.cursor)
      | (e, r, true) => do
        let ord := r.cursor / cl.tP
        let p ← keyPage w e.kv cl slot r ord
        let row := r.cursor % cl.tP
        let e ← appendRow i e (kArea i cl p) row lin0 ks
        let e ← appendRow i e (vArea i cl p) row (lin0 + ks.length) vs
        let e ← if row = cl.tP - 1 then closePage i cl e r ord p else .ok e
        let e := stagePages i { e with kv := kvSetRec w e.kv slot { r with cursor := r.cursor + 1 } } s [p]
        .ok (writePos e r.cursor)

/-- PROJ (R190-R192). The command's index in [Q | K | V] is the counter of the draws for K and V, which lie in no C (log entry 36). -/
def mePROJ (i : Issue) (e : Eng) : Except EngErr Eng := do
  let a ← operandReq i 0
  let b ← operandReq i 1
  let c ← operand i 2
  let y ← operandReq i 3
  let s ← operandReq i 5
  let x ← operand i 7
  let w := iWing i
  match i.img.plan.classes[bits (pw i.cmd 0) 0 4]? with
  | none => .error .fault
  | some cl =>
    let hq := bits (pw i.cmd 0) 4 7
    let nq := hq * cl.dK
    let nk := cl.hKv * cl.dK
    let n := b.d.d1
    let path := mePath a.d b.d
    let aRows := (List.range a.d.d1).map fun r => (List.range a.d.d0).map fun k => getS e a (rowIdx a.d r k)
    let bRows := (List.range n).map fun r => (List.range b.d.d0).map fun k => getS e b (rowIdx b.d r k)
    let rows := (List.range a.d.d1).map fun m => rowRec e y m
    meReads i e a b (allRuns a.d) none
    checkRuns e y (rawRuns y.d (8 * a.d.d1))
    rowRules w e.kv false rows
    readSeqs i e cl false rows
    xCheck i e x (rateMode (opFmt a) (opFmt b)).2 [{ aRows := aRows, bRows := bRows }]
    let outs := aRows.map fun ar => bRows.map fun br => outFloat i.cmd none none (accFloat (reduceK path (accZero path) (ar.zip br)))
    let e ← ((rows.zip outs).zipIdx).foldlM (fun e q =>
      if q.1.1.2.1 then .ok e
      else projRow i w cl y s e q.2 ((q.1.2.drop nq).take nk) (q.1.2.drop (nq + nk)) (q.2 * n + nq)) e
    let e := kvFlush i { e with bank := none }
    match c with
    | some o => .ok (putVals i e o (wSat i.cmd) (((rows.zip outs).zipIdx).flatMap fun q =>
        ((q.1.2.take nq).zipIdx).map fun v => (q.2 * nq + v.2, rowIdx o.d q.2 v.2, if q.1.1.2.1 then vZero else v.1)))
    | none => .ok e

/-! ATTN (R196-R201). -/

/-- The pages that E names for a sequence, in ascending ordinal (R197). -/
def retPages (e : Eng) (eo : Option Opnd) (k seqIdx : Nat) : List Nat :=
  match eo with
  | some o => ((List.range k).map fun j => fromLe (rawReads e o (4 * (seqIdx * k + j)) 4)).filter (· != 0xFFFFFFFF)
  | none => []

/-- The key list of a row as (page, row in page, position) (R197). -/
def keyList (w : WingPlan) (e : Eng) (cl : SeqClass) (slot : Nat) (r : SeqRec) (rets : List Nat) (causal : Bool) (t : Nat) :
    Except EngErr (List (Nat × Nat × Nat)) := do
  let sorted := rets.mergeSort (· ≤ ·)
  let first ← sorted.mapM fun ord => do
    let p ← keyPage w e.kv cl slot r ord
    if r.cursor < (ord + 1) * cl.tP then .error .fault
    else .ok ((List.range cl.tP).map fun j => (p, j, ord * cl.tP + j))
  let lo := t + 1 - cl.window
  let hi := if causal then Nat.min (t + 1) r.cursor else r.cursor
  let win ← ((List.range hi).drop lo).mapM fun pos => do
    let p ← keyPage w e.kv cl slot r (pos / cl.tP)
    .ok (p, pos % cl.tP, pos)
  .ok (first.flatten ++ win)

/-- Elements of head h of the key or value at a row of a page. -/
def kvElems (e : Eng) (o : Opnd) (hKv d row h : Nat) : List SVal := (List.range d).map fun q => getS e o ((row * hKv + h) * d + q)

/-- The score of a query head with a key (R198). -/
def score (q key : List SVal) (path : Nat) (alpha : Val) : Val :=
  rne32 (vMul (accFloat (reduceK path (accZero path) (q.zip key))) alpha)

/-- Running state of the online softmax (R199). -/
structure Soft where
  m : Val := .inf true
  l : Val := vZero
  o : List Val := []
  deriving DecidableEq, Repr, Inhabited

/-- One block of up to 256 keys, given as scores with value elements (R199). -/
def softBlock (pf : Fmt) (s : Soft) (ks : List (Val × List Val)) : Soft :=
  let mn := ks.foldl (fun m k => vMax m k.1) s.m
  let c := expE (vSub s.m mn)
  let ps := ks.map fun k => roundTo pf .rne (expE (vSub k.1 mn))
  { m := mn
    l := rne32 (vAdd (rne32 (vMul s.l c)) (sum124 ps))
    o := s.o.zipIdx.map fun x =>
      rne32 (vAdd (rne32 (vMul x.1 c)) (sum124 ((ps.zip ks).map fun q => vMul q.1 (q.2.2.getD x.2 vZero)))) }

/-- One row and head: output, m and l (R199, R200). -/
def attnHead (pf : Fmt) (dv : Nat) (ks : List (Val × List Val)) : List Val × Val × Val :=
  if ks.isEmpty then (List.replicate dv vZero, .inf true, vZero)
  else if ks.any (fun k => k.1.isNan || k.1.isInf) then (List.replicate dv .nan, .nan, .nan)
  else
    let s := (chunks 256 ks.length ks).foldl (softBlock pf) { o := List.replicate dv vZero }
    (s.o.map fun x => rne32 (vDiv x s.l), s.m, s.l)

/-- The product path of a query and key format (R193). -/
def attnPath (a : Desc) (cl : SeqClass) : Nat := if is16Float (dFmt a) then 2 else if a.scaled || cl.kScaled then 1 else 0

/-- The sequence number of each row within a command: rows of one slot share it. -/
def seqNumbers (rows : List (Nat × Bool × Nat)) : List Nat :=
  let slots := (rows.filter fun r => !r.2.1).foldl (fun (acc : List Nat) r => if acc.contains r.1 then acc else acc ++ [r.1]) []
  rows.map fun r => slots.idxOf r.1

/-- The keys of one row and query head: score and values, with the key's place. -/
def rowKeys (i : Issue) (e : Eng) (cl : SeqClass) (a : Opnd) (m h hq : Nat) (keys : List (Nat × Nat × Nat)) : List (Val × List Val) :=
  let g := h * cl.hKv / hq
  let q := (List.range cl.dK).map fun j => getS e a (rowIdx a.d m (h * cl.dK + j))
  keys.map fun k =>
    (score q (kvElems e (kArea i cl k.1) cl.hKv cl.dK k.2.1 g) (attnPath a.d cl) (decodeVal .fp32 (pw i.cmd 2)),
     (kvElems e (vArea i cl k.1) cl.hKv cl.dV k.2.1 g).map sVal)

/-- The pages of a key list, each once. -/
def keyPages (ks : List (Nat × Nat × Nat)) : List Nat := (ks.map fun k => k.1).eraseDups

/-- The key lists of all rows; an empty list for a row that skips. -/
def allKeys (i : Issue) (e : Eng) (cl : SeqClass) (eo : Option Opnd) (rows : List (Nat × Bool × Nat)) :
    Except EngErr (List (List (Nat × Nat × Nat))) :=
  let w := iWing i
  let kRet := if bit (pw i.cmd 0) 14 then bits (pw i.cmd 0) 15 7 else 0
  (rows.zip (seqNumbers rows)).mapM fun r =>
    if r.1.2.1 then .ok []
    else match kvRec w e.kv r.1.1 with
      | none => .error .fault
      | some q => do
        let ks ← keyList w e cl r.1.1 q (retPages e eo kRet r.2) (bit (pw i.cmd 0) 11) r.1.2.2
        checkCrc e 1 ((keyPages ks).flatMap (pageBlocks i cl))
        .ok ks

/-- What ATTN and ATTN_BWD read before they compute (R181, R182, R197, R207): A, the row map, E, the sequences and the pages of every key list,
which pass through S. They give the rows, the key lists and the view after the fetches. -/
def attnReads (i : Issue) (e : Eng) (cl : SeqClass) (a y s : Opnd) (eo : Option Opnd) :
    Except EngErr (List (Nat × Bool × Nat) × List (List (Nat × Nat × Nat)) × Eng) := do
  checkOpnd e a
  checkRuns e y (rawRuns y.d (8 * a.d.d1))
  match eo with
  | some o => checkOpnd e o
  | none => .ok ()
  let rows := (List.range a.d.d1).map fun m => rowRec e y m
  rowRules (iWing i) e.kv true rows
  readSeqs i e cl false rows
  let keys ← allKeys i e cl eo rows
  .ok (rows, keys, stagePages i { e with bank := none } s (keys.flatMap keyPages).eraseDups)

/-- ATTN. -/
def meAttn (i : Issue) (e : Eng) : Except EngErr Eng := do
  let a ← operandReq i 0
  let c ← operandReq i 2
  let y ← operandReq i 3
  let z ← operand i 4
  let s ← operandReq i 5
  let eo ← operand i 6
  match i.img.plan.classes[bits (pw i.cmd 0) 0 4]? with
  | none => .error .fault
  | some cl =>
    let hq := bits (pw i.cmd 0) 4 7
    let (rows, keys, e) ← attnReads i e cl a y s eo
    let res := ((rows.zip keys).zipIdx).map fun q =>
      if q.1.1.2.1 then none
      else some ((List.range hq).map fun h => attnHead (pFmt i.cmd) cl.dV (rowKeys i e cl a q.2 h hq q.1.2))
    let nOut := hq * cl.dV
    let e' := putVals i e c (wSat i.cmd) (res.zipIdx.flatMap fun r =>
      let vs : List Val := match r.1 with
        | some hs => hs.flatMap fun (h : List Val × Val × Val) => h.1
        | none => List.replicate nOut vZero
      vs.zipIdx.map fun v => (r.2 * nOut + v.2, rowIdx c.d r.2 v.2, v.1))
    match z with
    | some o =>
      if !bit (pw i.cmd 0) 13 then .ok e'
      else .ok (res.zipIdx.foldl (fun e r =>
        match r.1 with
        | some hs => rawWrites e o (8 * hq * r.2)
            (hs.flatMap fun h => leBytes 4 (encodeVal .fp32 false .rne h.2.1) ++ leBytes 4 (encodeVal .fp32 false .rne h.2.2))
        | none => e) e')
    | none => .ok e'

/-! ATTN_BWD (R205). -/

/-- Ordered sum with each product and addition rounded (R205 step 2). -/
def dotRounded (xs ys : List Val) : Val := (xs.zip ys).foldl (fun s p => rne32 (vAdd s (rne32 (vMul p.1 p.2)))) vZero

/-- One row and query head of the backward pass: per key its place, p_ij and ds_ij rounded to p_fmt, and dQ. -/
structure BwdHead where
  kvHead : Nat
  keys   : List (Nat × Nat × Nat)
  p      : List Val
  ds     : List Val
  dq     : List Val
  q      : List Val
  d      : List Val
  deriving DecidableEq, Repr, Inhabited

def bwdHead (i : Issue) (e : Eng) (cl : SeqClass) (a c0 d z : Opnd) (m h hq : Nat) (keys : List (Nat × Nat × Nat)) : BwdHead :=
  let pf := pFmt i.cmd
  let g := h * cl.hKv / hq
  let ks := rowKeys i e cl a m h hq keys
  let zm := rawF32 e z (2 * (m * hq + h))
  let zl := rawF32 e z (2 * (m * hq + h) + 1)
  let ds := (List.range cl.dV).map fun j => getVal e d (rowIdx d.d m (h * cl.dV + j))
  let co := (List.range cl.dV).map fun j => getVal e c0 (rowIdx c0.d m (h * cl.dV + j))
  let delta := dotRounded ds co
  let nan := zm.isNan || zl.isNan
  let ps := ks.map fun k => if nan then Val.nan else rne32 (vDiv (roundTo pf .rne (expE (vSub k.1 zm))) zl)
  let dss := (ks.zip ps).map fun k =>
    if nan then Val.nan
    else rne32 (vMul k.2 (rne32 (vSub (sum124 ((ds.zip k.1.2).map fun x => vMul x.1 x.2)) delta)))
  let dsr := dss.map (roundTo pf .rne)
  let kvals := keys.map fun k => (kvElems e (kArea i cl k.1) cl.hKv cl.dK k.2.1 g).map sVal
  { kvHead := g, keys := keys, p := ps.map (roundTo pf .rne), ds := dsr
    dq := (List.range cl.dK).map fun j =>
      if nan then Val.nan
      else rne32 (vMul (decodeVal .fp32 (pw i.cmd 2)) (sum124 ((dsr.zip kvals).map fun x => vMul x.1 (x.2.getD j vZero))))
    q := (List.range cl.dK).map fun j => getVal e a (rowIdx a.d m (h * cl.dK + j))
    d := ds }

/-- ATTN_BWD. B' has one row for each distinct key: per KV head its dK, then its dV (log entry 20). -/
def meAttnBwd (i : Issue) (e : Eng) : Except EngErr Eng := do
  let a ← operandReq i 0
  let b ← operandReq i 1
  let c ← operandReq i 2
  let y ← operandReq i 3
  let z ← operandReq i 4
  let sa ← operandReq i 5
  let eo ← operand i 6
  let d ← operandReq i 7
  match i.img.plan.classes[bits (pw i.cmd 0) 0 4]?, wingDesc (iWing i) (pw i.cmd 1) with
  | some cl, some c0d => do
    let c0 ← resolveOpnd i false c0d
    let hq := bits (pw i.cmd 0) 4 7
    checkOpnds e [some z, some d, some c0]
    let (rows, keys, e) ← attnReads i e cl a y sa eo
    let res := ((rows.zip keys).zipIdx).map fun q =>
      if q.1.1.2.1 then []
      else (List.range hq).map fun h => bwdHead i e cl a c0 d z q.2 h hq q.1.2
    let seqs := seqNumbers rows
    let distinct := ((seqs.zip keys).flatMap fun s => s.2.map fun k => (s.1, k)).foldl
      (fun (acc : List (Nat × (Nat × Nat × Nat))) k => if acc.contains k then acc else acc ++ [k]) []
    let order := distinct.mergeSort fun p q => decide (p.1 < q.1 ∨ (p.1 = q.1 ∧ p.2.2.2 ≤ q.2.2.2))
    let terms := fun (s : Nat × (Nat × Nat × Nat)) (g : Nat) =>
      ((seqs.zip res).filter fun r => r.1 == s.1).flatMap fun r => (r.2.filter fun h => h.kvHead == g).flatMap fun h =>
        -- a key may stand in a row's list twice: on a page of E and in the window
        h.keys.zipIdx.filterMap fun x => if x.1 = s.2 then some (h.ds.getD x.2 vZero, h.p.getD x.2 vZero, h.q, h.d) else none
    let rowOf := fun (s : Nat × (Nat × Nat × Nat)) => (List.range cl.hKv).flatMap fun g =>
      let ts := terms s g
      ((List.range cl.dK).map fun j =>
        rne32 (vMul (decodeVal .fp32 (pw i.cmd 2)) (sum124 (ts.map fun x => vMul x.1 (x.2.2.1.getD j vZero))))) ++
      ((List.range cl.dV).map fun j => sum124 (ts.map fun x => vMul x.2.1 (x.2.2.2.getD j vZero)))
    if b.d.d1 < order.length then .error .fault
    else
      let nOut := hq * cl.dK
      let e := putVals i e c false (res.zipIdx.flatMap fun r =>
        (if r.1.isEmpty then List.replicate nOut vZero else r.1.flatMap fun h => h.dq).zipIdx.map fun v =>
          (r.2 * nOut + v.2, rowIdx c.d r.2 v.2, v.1))
      .ok (putVals i e b false (order.zipIdx.flatMap fun s => (rowOf s.1).zipIdx.map fun v =>
        (s.2 * b.d.d0 + v.2, rowIdx b.d s.2 v.2, v.1)))
  | _, _ => .error .fault

/-! RETR (R203, R204). -/

/-- Orders eligible entries by descending score, ties to the higher ordinal, and takes k ordinals. -/
def retrPick (k : Nat) (xs : List (Nat × Val)) : List Nat :=
  let live := xs.filter fun x => !x.2.isNan
  (((live.mergeSort fun a b => decide (0 < vCmp a.2 b.2) || (vCmp a.2 b.2 == 0 && decide (b.1 ≤ a.1))).take k).map fun x => x.1).mergeSort (· ≤ ·)

/-- Coarse rings pass through S as pages do, 16 KiB of each at most (R181, log entry 96). -/
def stageCoarse (i : Issue) (e : Eng) (s : Opnd) (rings : List (Nat × Nat)) : Eng :=
  rings.zipIdx.foldl (fun e x =>
    rawWrites e s (Config.stagePlace i.k i.beat i.index x.2 % (rawBytes s.d - 16384 + 1)) (memReads e.kv.coarse x.1.1 (Nat.min 16384 x.1.2))) e

/-- Entries of a sequence that a query at a first position may select (R203). -/
def eligible (cl : SeqClass) (kv : Kv) (r : SeqRec) (p0 : Nat) : List (Nat × List Nat) :=
  (coarseEntries kv cl r).filter fun c => decide (cl.tP * c.1 + cl.tP - 1 + cl.window < p0 + 1)

/-- The product of a retrieval query with the valid entries of its sequence, in ascending ordinal, for the row sums of R164. -/
def retrProduct (e : Eng) (cl : SeqClass) (a : Opnd) (n : Nat) (r : SeqRec) : Product :=
  { aRows := [(List.range (cl.hKv * cl.dK)).map fun q => getS e a (rowIdx a.d n q)]
    bRows := (coarseEntries e.kv cl r).map fun c => c.2.map fun x => (decodeVal .bf16 x, 0x7F) }

/-- The check of R207 where X brings the row weights of RETR (R258, log entry 99): each sequence takes the tiles of its product. -/
def retrCheck (i : Issue) (e : Eng) (x : Option Opnd) (ps : List Product) : Except EngErr Unit :=
  match x with
  | none => .ok ()
  | some o => xCheck { i with cmd := { i.cmd with param := [] } } e (some o) 256 ps

/-- RETR. -/
def meRetr (i : Issue) (e : Eng) : Except EngErr Eng := do
  let a ← operandReq i 0
  let y ← operandReq i 3
  let s ← operandReq i 5
  let eo ← operandReq i 6
  let x ← operand i 7
  let w := iWing i
  match i.img.plan.classes[bits (pw i.cmd 0) 0 4]? with
  | none => .error .fault
  | some cl =>
    let k := bits (pw i.cmd 0) 4 7
    let rows := (List.range (rawBytes y.d / 8)).map fun m => rowRec e y m
    checkOpnds e [some a, some y]
    rowRules w e.kv true rows
    readSeqs i e cl true rows
    let firsts := (rows.filter fun r => !r.2.1).foldl (fun (acc : List (Nat × Nat)) r => if acc.any (fun q => q.1 == r.1) then acc else acc ++ [(r.1, r.2.2)]) []
    if a.d.d1 < firsts.length then .error .fault
    else do
      let seqs := firsts.zipIdx.filterMap fun f => (kvRec w e.kv f.1.1).map fun r => (f.2, f.1.2, r)
      retrCheck i e x (seqs.map fun q => retrProduct e cl a q.1 q.2.2)
      let pick := fun (q : Nat × Nat × SeqRec) => retrPick k ((eligible cl e.kv q.2.2 q.2.1).map fun c => (c.1,
        sum124 ((List.range (cl.hKv * cl.dK)).map fun j => vMul (getVal e a (rowIdx a.d q.1 j)) (decodeVal .bf16 (c.2.getD j 0)))))
      let e' := stageCoarse i { e with bank := none } s (seqs.map fun q => (coarseAt cl q.2.2 0, coarseBytes cl * cl.cap))
      .ok (seqs.foldl (fun e' q =>
        let os := pick q
        rawWrites e' eo (4 * k * q.1) ((os ++ List.replicate (k - os.length) 0xFFFFFFFF).flatMap (leBytes 4))) e')

/-! SEQ (R183-R186). -/

/-- The result record of a SEQ operation. -/
def seqResult (status slot page : Nat) : List Byte := [BitVec.ofNat 8 status, 0] ++ leBytes 2 slot ++ leBytes 4 page

/-- Where the rings of the j-th slot of a Wing stand (log entry 95): every slot has room for the largest page list and coarse ring of any class. -/
def ringPlaces (cls : List SeqClass) (cl : SeqClass) (j : Nat) : Nat × Nat :=
  let cap := (cls.map fun c => c.cap).foldl Nat.max 0
  (j * cap, j * cap * ((cls.map coarseBytes).foldl Nat.max 64) / coarseBytes cl)

/-- JOIN (R185). -/
def seqJoin (i : Issue) (w : WingPlan) (cls obj : Nat) (e : Eng) : Except EngErr (Eng × List Byte) :=
  match i.img.plan.classes[cls]? with
  | none => .error .fault
  | some cl =>
    let refuse := fun (flag alarm status : Nat) =>
      ({ postObj e obj 3 with kvFlags := e.kvFlags ||| flag, kvRefused := e.kvRefused + 1, alarms := e.alarms ++ [(alarm, obj)] },
       seqResult status 0xFFFF 0xFFFFFFFF)
    match (List.range w.slotCount).find? fun j => !e.kv.left.contains j && (match kvRec w e.kv (w.slotFirst + j) with | some r => r.state == 0 | none => false) with
    | none => .ok (refuse 2 0x0013 2)
    | some j => do
      let slot := w.slotFirst + j
      checkCrc e 1 (kvBlocks i 0 (64 * j) 64 ++ kvBlocks i 2 0 8)
      match kvAlloc w e.kv i.beat w.rho (pageTag cl) slot 0 with
      | none => .ok (refuse 1 0x0007 1)
      | some (p, kv) =>
        let at' := ringPlaces i.img.plan.classes cl j
        let r : SeqRec := { state := 1, cls := cls, object := obj, joinBeat := i.beat, cursor := 0, firstOrd := 0, held := 1, listOff := at'.1, cidxOff := at'.2 }
        .ok ({ e with kv := kvSetRec w (listPage kv cl r 0 p) slot r }, seqResult 0 slot p)

/-- Releases every held page of a sequence. -/
def releaseAll (cl : SeqClass) : Nat → Kv → SeqRec → Kv × SeqRec
  | 0, kv, r => (kv, r)
  | n + 1, kv, r => let q := kvRelease kv cl r; releaseAll cl n q.1 q.2

/-- LEAVE (R186): the state of the slot becomes free, and nothing else of its record changes. -/
def seqLeave (i : Issue) (w : WingPlan) (slot : Nat) (e : Eng) : Except EngErr (Eng × List Byte) :=
  match kvRec w e.kv slot with
  | none => .error .fault
  | some r => match i.img.plan.classes[r.cls]? with
    | none => .error .fault
    | some cl =>
      if r.state = 0 then .error .fault
      else do
        checkCrc e 1 (seqBlocks i cl slot r cl.coarse)
        let (kv, _) := releaseAll cl r.held e.kv r
        .ok ({ e with kv := { kvSetRec w kv slot { r with state := 0 } with left := kv.left ++ [slot - w.slotFirst] } },
             seqResult 0 slot ((seqPage e.kv cl r r.firstOrd).getD 0xFFFFFFFF))

/-- One operation record of SEQ (R183). -/
def seqOp (i : Issue) (w : WingPlan) (bs : List Byte) (e : Eng) : Except EngErr (Eng × List Byte) :=
  let op := leAt bs 0 1
  if leAt bs 8 8 ≠ 0 then .error .fault
  else match op with
    | 0 => .ok (e, seqResult 3 0xFFFF 0xFFFFFFFF)
    | 1 => seqJoin i w (leAt bs 1 1) (leAt bs 4 4) e
    | 2 => seqLeave i w (leAt bs 2 2) e
    | _ => .error .fault

/-- SEQ: operations in record order, one result each. -/
def meSeq (i : Issue) (e : Eng) : Except EngErr Eng := do
  let a ← operandReq i 0
  let c ← operandReq i 2
  let w := iWing i
  checkRuns e a (rawRuns a.d (16 * bits (pw i.cmd 0) 0 13))
  let e ← (List.range (bits (pw i.cmd 0) 0 13)).foldlM (fun e j => do
    let (e, r) ← seqOp i w (rawReads e a (16 * j) 16) e
    .ok (rawWrites e c (8 * j) r)) { e with bank := none }
  .ok (kvFlush i e)

/-- The computation of a matrix engine opcode (R134, R180). -/
def meBody (i : Issue) (e : Eng) : Except EngErr Eng :=
  match i.cmd.opcode with
  | 0x10 => meMm i e
  | 0x11 => meConv i e
  | 0x12 | 0x13 => meWino i e
  | 0x18 => mePROJ i e
  | 0x19 => meAttn i e
  | 0x1A => meAttnBwd i e
  | 0x1B => meRetr i e
  | _ => meSeq i e

/-! Transfers (R260). -/

/-- The blocks of a destination that a transfer covers only in part (R260). -/
def partlyCovered (o : Opnd) : List Nat :=
  let f := opFmt o
  let runs := (allRuns o.d).map fun r => (elemByte f r.1, if r.2 = 0 then 0 else elemByte f (r.1 + r.2 - 1) + elemLen f - elemByte f r.1)
  (runBlocks f (allRuns o.d)).filterMap fun b =>
    let inside := fun (x : Nat × Nat) => Nat.min (512 * b + 512) (x.1 + x.2) - Nat.max (512 * b) x.1
    if (runs.map inside).sum < blockFill f then some (o.addr / 512 + b) else none

/-- COPY: row by row in ascending element order; a partly covered block of the destination is read and verified first. -/
def xfCopy (i : Issue) (e : Eng) : Except EngErr Eng := do
  let a ← operandReq i 0
  let c ← operandReq i 2
  checkCrc e a.space (opndBlocks { a with d := { a.d with scaled := false } } (allRuns a.d))
  checkCrc e c.space (partlyCovered c)
  .ok (putCodes e c ((dOrder c.d).map fun x => (x.2.1, getCode e a (if dRow a.d then dSt a.d x.1 else x.2.1))))

/-- FILL: the 32-bit pattern repeatedly over C, from C's first byte on; a block that C ends in is read and verified first. -/
def xfFill (i : Issue) (e : Eng) : Except EngErr Eng := do
  let c ← operandReq i 2
  let n := dExtent c.d
  checkCrc e c.space ((blocksOf c.addr n).filter fun b => !within (512 * b) 512 c.addr n)
  .ok (engWrite e c.space c.addr ((List.range n).map fun j => BitVec.ofNat 8 (pw i.cmd 4 >>> (8 * (j % 4)))))

/-- The computation of a transfer or queue-control opcode (R257, R260). -/
def xfBody (i : Issue) (e : Eng) : Except EngErr Eng :=
  match i.cmd.opcode with
  | 0x08 => xfCopy i e
  | 0x09 => xfFill i e
  | _ => .ok e

/-- The computation of any opcode. -/
def opBody (i : Issue) (e : Eng) : Except EngErr Eng :=
  if i.cmd.opcode < 0x10 then xfBody i e else if i.cmd.opcode < 0x20 then meBody i e else vtBody i e

end Sys2Proof.Machine
end

