-- ==== Sys2Proof/Machine/Flags.lean ====
section
/-! DEFINITION. Sticky flags, fields of registers, saturating counters and the elements of register arrays (R11, R12, R29). -/

namespace Sys2Proof.Machine

/-- Sets the bits of a mask in a status register. -/
def orW (w : Word) (mask : Nat) : Word := w ||| BitVec.ofNat 32 mask

/-- Field [l + n − 1 : l] of a word. -/
def fieldW (w : Word) (l n : Nat) : Nat := bits w.toNat l n

/-- Adds one to a 32-bit counter that saturates. -/
def incW (w : Word) : Word := satInc w 1

/-- A 48-bit value of LO and HI words (R27). -/
def join48 (lo hi : Word) : Nat := lo.toNat + (hi.toNat % 65536) * 2 ^ 32

/-- An element of a Vector by a number, if it has one. -/
def vGet? {α : Type} {n : Nat} (v : Vector α n) (i : Nat) : Option α := v[i]?

/-- Updates the element of a Vector at a number, if it has one. -/
def vUpd {α : Type} {n : Nat} (v : Vector α n) (i : Nat) (f : α → α) : Vector α n := if h : i < n then v.set i (f v[i]) else v

end Sys2Proof.Machine
end

