-- ==== Sys2Proof/Machine/State.lean ====
section
/-! DEFINITION. The state of the D8: every register, store, queue, counter and pin that the manual gives it, as plain
data, with the queue of commands that wait; Fault and Refusal; State.reset. Beat and Landing numbers, C and T are natural
numbers that the operations keep below 2^48 and 2^64. -/

namespace Sys2Proof.Machine

/-- Reasons for a fault: there are none. The manual has no condition that stops the D8: a failed check, a reset and a hold
are states of it. Safe: a model with fewer stops shows more of the hardware. -/
inductive Fault where
  deriving DecidableEq, Repr

/-- Reasons for a refusal. -/
inductive Refusal where
  /-- Raised by an arm of exec whose command has no meaning yet. Safe: the machine stops. -/
  | notModelled (mnemonic : String)
  deriving DecidableEq, Repr

/-! ### Records -/

/-- An event record (R551), its fields. -/
structure EventRec where
  seq      : Nat
  code     : Nat
  severity : Nat
  unit     : Nat := 0xFF
  beat     : Nat := 0
  again    : Nat := 0
  time     : Nat := 0
  timeLast : Nat := 0
  phys     : Nat := 0xFF
  lwing    : Nat := 0xFF
  op       : Nat := 0
  temp     : Int := 0
  mv       : Nat := 0
  rail     : Nat := 0xFF
  flags    : Nat := 0
  arg      : List Byte := []
  deriving DecidableEq, Repr, Inhabited

/-- A pending alarm entry (R474). -/
structure AlarmEntry where
  code  : Nat
  phys  : Nat := 0xFF
  lwing : Nat := 0xFF
  count : Nat := 1
  first : Nat := 0
  last  : Nat := 0
  beat  : Nat := 0
  arg   : List Byte := []
  deriving DecidableEq, Repr, Inhabited

/-- A fault report (R445), its fields. -/
structure Report where
  seq      : Nat
  cause    : Nat
  outcome  : Nat
  phys     : Nat := 0xFF
  lwing    : Nat := 0xFF
  beat     : Nat := 0
  unit     : Nat := 0
  opcode   : Nat := 0
  time     : Nat := 0
  cmdIndex : Nat := 0xFFFFFFFF
  temp     : Int := 0
  sensor   : Nat := 0
  rail     : Nat := 0xFF
  mv       : Nat := 0
  gen      : Nat := 0
  delta    : Nat := 0
  first    : List Byte := []
  again    : List Byte := []
  addr     : Nat := 0
  /-- Bytes 112 to 123, which a supply-dip report uses for nothing else: duration and stretched cycles (R435). -/
  extra    : List Byte := []
  deriving DecidableEq, Repr, Inhabited

/-- A crash dump (R559): its header fields and what it captures of the state. -/
structure Dump where
  cause    : Nat
  time     : Nat
  beat     : Nat
  gens     : List Nat
  fw       : Nat
  escPhase : Nat
  landing  : Option Nat
  progress : List (List Nat)
  trace    : List (Nat × List Byte)
  deriving DecidableEq, Repr, Inhabited

/-- Retention memory (R558) with the record of resets (R563). -/
structure Retention where
  intLog     : List Report := []
  /-- Reports not written since the last clear. -/
  intLost    : Nat := 0
  /-- The last 512 event records, oldest first, and how many of the newest are not yet in the NVM log (R556). -/
  tail       : List EventRec := []
  tailNew    : Nat := 0
  /-- Number of the next event record (R551). -/
  recSeq     : Nat := 0
  dump       : Option Dump := none
  dumpMissed : Nat := 0
  gen        : Nat := 0
  resets     : List (Nat × Nat) := []
  memDefects : List Nat := []
  lastCause  : Nat := 0
  lastKind   : Nat := 0
  deriving DecidableEq, Repr, Inhabited

/-! ### Fuses, NVM, pins, power and security -/

/-- A key slot of the fuses (R513). Usage bits: 0 firmware, 1 image, 2 config, 3 host. -/
structure KeySlot where
  hash    : Digest := []
  alg     : Bool := false
  usage   : Nat := 0
  written : Bool := false
  revoked : Bool := false
  deriving DecidableEq, Repr, Inhabited

/-- The fuses (R6, R442, R495, R506, R513, R514, R520). -/
structure Fuses where
  /-- Mask of good Wings and grade: true I. -/
  goodWings  : Nat := 0xFF
  gradeI     : Bool := true
  defects    : List Nat := []
  repairUsed : Vector Nat 8 := Vector.replicate 8 0
  svn        : Nat := 0
  fwSvn      : Nat := 0
  keys       : Vector KeySlot 8 := Vector.replicate 8 {}
  secret     : List Byte := []
  deriving DecidableEq, Repr, Inhabited

/-- A firmware copy on the boot device (R495, R501). -/
structure Firmware where
  good    : Bool := true
  version : Nat := 1
  digest  : Digest := []
  deriving DecidableEq, Repr, Inhabited

/-- An image slot as the directory and the store hold it (R508). State: 0 empty, 1 partial, 2 verified, 3 active. -/
structure Slot where
  state : Nat := 0
  img   : Option Image := none
  /-- The chunks received into it: number and bytes (R526). -/
  data  : List (Nat × List Byte) := []
  deriving DecidableEq, Repr, Inhabited

/-- The boot device and the image store (R501, R508, R556, R558). -/
structure Nvm where
  fwA        : Firmware := {}
  fwB        : Firmware := {}
  /-- Configuration copies that verify: sequence number and content. -/
  cfgA       : Option (Nat × BootCfg) := some (0, { hosts := [1] })
  cfgB       : Option (Nat × BootCfg) := none
  dirValid   : Bool := true
  active     : Fin 2 := 0
  slots      : Vector Slot 2 := Vector.replicate 2 {}
  gen        : Nat := 0
  /-- Whether the NVM takes the write of the session generation (R483). -/
  genWriteOk : Bool := true
  log        : List EventRec := []
  mirror     : Option Retention := none
  cert       : List Byte := []
  deriving DecidableEq, Repr, Inhabited

/-- Pins that no other unit owns (R495, R500, R533, R589, R600). -/
structure Pins where
  /-- PORST_N and WARM_N are high. -/
  porst    : Bool := false
  warm     : Bool := true
  xspiMode : Fin 4 := 0
  /-- SYS_THERM_N is driven low. -/
  thermLow : Bool := false
  /-- ETHe_RST_N is driven high. -/
  ethRst   : Vector Bool 2 := Vector.replicate 2 false
  deriving DecidableEq, Repr, Inhabited

/-- Power states and reset domains (R536, R545-R549, R564). -/
structure Power where
  state    : Nat := 0
  reason   : Nat := 0
  req      : Nat := 0
  tgtLo    : Word := 0
  tgtHi    : Word := 0
  genDie   : Nat := 0
  genEth   : Vector Nat 2 := Vector.replicate 2 0
  genPipe  : Vector Nat 8 := Vector.replicate 8 0
  stale    : Word := 0
  prog     : Word := 0
  /-- Target Landing of an accepted Idle request. -/
  idleAt   : Option Nat := none
  /-- A compute-die reset is in progress, from this C on. -/
  dieSince : Option Nat := none
  /-- The device is held in reset: PORST_N low, a rail out of range, or a thermal trip. -/
  held     : Bool := true
  /-- A device reset waits for the thermal trip to end (R600). -/
  hot      : Bool := false
  /-- Ethernet ports in reset. -/
  ethReset : Vector Bool 2 := Vector.replicate 2 false
  deriving DecidableEq, Repr, Inhabited

/-- A secure session (R522, R523): the least req_id that it accepts next, and the C of its last request. -/
structure Session where
  id      : Nat
  key     : List Byte
  nextReq : Nat
  lastC   : Nat
  deriving DecidableEq, Repr, Inhabited

/-- An OPEN that waits for its FINISH (R522). -/
structure Opening where
  id     : Nat
  alg    : Bool
  pk     : List Byte
  hostNonce : List Byte
  nonce  : List Byte
  draw   : Nat
  atC    : Nat
  deriving DecidableEq, Repr, Inhabited

/-- An offered image in staging (R526). -/
structure Offer where
  nChunk : Nat
  len    : Nat
  digest : Digest
  deriving DecidableEq, Repr, Inhabited

/-- Security, start and activation (R495-R532, R583). -/
structure Security where
  phase     : Nat := 0
  reason    : Nat := 0
  sect  : Nat := 0xFF
  index     : Nat := 0xFF
  /-- Byte offset of the failing item (R499, R581) and program digest of the active slot as computed. -/
  offset    : Nat := 0
  prog      : Digest := []
  bootHalt  : Bool := false
  imgSvn    : Nat := 0
  mapLocked : Bool := false
  viol      : Bool := false
  violCnt   : Word := 0
  map       : Option SecMap := none
  regLock   : Nat := 0
  /-- The xfer_id field, and the one with which staging was armed. -/
  xferId    : Half := 0
  armedId   : Half := 0
  stage     : Nat := 0
  stageReason : Nat := 0
  chgOk     : Bool := false
  recv      : List Nat := []
  offer     : Option Offer := none
  /-- C of the last chunk (R527), and of the last IMG_PASS_END that waits for its IMG_NACK. -/
  chunkC    : Nat := 0
  passEnd   : Option Nat := none
  actMode   : Nat := 0
  actTgtLo  : Word := 0
  actTgtHi  : Word := 0
  actState  : Nat := 0
  /-- Target Landing of an accepted changeover. -/
  actAt     : Nat := 0
  actReason : Nat := 0
  /-- Landing of a changeover that is in force and not yet released. -/
  actDone   : Option Nat := none
  preloaded : Bool := false
  mboxOp    : Nat := 0
  mboxStatus : Nat := 0
  mboxIdx   : Nat := 0
  mboxBuf   : Memory := []
  mboxLen   : Nat := 0
  sessions  : List Session := []
  openings  : List Opening := []
  nextId    : Nat := 1
  deriving DecidableEq, Repr, Inhabited

/-- Progress of the start phases (R495, R503-R506, R516). -/
structure Start where
  /-- C at the start of phase 1. -/
  gateC     : Nat := 0
  ucieDram  : Bool := false
  /-- The phases run after a compute-die reset (R536). -/
  dieOnly   : Bool := false
  /-- A broadcast pass counter and receivers that still miss chunks. -/
  pass      : Nat := 0
  missing   : List (PWing × List Nat) := []
  /-- Wings marked out by a broadcast until the next device reset (R516). -/
  dropped   : List PWing := []
  /-- Vestibule hold entered from service: outputs keep their status functions (R399). -/
  heldFromService : Bool := false
  /-- C at which PoCXP enables were driven low on entry to hold (R319). -/
  pocxpLow  : Option Nat := none
  /-- C of entry to hold or of the last notice. -/
  noticeC   : Nat := 0
  deriving DecidableEq, Repr, Inhabited

/-! ### The Escapement, sealing, and the Wings -/

/-- What the Escapement does (R32). -/
inductive EscPhase where
  /-- No Beats are issued. -/
  | off
  /-- An edge was issued: it waits for every logical Wing to drain, or for the grace. -/
  | drain
  /-- The Landing is complete: the guard runs. -/
  | guard
  /-- The Beat's work runs. -/
  | run
  deriving DecidableEq, Repr, Inhabited

/-- The Escapement (R17-R35). -/
structure Escapement where
  /-- Beats issued since Beat 0: the Beat number is its low 48 bits (R14, R23, log entry 80). -/
  beat    : Nat := 0
  status  : Word := 0
  cfg     : Word := 0x07D00008
  nb      : Word := 0
  pMin    : Word := 0
  pMax    : Word := 0
  uaCnt   : Vector Word 12 := Vector.replicate 12 0
  phase   : EscPhase := .off
  edgeC   : Nat := 0
  edgeT   : Nat := 0
  edgeCount : Word := 0
  /-- Count target c_b + N_b of the next edge. -/
  target  : Word := 0
  /-- The governing count has reached the target since the edge, whatever it did afterwards (R20, R21). -/
  reached : Bool := false
  landingC : Nat := 0
  /-- Logical Wings whose work was abandoned since the last Landing, whose check values the next Landing records. -/
  abandoned : List LWing := []
  /-- No Beat has been issued since start. -/
  fresh   : Bool := true
  deriving DecidableEq, Repr, Inhabited

/-- An object record (R358). -/
structure ObjRec where
  id     : Nat
  lead   : Word := 0
  trail  : Word := 0
  left   : Int := 0
  right  : Int := 0
  stream : Nat := 0
  lwing  : Nat := 0
  flags  : Nat := 0
  openPart : Bool := false
  views  : Nat := 0
  slot   : Nat := 0xFFFFFFFF
  deriving DecidableEq, Repr, Inhabited

/-- An open component of the tracker table (R354): its pixels on the last line and its range so far. -/
structure Comp where
  id     : Nat
  stream : Nat
  camera : Nat
  lead   : Word
  last   : Word
  /-- Common columns, and columns of the stream. -/
  left   : Int
  right  : Int
  gl     : Nat := 0
  gr     : Nat := 0
  lines  : Nat := 1
  runs   : List (Nat × Nat) := []
  flags  : Nat := 0
  /-- UNASSESSED reasons gathered so far. -/
  reasons : List Nat := []
  deriving DecidableEq, Repr, Inhabited

/-- A view of an object: its camera and stream, its leading and trailing edge, and its columns in the stream (R351). -/
structure View where
  cam    : Nat
  stream : Nat
  lead   : Word
  trail  : Word
  gl     : Nat
  gr     : Nat
  deriving DecidableEq, Repr, Inhabited

/-- An object that has closed, with its posted reasons and its columns in the stream (R351, R352, R359, R360). -/
structure Closed where
  obj     : ObjRec
  reasons : List Nat := []
  gl      : Nat := 0
  gr      : Nat := 0
  /-- Views of the partners of a fusion group, none where a view is missing. -/
  views   : List (Option View) := []
  deriving DecidableEq, Repr, Inhabited

/-- The Object Assembler's Carried state of a logical Wing (R353-R356, R360). -/
structure Asm where
  comps   : List Comp := []
  /-- Open photo-eye objects and standing lane sequences. -/
  eyes    : List Comp := []
  lanes   : List Comp := []
  nextId  : Nat := 0
  /-- Master objects that wait for their decision, and partner objects that no master has claimed yet (R351, R352). -/
  masters : List Closed := []
  partners : List Closed := []
  deriving DecidableEq, Repr, Inhabited

/-- A failed check that waits for its repeat (R419). -/
structure Failing where
  queue : Nat
  be    : Bool
  index : Nat
  cmd   : Cmd
  atT   : Nat
  fail  : CheckFail
  /-- The check summary of the first execution (R169, R250). -/
  summary : List Byte
  /-- The repeat did not help: nothing of the queue issues any more (R417). -/
  halted  : Bool := false
  deriving DecidableEq, Repr

/-- What a run of the Assembler flags: bits of ISP_STATUS, the cameras of corrupt samples, ignored edges of input channels, and the free entries of
the batch queue (R356, R360, R361). -/
structure AsmNote where
  flags   : Nat := 0
  corrupt : List Nat := []
  ignored : List (Nat × Nat) := []
  free    : Option Nat := none
  /-- Byte addresses of ring blocks whose CRC-32C failed (R361, R417). -/
  defects : List Nat := []
  deriving DecidableEq, Repr, Inhabited

/-- What the engines of a Beat's work have flagged so far: bits of WNG_VT_STATUS and MEM_KV_STATUS, rows with the NaN verdict, refusals
and truncations, alarms, and the runs of the Assembler (R209, R212, R251, R252, R360). -/
structure Tally where
  vtFlags : Nat := 0
  nanRows : Nat := 0
  kvFlags : Nat := 0
  refused : Nat := 0
  alarms  : List (Nat × Nat) := []
  asm     : List AsmNote := []
  deriving DecidableEq, Repr, Inhabited

/-- The work of one Beat on a physical Wing, in its sequencer (R71, R254, R267, R273). -/
structure Work where
  /-- The Beat whose work runs. -/
  beat    : Nat
  lw      : LWing
  table   : Nat := 0
  /-- Handover shadow (R79): results go to the private scratch area. -/
  shadow  : Bool := false
  /-- C at the first issue. -/
  firstC  : Nat := 0
  /-- Commands left in the nine queues with their command indices. -/
  lc      : Vector (List (Nat × Cmd)) 9 := Vector.replicate 9 []
  /-- Commands left of the best-effort step in flight. -/
  be      : Vector (List (Nat × Cmd)) 9 := Vector.replicate 9 []
  beJob   : Option Nat := none
  /-- Commands completed by each queue (R71, R540). -/
  prog    : Vector Nat 9 := Vector.replicate 9 0
  tok     : Vector Nat 64 := Vector.replicate 64 0
  /-- Cycles that repeats have taken (R271). -/
  delta   : Nat := 0
  repeated : Bool := false
  /-- Failed checks that wait for their repeats, at most one on a queue. -/
  failing : List Failing := []
  bank    : Option Bank := none
  kv      : Kv := {}
  asm     : Asm := {}
  /-- Runs of the Assembler in the Beat, the objects closed and opened so far, and the object table that it wrote. -/
  asmRuns : Nat := 0
  closed  : List Closed := []
  opened  : List Comp := []
  objs    : List ObjRec := []
  /-- Posted (object ID, reason) pairs of this Wing and Beat (R185, R187, R359). -/
  unassessed : List (Nat × Nat) := []
  /-- Carried regions whose version of the Beat has been written, and those written by the best-effort step in flight. -/
  written : List Nat := []
  beWritten : List Nat := []
  /-- Bytes written to the private scratch area of a handover, newest first. -/
  scratch : List Host.Cell := []
  tally   : Tally := {}
  /-- The Beat's work began with the loads of R424, so checkpoints move by T_load (R540). -/
  loaded  : Bool := false
  /-- A second table to run after this one in the same Beat (R427). -/
  catchUp : Bool := false
  drained : Bool := false
  deriving DecidableEq, Repr

/-- A test of a Wing (R438, R428, R441): where it stands. -/
structure Bist where
  step   : Nat
  /-- Last step to run: 6 in role 3, otherwise 5. -/
  until' : Nat
  /-- The diagnostic test of a fenced Wing. -/
  diag   : Bool := false
  /-- It stops after its current step (R443). -/
  abort  : Bool := false
  repaired : Bool := false
  deriving DecidableEq, Repr, Inhabited

/-- A physical Wing (R66, R76, R86, R214, R421, R422, R438, R456, R542). -/
structure Phys where
  /-- Role of R76. -/
  role      : Nat := 2
  /-- Logical index while the role is 0, 1 or 4. -/
  logical   : LWing := 0
  gen       : Nat := 0
  transient : Nat := 0
  /-- Beats of the transient faults within the last 4,096 Beats (R421). -/
  recent    : List Nat := []
  gallery   : Memory := []
  tiles     : Vector Memory 6 := Vector.replicate 6 []
  /-- The check arrays of the slice and of the tile stores (R69, R214): the blocks whose stored CRC-32C is not that of their data. -/
  galBad    : List Nat := []
  tileBad   : Vector (List Nat) 6 := Vector.replicate 6 []
  /-- Blocks of each tile store written since the last Landing (R215). -/
  tileWritten : Vector (List Nat) 6 := Vector.replicate 6 []
  work      : Option Work := none
  /-- Check summaries on the Annex, oldest first (R169, R250). -/
  checkLog  : List (List Byte) := []
  /-- C at which a soft reset started, and whether the clamps are closing (R542). -/
  softReset : Option Nat := none
  clamping  : Bool := false
  gated     : Bool := false
  /-- Role to take at the next Landing (R428, R438). -/
  nextRole  : Option Nat := none
  bist      : Option Bist := none
  bistResult : Nat := 0
  rowsUsed  : Nat := 0
  colsUsed  : Nat := 0
  repairs   : Nat := 0
  fences    : Nat := 0
  /-- Cause of the fault that fenced it, for the report of R428. -/
  faultCause : Nat := 0
  /-- Landing of the last pass of R438, and whether it was tested since start (R437). -/
  lastPass  : Nat := 0
  tested    : Bool := false
  /-- Edges in a row at which it was not drained (R539). -/
  missed    : Nat := 0
  deriving DecidableEq, Repr

/-- A substitution that waits (R423): when it was confirmed, and the oldest work Beat to run. -/
structure Pending where
  time : Nat
  beat : Nat
  /-- The work Beat that was in progress at the fault: its records carry replayed (R424). -/
  inProgress : Nat
  /-- The tracker as that work left it, for a logical Wing that is lost after all (R78). -/
  asm  : Asm := {}
  /-- What that work had flagged, for a handover whose other Wing is used instead (R79). -/
  tally : Tally := {}
  deriving DecidableEq, Repr, Inhabited

/-- A logical Wing (R73, R78, R84, R176, R450). -/
structure LogWing where
  lost    : Bool := false
  lostFrom : Nat := 0
  late    : Nat := 0
  pending : Option Pending := none
  /-- Objects that work cut off by a fault had already closed, with its Beat: they are sealed if no replay completes (R47, R78). -/
  cutObjs : List (Nat × ObjRec) := []
  asm     : Asm := {}
  /-- Beats to seal with replayed set (R424). -/
  replayed : List Nat := []
  /-- The oldest work Beat that is not checked and complete. -/
  nextWork : Nat := 0
  /-- Objects that are sealed with a reason in whichever Beat they finish (R35, R417, R424): object and reason. -/
  doomed  : List (Nat × Nat) := []
  /-- The same reason falls on the objects of the first line that the Assembler takes next (R35). -/
  doomNext : Option Nat := none
  /-- A Carried reset waits for the next Landing (R417). -/
  carriedReset : Bool := false
  /-- The next work begins with the loads of R424. -/
  loads   : Bool := false
  deriving DecidableEq, Repr, Inhabited

/-- What the holding store keeps for one logical Wing and work Beat (R242). -/
structure Held where
  lw      : Nat
  beat    : Nat
  /-- Verdict word and score of each slot, none where it was not written. -/
  results : List (Option (Nat × Nat)) := []
  /-- Review entries (object ID, verdict, score). -/
  reviews : List (Nat × Nat × Nat) := []
  objs    : List ObjRec := []
  unassessed : List (Nat × Nat) := []
  replayed : Bool := false
  /-- V_k of the plan of the Beat's work (R48, R49). -/
  v       : Nat := 0
  /-- The reason that R35 gives every object, if the work was abandoned. -/
  reason  : Option Nat := none
  deriving DecidableEq, Repr, Inhabited

/-- A part in the part store with its verdict (R357). -/
structure Part where
  obj     : ObjRec
  code    : Nat
  detail  : Nat
  score   : Nat
  beat    : Nat
  replayed : Bool := false
  /-- Beyond the first V_k of its Wing and Beat (R49). -/
  excess  : Bool := false
  deriving DecidableEq, Repr, Inhabited

/-- An object that took a review slot (R58): the part, its slot, its review verdict once the review's work Beat is sealed (code,
detail, score, replayed), and the DEFER record that it supersedes with its Beat. -/
structure Review where
  lw      : Nat
  beat    : Nat
  slot    : Nat
  obj     : ObjRec
  /-- D_r of the plan whose work found it (R57). -/
  dR      : Nat := 1
  verdict : Option (Nat × Nat × Nat × Bool) := none
  sealed  : Option (ObjRec × Nat) := none
  deriving DecidableEq, Repr, Inhabited

/-- A sealed record (R472) before it is laid out as bytes. -/
structure VRec where
  id      : Nat
  verdict : Nat
  score   : Nat := 0
  lead    : Nat := 0
  trail   : Nat := 0
  left    : Nat := 0
  right   : Nat := 0
  stream  : Nat := 0
  oflags  : Nat := 0
  beat    : Nat
  lwing   : Nat := 0
  sflags  : Nat := 0
  prog    : List Byte := []
  wgt     : List Byte := []
  input   : List Byte := []
  deriving DecidableEq, Repr, Inhabited

/-- The sealing unit (R43-R61, R242, R281-R283, R357). -/
structure Sealer where
  held    : List Held := []
  parts   : List Part := []
  reviews : List Review := []
  /-- The last sealed Beat, and the records sealed at the last Landing with its number. -/
  sealed  : Option Nat := none
  posting : List VRec := []
  landing : Nat := 0
  /-- Line records of the interval for each camera, and its hash chain (R281). -/
  lines   : Vector (List (List Byte)) 16 := Vector.replicate 16 []
  chain   : Vector Digest 16 := Vector.replicate 16 (List.replicate 32 0)
  /-- Line-data records of the interval in order of arrival, and the auxiliary chain. -/
  msgs    : List (List Byte) := []
  aux     : Digest := List.replicate 32 0
  /-- Input digests of the last intervals (R282). -/
  inputs  : List (Nat × List Byte) := []
  /-- Program and weights digests in force from a Beat on, newest first (R283, R287, R531). -/
  digests : List (Nat × Digest × Digest) := []
  deriving DecidableEq, Repr, Inhabited

/-- A Carried-region version that the D8 keeps (R37), with its check value (R39). -/
structure Carried where
  region  : Nat
  /-- The version, offset by one: 0 is version -1. -/
  version : Nat := 0
  check   : Word := 0
  verified : Bool := false
  deriving DecidableEq, Repr, Inhabited

/-- Adapter promotion (R285-R291). -/
structure Adapter where
  tgtLo   : Word := 0
  tgtHi   : Word := 0
  dig     : Vector Word 8 := Vector.replicate 8 0
  cand    : Vector Word 8 := Vector.replicate 8 0
  /-- The candidate set and its weights digest. -/
  set     : Option (List Byte) := none
  wgt     : Digest := []
  submit  : Bool := false
  /-- Target Landing of an accepted request. -/
  target  : Nat := 0
  state   : Nat := 0
  bank    : Nat := 0
  reason  : Nat := 0
  done    : Nat := 0
  /-- A promotion is in force (R287, R521): none since start or since a changeover otherwise. -/
  promoted : Bool := false
  staged  : Bool := false
  /-- Digests of the candidate being staged. -/
  stagedWgt : Digest := []
  stagedSet : List Byte := []
  /-- The set of the promotion in force, whose banks are listed with the weight copies (R430). -/
  promSet : List Byte := []
  /-- Completed steps of training jobs since the last candidate. -/
  steps   : Nat := 0
  deriving DecidableEq, Repr, Inhabited

/-- A handover in progress (R79): logical Wing, active Wing, spare, and the Landing at which it started. -/
structure Handover where
  k : LWing
  p : PWing
  q : PWing
  n : Nat
  deriving DecidableEq, Repr, Inhabited

/-- A best-effort job on a logical Wing (R273, R274). -/
structure JobRec where
  job     : Nat
  lw      : Nat
  steps   : Nat := 0
  discards : Nat := 0
  suspended : Bool := false
  deriving DecidableEq, Repr, Inhabited

/-- The WNG_ block (R81-R85, R251, R252, R277, R289-R293) with the rotation (R437). -/
structure WingRegs where
  cfg     : Word := 0
  map     : Word := 0xFFFFFFFF
  mapBeat : Nat := 0
  status  : Word := 0
  vtStatus : Vector Word 8 := Vector.replicate 8 0
  vtNanv  : Vector Word 8 := Vector.replicate 8 0
  beStatus : Word := 0
  beSteps : Word := 0
  beDisc  : Word := 0
  seeds   : Vector Dword 256 := Vector.replicate 256 0
  adpt    : Adapter := {}
  handover : Option Handover := none
  lastHandover : Nat := 0
  /-- Wings with test priority (R421, R441). -/
  priority : List PWing := []
  jobs    : List JobRec := []
  /-- The job that each logical Wing ran last. -/
  lastJob : Vector (Option Nat) 8 := Vector.replicate 8 none
  deriving DecidableEq, Repr

/-! ### Memory, integrity and tests -/

/-- The MEM_ block and the DRAM (R69, R208-R213, R578, R579). -/
structure Mem where
  dram    : Memory := []
  /-- DRAM blocks whose CRC-32C does not match. -/
  bad     : List Nat := []
  dramCfg : Word := 0
  remap   : Word := 0
  chCorr  : Vector Word 32 := Vector.replicate 32 0
  kvPool  : Word := 0
  kvStatus : Word := 0
  kvReady : Vector Nat 8 := Vector.replicate 8 0
  kvMin   : Vector Nat 8 := Vector.replicate 8 0x1FFFFFF
  kvRefused : Vector Word 8 := Vector.replicate 8 0
  kvActive : Vector Nat 8 := Vector.replicate 8 0
  /-- The versions of the Carried regions that the D8 keeps, newest first (R37, R39). -/
  carried : List Carried := []
  deriving DecidableEq, Repr

/-- The INT_ block (R448-R453), report numbers (R445), unit faults (R416) and weight-copy rounds (R431). -/
structure Integrity where
  status  : Word := 0
  transient : Word := 0
  persist : Word := 0
  unit    : Word := 0
  memFault : Word := 0
  eccCorr : Word := 0
  eccUncorr : Word := 0
  copyMm  : Word := 0
  droopCnt : Word := 0
  scrubLate : Word := 0
  suspFrom : Nat := 0
  suspTo  : Nat := 0
  suspWing : Word := 0
  droopMin : Nat := 0xFFFF
  droopLast : Word := 0
  logIdx  : Nat := 0
  reportSeq : Nat := 0
  /-- Of each unit that had a fault: the unit, the last Beat and the Beats in a row of its faults. -/
  unitRuns : List (Nat × Nat × Nat) := []
  /-- Landing at which the round in progress began, and the last passing round of each (Wing, segment). -/
  round   : Option Nat := none
  passed  : List (PWing × Nat × Nat) := []
  /-- Segments still to reload, of each Wing. -/
  reloads : List (PWing × Nat) := []
  /-- Known suspect ranges: logical Wing, first and last Beat. -/
  suspects : List (Nat × Nat × Nat) := []
  deriving DecidableEq, Repr, Inhabited

/-- The TST_ block (R454-R456). -/
structure Test where
  bistWing : Nat := 0
  bistStart : Bool := false
  /-- The Wing of the request that start shows. -/
  bistFor  : Nat := 0
  fuseState : Nat := 0
  fuseReason : Nat := 0
  rotCfg  : Word := 0
  deriving DecidableEq, Repr, Inhabited

/-- Supply monitors and the VDD_W setpoint (R434, R435, R592, R593). -/
structure Supply where
  /-- Rails below their warning level, with the C of the warning. -/
  low     : List (Rail × Nat) := []
  /-- Rails below the reset level. -/
  down    : List Rail := []
  setpoint : Nat := 750
  /-- A setpoint change in progress: the old setpoint and the C of the command. -/
  change  : Option (Nat × Nat) := none
  /-- Three tries failed: no further change. -/
  stopped : Bool := false
  deriving DecidableEq, Repr, Inhabited

/-- Temperature (R600), in units of 0.125 degrees. -/
structure Therm where
  tj   : Int := 400
  deriving DecidableEq, Repr, Inhabited

/-- The event recorder and Crown (R551-R563). -/
structure Recorder where
  mode    : Bool := false
  rate    : Nat := 0x10
  burst   : Nat := 0x08
  lost    : Bool := false
  badRecord : Bool := false
  lostCnt : Word := 0
  supp    : Word := 0
  live    : List EventRec := []
  idx     : Nat := 0
  bad     : Bool := false
  crownWrite : Bool := true
  crownReset : Bool := true
  /-- Token buckets: key, tokens left, C of the last refill, records suppressed since the last written one. -/
  buckets : List ((Nat × Nat) × Nat × Nat × Nat) := []
  /-- Alarm 0x0103 was raised for this fill of the live and of the NVM log. -/
  fullAlarm : Bool := false
  nvmAlarm : Bool := false
  baud    : Nat := 115200
  /-- Crown answers written, newest last (log entry 9). -/
  crownOut : List (List Byte) := []
  /-- The last 1,024 trace entries. -/
  trace   : List (Nat × List Byte) := []
  deriving DecidableEq, Repr, Inhabited

/-! ### Cameras and the image pipeline -/

/-- Where a link attempt stands (R303-R306). -/
inductive Stage where
  | idle
  /-- pwr_delay after the enable. -/
  | power
  /-- Waiting for lane lock, at CXP-1 or at the target speed. -/
  | lock (target : Bool)
  /-- Reading Revision, DeviceConnectionID of lane j, writing ConnectionConfig, or set-up step j. -/
  | revision
  | connId (j : Nat)
  | connCfg
  | setup (j : Nat)
  | wait (j : Nat)
  | check
  deriving DecidableEq, Repr, Inhabited

/-- A control command to a camera (R295, R303, R305). The manual names the bootstrap registers and gives no addresses of them (log entry 105). -/
inductive CtlOp where
  | readRevision
  | readConnId
  | writeConnConfig (speed lanes : Nat)
  /-- A set-up register of 4 or, if wide, 8 bytes. -/
  | readReg (addr : Nat) (wide : Bool)
  | writeReg (addr value : Nat) (wide : Bool)
  deriving DecidableEq, Repr, Inhabited

/-- A control packet sent (R295, R306): the port, the lane that it concerns, whether it has the tagged form, and its command. -/
structure CtlPacket where
  port   : Nat
  lane   : Nat
  tagged : Bool
  op     : CtlOp
  deriving DecidableEq, Repr, Inhabited

/-- A line being received (R307): tag, Beat of its first packet, whether it holds a FIFO entry. -/
structure LineIn where
  tag    : Word
  stored : Bool
  /-- Cut as a line beyond H_f. -/
  cut    : Bool := false
  deriving DecidableEq, Repr, Inhabited

/-- A camera port (R299-R324). -/
structure CamPort where
  cfg      : Word := 0x40000
  state    : Nat := 0
  cause    : Nat := 0
  step     : Nat := 0
  gen      : Nat := 0
  attempts : Nat := 0
  fmt      : Word := 0
  crc      : Word := 0
  corrupt  : Word := 0
  loss     : Word := 0
  ign      : Word := 0
  lines    : Nat := 0
  stage    : Stage := .idle
  sends    : Nat := 0
  /-- Command waiting under a wait acknowledgement, until this C. -/
  waiting  : Option Nat := none
  connIds  : List Nat := []
  /-- Revision of the camera as read, the downlink speed of the lanes as CXP-n (0: none), and the uplink at 41.6 Mbit/s (R294, R303). -/
  rev      : Nat := 0
  speed    : Nat := 0
  fast     : Bool := false
  /-- Lines are accepted (R317). -/
  accepting : Bool := false
  relinkReq : Bool := false
  stopReq  : Bool := false
  /-- Pin POCXPp_EN: not driven, low or high. -/
  enable   : Option Bool := none
  /-- The next attempt follows a power cycle, and the C at which the present stage or hold-off began. -/
  cycling  : Bool := false
  holdC    : Nat := 0
  lastHb   : Nat := 0
  fault    : Bool := false
  line     : Option LineIn := none
  /-- The header of the image in progress mismatched (R308). -/
  badHdr   : Bool := false
  /-- The port has not been up since the device reset, and its attempt, if one runs, began at start (R304). -/
  first    : Bool := true
  deriving DecidableEq, Repr, Inhabited

/-- A camera lane (R297-R299, R325). -/
structure LaneSt where
  peak    : Nat := 0
  rx      : Nat := 0
  tx      : Bool := false
  open'   : Nat := 0
  changes : Nat := 0
  locked  : Bool := false
  err     : Word := 0
  /-- The better neighbour that waits for an idle interval. -/
  next    : Option Nat := none
  deriving DecidableEq, Repr, Inhabited

/-- Cameras, lanes and lock groups (R294-R327). -/
structure Cam where
  port   : Vector CamPort 16 := Vector.replicate 16 {}
  lane   : Vector LaneSt 32 := Vector.replicate 32 {}
  skip   : Vector Word 8 := Vector.replicate 8 0
  /-- Count target of the encoder source and the C at which the count first reached it, the C of the last event of a period or Beat source, and
  the C of the last trigger of each group (R311-R313). -/
  trigTarget : Vector Word 8 := Vector.replicate 8 0
  trigReached : Vector (Option Nat) 8 := Vector.replicate 8 none
  trigAt : Vector (Option Nat) 8 := Vector.replicate 8 none
  lastTrig : Vector (Option Nat) 8 := Vector.replicate 8 none
  /-- Trigger packets sent: group, C of the effective trigger, members (log entry 9). -/
  sent   : List (Nat × Nat × List Nat) := []
  /-- Control packets sent, newest last (log entry 9). -/
  ctrl   : List CtlPacket := []
  status : Word := 0
  deriving DecidableEq, Repr

/-- An entry of a pipe FIFO or of a camera's line order (R330-R334). -/
structure FifoLine where
  tag    : Word
  flags  : Nat := 0
  /-- Capture interval to which the line belongs, and its row within the frame. -/
  ivl    : Nat
  row    : Nat := 0
  /-- Samples after unpacking; none for a fill line. -/
  data   : Option (List Nat)
  eligible : Bool := true
  /-- C at which it became eligible. -/
  since  : Nat := 0
  /-- The line holds one of the four FIFO entries. -/
  entry  : Bool := true
  /-- It lies beyond the line capacity of its interval (R42). -/
  cut    : Bool := false
  deriving DecidableEq, Repr, Inhabited

/-- A line between the stages of a pipe. -/
structure StageLine where
  row   : Nat
  /-- Lines of the camera before it since acceptance (R340). -/
  idx   : Nat := 0
  ivl   : Nat
  tag   : Word
  flags : Nat
  data  : List Nat
  deriving DecidableEq, Repr, Inhabited

/-- An output line of a camera as its ring holds it, less its samples (R334, R341). -/
structure RingLine where
  stream : Nat
  ivl   : Nat
  tag   : Word
  flags : Nat
  /-- Position in the interval buffer. -/
  index : Nat
  /-- It is, or covers, a restart line (R603). -/
  restart : Bool := false
  deriving DecidableEq, Repr, Inhabited

/-- The pipeline state of a camera (R330-R349, R366-R368). -/
structure IspCam where
  cfg      : Word := 0
  gainSt   : Nat := 0
  mainSt   : Nat := 0
  applied  : Nat := 0
  drop     : Word := 0
  short    : Word := 0
  long     : Word := 0
  cut      : Word := 0
  calUpd   : Word := 0
  calSkip  : Word := 0
  corrupt  : Word := 0
  active   : IspTables := {}
  shadow   : IspTables := {}
  /-- Tables of lines that belong to intervals before the last switch, and the interval from which the active ones act. -/
  former   : IspTables := {}
  switchAt : Nat := 0
  /-- Landing at which a group was armed, and i_n once the first line of that interval is known (R344). -/
  armGain  : Option Nat := none
  armMain  : Option Nat := none
  idxGain  : Option Nat := none
  idxMain  : Option Nat := none
  fifo     : List FifoLine := []
  /-- Lines of the frame so far, and whether a frame is open. -/
  frameLines : Nat := 0
  frameOpen : Bool := false
  longSeen : Bool := false
  lastTag  : Word := 0
  /-- Lines since acceptance. -/
  index    : Nat := 0
  /-- Interval of the last line that joined the camera's line order at the pipe input, and its lines so far (R42). -/
  ivl      : Nat := 0
  taken    : Nat := 0
  /-- Cut lines of intervals that are not reported yet: interval and number. -/
  cutLines : List (Nat × Nat) := []
  /-- Stage 3 output of recent lines, oldest first. -/
  rows     : List StageLine := []
  /-- Lines gathered for vertical binning, per stream. -/
  groups   : Vector (List StageLine) 4 := Vector.replicate 4 []
  /-- Interval and lines written so far of each stream's buffer; the fifth is the calibration tap. -/
  outs     : Vector (Nat × Nat) 5 := Vector.replicate 5 (0, 0)
  /-- Lines of the intervals still in the rings, oldest first. -/
  ring     : List RingLine := []
  /-- The next output line of a stream is its restart line. -/
  restart  : Vector Bool 4 := Vector.replicate 4 true
  /-- Last line delivered before a gap, and the gaps: last tag before, first tag after (R603). -/
  lastLine : Option Word := none
  gaps     : List (Word × Option Word) := []
  /-- Staged gain columns that enter the shadow copy: table index and gain (R349). -/
  staged   : List (Nat × Nat) := []
  deriving DecidableEq, Repr

/-- The ISP block (R328-R371). -/
structure Isp where
  cam      : Vector IspCam 16 := Vector.replicate 16 {}
  /-- Input whose line each pipe took when it finished the line before, and pipes in reset. -/
  busy     : Vector (Option Nat) 8 := Vector.replicate 8 none
  inReset  : Vector Bool 8 := Vector.replicate 8 false
  /-- C at which each pipe finished a line last, or left reset (R330). -/
  freeC    : Vector Nat 8 := Vector.replicate 8 0
  tblAddr  : Nat := 0
  status   : Word := 0
  oaFree   : Vector Nat 8 := Vector.replicate 8 0
  oaMin    : Vector Nat 8 := Vector.replicate 8 0xFFFFFF
  oaTrack  : Vector Nat 8 := Vector.replicate 8 0
  ldDrop   : Word := 0
  /-- Line-data area of each interval: interval, channel and IDs (R365). -/
  ldArea   : List (Nat × Nat × List Nat) := []
  deriving DecidableEq, Repr

/-! ### Encoders, industrial I/O and the calendar -/

/-- An encoder channel (R374-R384, R401-R403). -/
structure Enc where
  cfg    : EncCfg := {}
  count  : Word := 0
  fwd    : Bool := false
  fault  : Bool := false
  cause  : Nat := 0
  suspect : Bool := false
  warn   : Bool := false
  idx    : Word := 0
  idxSeen : Bool := false
  speed  : Word := 0
  err    : Word := 0
  faults : Word := 0
  rev    : Word := 0
  /-- Filtered A and B levels and Z. -/
  a      : Bool := false
  b      : Bool := false
  /-- Times of the recent illegal transitions (C). -/
  illegal : List Nat := []
  /-- Rejections in a row, good words or samples in a row during a fault. -/
  rejects : Nat := 0
  good   : Nat := 0
  /-- Last accepted word or position; none before the first and at the start of a fault. -/
  last   : Option Int := none
  /-- Last accepted before the fault, for the first step after the clear. -/
  before : Option Int := none
  /-- The next step follows a clear: no step limit. -/
  resume : Bool := false
  quad   : Nat := 0
  periods : Int := 0
  /-- Count at the last Beat edge, for the speed. -/
  atEdge : Word := 0
  /-- A position request is open since this C, and the C of the last one. -/
  request : Option Nat := none
  lastReq : Nat := 0
  deriving DecidableEq, Repr, Inhabited

/-- Industrial I/O (R385-R388, R405-R408). -/
structure Iio where
  cfg     : Vector IioCfg 64 := Vector.replicate 64 {}
  edge    : Vector Word 64 := Vector.replicate 64 0
  ign     : Vector Word 64 := Vector.replicate 64 0
  level   : Vector Bool 64 := Vector.replicate 64 false
  host    : Dword := 0
  status  : Word := 0
  lost    : Word := 0
  /-- Edge records in the FIFO: channel, rising, T, count. A Beat edge takes those of the interval that it closes. -/
  fifo    : List (Nat × Bool × Nat × Word) := []
  /-- Edge list of closed intervals that the plan reads, with the interval first. -/
  edges   : List (Nat × Nat × Bool × Nat × Word) := []
  /-- C at which the alarm function and the Beat pulse end. -/
  alarmEnd : Nat := 0
  pulseEnd : Nat := 0
  /-- The ready function (R388). -/
  ready   : Bool := false
  deriving DecidableEq, Repr

/-- State of an ejector channel (R396). -/
inductive EjState where
  | off | on | forced | holdoff
  deriving DecidableEq, Repr, Inhabited

/-- An ejector channel (R396): state, since when, pending pulse, limits in force. -/
structure EjChan where
  state   : EjState := .off
  since   : Nat := 0
  pulse   : Bool := false
  request : Bool := false
  onMin   : Nat := 0
  onMax   : Nat := 0
  offMin  : Nat := 0
  deriving DecidableEq, Repr, Inhabited

/-- A calendar entry (R393-R396). -/
structure EjEntry where
  object  : Nat
  valve   : Bool
  chans   : List (Fin 1024)
  fOpen   : Word
  fClose  : Word
  onMin   : Nat
  onMax   : Nat
  offMin  : Nat
  /-- C from which the entry acts (R62). -/
  armC    : Nat
  /-- The window is open, and the channels that have been On while it was. -/
  opened  : Bool := false
  was     : List (Fin 1024) := []
  deriving DecidableEq, Repr, Inhabited

/-- The ejector calendar and the valve links (R390-R411). -/
structure Ejc where
  cfg     : Word := 0
  entries : List EjEntry := []
  peak    : Nat := 0
  fired   : Nat := 0
  full    : Word := 0
  limit   : Word := 0
  outside : Word := 0
  status  : Word := 0
  direct  : Vector EjChan 64 := Vector.replicate 64 {}
  valve   : Vector EjChan 1024 := Vector.replicate 1024 {}
  /-- Number of the last frame, and the frames sent: frame number and the 36-byte content of each link (log entry 9). -/
  frame   : Nat := 0
  sent    : List (Nat × Nat × List Bool) := []
  deriving DecidableEq, Repr

/-! ### Network -/

/-- The Regulator (R463-R466, R492). -/
structure Regulator where
  ck      : Nat := 0
  o       : Int := 0
  a       : Int := 0
  state   : Nat := 0
  far     : Bool := false
  slave   : Nat := 0
  theta   : Int := 0
  /-- C of the last accepted Sync. -/
  syncC   : Nat := 0
  deriving DecidableEq, Repr, Inhabited

/-- A transmit time stamp (R467): identifier, message type, T, and the host to report to. -/
structure TxStamp where
  ident : Nat
  kind  : Nat
  time  : Nat
  host  : Option (Fin 8) := none
  deriving DecidableEq, Repr, Inhabited

/-- An Ethernet port (R458-R467, R489-R491, R503). -/
structure EthSt where
  cfg      : EthCfg := { enabled := false }
  link     : Bool := false
  rate     : Nat := 0
  ptp      : Nat := 0
  cause    : Nat := 0
  rxBad    : Word := 0
  txtsLost : Word := 0
  rxDup    : Word := 0
  stamps   : List TxStamp := []
  /-- OLP stamps lost, to be reported with status 1. -/
  lostTs   : List TxStamp := []
  /-- The check of R503 has passed; a failed check keeps the port down. -/
  checked  : Bool := false
  pcsDown  : Bool := false
  deriving DecidableEq, Repr, Inhabited

/-- A datagram handed to the ports (R468): type, class, flags, sequence number, T, destination, payload. -/
structure Datagram where
  typ     : Nat
  cls     : Nat
  flags   : Nat := 0
  gen     : Nat
  seq     : Nat
  time    : Nat
  /-- 0 every host, 1 + i host i, 16 + i peer i, 32 verdict destinations. -/
  dst     : Nat
  payload : List Byte
  /-- The 802.1CB sequence number of its frames, where they are replicated on the ports (R461). -/
  rtag    : Option Nat := none
  deriving DecidableEq, Repr, Inhabited

/-- A stored management response (R479). -/
structure Response where
  reqId : Word
  op    : Nat
  n     : Nat
  status : Nat
  addr  : Word
  data  : List Word
  deriving DecidableEq, Repr, Inhabited

/-- A peer (R487). -/
structure Peer where
  gen     : Option Nat := none
  /-- Last MARK: beat, sealed, r, p_max, and C of its arrival. -/
  mark    : Option (Nat × Nat × Nat × Nat × Nat) := none
  /-- Highest Beat of its provisionals. -/
  highest : Option Nat := none
  gone    : Bool := false
  deriving DecidableEq, Repr, Inhabited

/-- A line-data message in reassembly (R480). -/
structure LdMsg where
  host    : Nat
  msgId   : Nat
  channel : Nat
  nFrag   : Nat
  total   : Nat
  frags   : List (Nat × List Byte)
  since   : Nat
  deriving DecidableEq, Repr, Inhabited

/-- An export that waits to be sent (R484). -/
structure Export where
  lw       : Nat
  beat     : Nat
  stream   : Nat
  replayed : Bool
  data     : List Byte
  deriving DecidableEq, Repr, Inhabited

/-- The network (R458-R494). -/
structure Net where
  port     : Vector EthSt 2 := Vector.replicate 2 {}
  status   : Word := 0
  verdLost : Word := 0
  traceLost : Word := 0
  tlmDecim : Word := 0
  peerDrop : Word := 0
  ldIncomplete : Word := 0
  gen      : Nat := 0
  alarms   : List AlarmEntry := []
  /-- Verdict records that wait, with landing, index and total (R473, R481). -/
  backlog  : List (Nat × Nat × Nat × VRec) := []
  /-- Next sequence number of each class, and that of the replicated frames of each class, 16 bits (R461). -/
  seq      : Vector Nat 8 := Vector.replicate 8 0
  frer     : Vector Nat 8 := Vector.replicate 8 0
  /-- What was handed to the ports, newest last (log entry 9). -/
  sent     : List Datagram := []
  responses : Vector (List Response) 8 := Vector.replicate 8 []
  /-- Last accepted (gen, class, seq) of each sender, by dev_id. -/
  seen     : List (Nat × Nat × Nat × Nat) := []
  peers    : Vector Peer 16 := Vector.replicate 16 {}
  /-- Peer messages placed: interval, channel, bytes (R488). -/
  imports  : List (Nat × Nat × List Byte) := []
  lds      : List LdMsg := []
  /-- Telemetry: decimation exponent, offered items sent in a row, items of each source (a job, or 256 for snapshots). -/
  tlmK     : Nat := 0
  tlmStreak : Nat := 0
  tlmItems : List (Nat × Nat) := []
  /-- Beat of the last snapshot that was due (R476). -/
  tlmLast  : Option Nat := none
  /-- Records of the live log that were sent. -/
  evSent   : Nat := 0
  /-- Exports due (R484). -/
  exports  : List Export := []
  /-- Beats and logical Wings with provisionals sent, for R485. -/
  provs    : List (Nat × Nat) := []
  /-- MARKs due (R486): the Landings. -/
  marks    : List Nat := []
  /-- RETRACTs due (R485): logical Wing mask, first and last Beat, cause. -/
  retracts : List (Nat × Nat × Nat × Nat) := []
  /-- The last MARK's payload, and C of the entry to Idle or of the last Idle MARK (R547). -/
  lastMark : List Byte := []
  idleC    : Nat := 0
  /-- Frames of the D8 itself other than OLP: port, kind, sequenceId (log entry 9). Kinds: 0 Pdelay_Req, 1 Announce, 2 Sync,
  3 Pdelay_Resp, 4 Follow_Up, 5 Pdelay_Resp_Follow_Up, 6 ARP, 7 NDP, 8 echo, 9 IGMP. -/
  frames   : List (Nat × Nat × Nat) := []
  shares   : List (List Nat) := []
  deriving DecidableEq, Repr

/-- The capture register of an accessor (R577): the LO word last read and the HI word captured. -/
structure Capture where
  who : Who
  lo  : Nat
  hi  : Word
  deriving DecidableEq, Repr

/-- The state of the D8. -/
structure State where
  /-- Commands that wait, first in, first out: the model's own field (log entry 1). -/
  pending : List Instr := []
  /-- Counter of free values: the model's own field (log entry 2). -/
  freeCtr : Nat := 0
  /-- The counter C (R463). -/
  c       : Nat := 0
  reg     : Regulator := {}
  fuse    : Fuses := {}
  nvm     : Nvm := {}
  ret     : Retention := {}
  pins    : Pins := {}
  pwr     : Power := {}
  sec     : Security := {}
  start   : Start := {}
  /-- Boot device configuration in use (R501, R502). -/
  boot    : BootCfg := {}
  /-- Image in force, and the image of an accepted changeover until its target Landing (R531). -/
  img     : Option Image := none
  imgNew  : Option Image := none
  esc     : Escapement := {}
  wng     : WingRegs := {}
  phys    : Vector Phys 8 := Vector.replicate 8 {}
  lw      : Vector LogWing 8 := Vector.replicate 8 {}
  mem     : Mem := {}
  sealer  : Sealer := {}
  cam     : Cam := {}
  isp     : Isp := {}
  enc     : Vector Enc 4 := Vector.replicate 4 {}
  encStatus : Word := 0
  iio     : Iio := {}
  ejc     : Ejc := {}
  net     : Net := {}
  cap     : List Capture := []
  int     : Integrity := {}
  tst     : Test := {}
  supply  : Supply := {}
  therm   : Therm := {}
  recd    : Recorder := {}
  deriving DecidableEq, Repr

/-- The state after reset: every field at the value that the manual gives, or at the value that the assumption log names
(entries 1 to 11). PORST_N is low, so the device is held. -/
def State.reset : State :=
  { fuse := { keys := (Vector.replicate 8 ({} : KeySlot)).set 0 { usage := 1, written := true, alg := true } |>.set 1
                { usage := 1, written := true, alg := true } } }

end Sys2Proof.Machine
end

