-- ==== Sys2Proof/Machine/Ops.lean ====
section
/-! DEFINITION. The shared operations on the state: time, free values, status flags, events, alarms, reports, datagrams,
Wings, memory and the reference count. -/

namespace Sys2Proof.Machine

open Sys2Proof

/-- A next state. -/
abbrev ok (s : State) : Host.Outcome State Fault Refusal := .next s

/-! ### Time and free values -/

/-- T: O_k + (C − c_k) + ⌊a × (C − c_k) / 2^40⌋ (R463), 64 bits. -/
def timeT (s : State) : Nat :=
  let d : Int := (s.c : Int) - s.reg.ck
  ((s.reg.o + d + (s.reg.a * d) / (2 ^ 40 : Int)) % (2 ^ 64 : Int)).toNat

/-- C moves on by dt nanoseconds (R463). -/
def advance (s : State) (dt : Nat) : State := { s with c := (s.c + dt) % 2 ^ 64 }

/-- A deadline passes: C is at least t. -/
def reach (s : State) (t : Nat) : State := { s with c := (Nat.max s.c t) % 2 ^ 64 }

/-- Draws the next free value (log entry 2). -/
def fresh (s : State) : Nat × State := (Config.freeValue s.freeCtr, { s with freeCtr := s.freeCtr + 1 })

/-- Draws the next word of the random source (log entry 11). -/
def random (s : State) : Dword × State := (Config.random64 s.freeCtr, { s with freeCtr := s.freeCtr + 1 })

/-- n random bytes. -/
def randomBytes : Nat → State → List Byte × State
  | 0, s => ([], s)
  | n + 1, s =>
    let (w, s) := random s
    let (bs, s) := randomBytes n s
    (leBytes 8 w.toNat ++ bs, s)

/-! ### The image in force -/

def planOf (s : State) : Plan := match s.img with
  | some i => i.plan
  | none => {}

def wingPlan (s : State) (k : Nat) : WingPlan := (planOf s).wings.getD k {}

/-- L of the plan. -/
def lCount (s : State) : Nat := (planOf s).l

/-- The D8 has been declared ready and is neither in hold nor in reset. -/
def isReady (s : State) : Bool := s.sec.phase == 6

/-- The Beat number (R14, R23): 48 bits of the Beats issued since Beat 0 (log entry 80). -/
def beatNo (n : Nat) : Nat := n % 2 ^ 48

/-- The Landing of a 48-bit number that a request names, counted as the Beats are (log entry 80). -/
def landingOf (s : State) (n : Nat) : Nat := s.esc.beat / 2 ^ 48 * 2 ^ 48 + n

/-- The current Beat, or 0 before ready (R551). -/
def beatField (s : State) : Nat := if isReady s then beatNo s.esc.beat else 0

/-- The reference count of the plan (R373). -/
def refCount (s : State) : Word := match (planOf s).encChannel with
  | some e => (s.enc[e]).count
  | none => BitVec.ofNat 32 (timeT s)

/-- The plan is encoder-locked (R17, R25). -/
def encLocked (s : State) : Bool := bit s.esc.cfg.toNat 0

/-- A count that has reached the target of the next edge is remembered: the edge is due however the count moves on (R20, R21). -/
def latchTarget (s : State) : State :=
  if encLocked s && decide (0 ≤ diff32 (refCount s) s.esc.target) then { s with esc := { s.esc with reached := true } } else s

/-- The encoder channel that is the reference is in fault (R384). -/
def refFault (s : State) : Bool := match (planOf s).encChannel with
  | some e => (s.enc[e]).fault
  | none => false

/-! ### Rails, sensors and generations -/

/-- Code of a rail (R445). -/
def railCode : Rail → Nat
  | .vddW => 0 | .vddG => 1 | .vddA => 2 | .vddRet => 3 | .vddSd => 4 | .vddhSd => 5 | .vdd2hM => 6 | .vddqM => 7
  | .vddIo18 => 8 | .vddIo33 => 9 | .vddAn => 10

/-- Nominal voltage in mV (R591): the setpoint for VDD_W, and the lower of two while a change is in progress (R592). -/
def railMv (s : State) : Rail → Nat
  | .vddW => match s.supply.change with
    | some (old, _) => Nat.min old s.supply.setpoint
    | none => s.supply.setpoint
  | .vddG | .vddA | .vddRet => 750
  | .vddSd => 850 | .vddhSd => 1200 | .vdd2hM => 1050 | .vddqM => 500
  | .vddIo18 | .vddAn => 1800
  | .vddIo33 => 3300

/-- The rail that supplies a unit (R445). -/
def unitRail (u : Nat) : Option Rail := if u ≤ 9 ∨ u = 14 then some .vddW else if u ≤ 12 then some .vddG else none

/-- Voltage of the rail that a record names, as the monitors read it: its nominal value, in no other case known to the
model (log entry 21). -/
def unitMv (s : State) (u : Nat) : Nat × Nat := match unitRail u with
  | some r => (railCode r, railMv s r)
  | none => (0xFF, 0)

/-- Generation of the domain of a unit (R551): a Wing's for units 0 to 9 and 14, the compute die's for 10 to 12. -/
def unitGen (s : State) (u phys : Nat) : Nat :=
  if u ≤ 9 ∨ u = 14 then (match vGet? s.phys phys with | some p => p.gen | none => 0)
  else if u ≤ 12 then s.pwr.genDie else 0

/-! ### Events (R551-R557) -/

/-- The 64 bytes of a record. -/
def eventBytes (e : EventRec) : List Byte :=
  let body := leBytes 4 e.seq ++ leBytes 2 e.code ++ leBytes 1 e.severity ++ leBytes 1 e.unit ++ leBytes 6 e.beat ++ leBytes 2 e.again ++
    leBytes 8 e.time ++ leBytes 8 e.timeLast ++ leBytes 1 e.phys ++ leBytes 1 e.lwing ++ leBytes 2 e.op ++ leBytes 2 (twos 16 e.temp) ++
    leBytes 2 e.mv ++ leBytes 1 e.rail ++ leBytes 1 e.flags ++ leBytes 2 0 ++ padTo 16 e.arg
  body ++ leBytes 4 (crc32c body).toNat

/-- An event before it is recorded. -/
structure Ev where
  code  : Nat
  sev   : Nat := 1
  unit  : Nat := 0xFF
  phys  : Nat := 0xFF
  lwing : Nat := 0xFF
  op    : Nat := 0
  rail  : Option (Nat × Nat) := none
  arg   : List Byte := []

/-- The alarm function of R388 is high for 100 ms after each alarm. -/
def alarmFn (s : State) : State := { s with iio := { s.iio with alarmEnd := s.c + 100000000 } }

/-- Raises an alarm: fills or merges the pending entry of its code (R474). -/
def alarmEntry (s : State) (code phys lwing : Nat) (arg : List Byte) : State :=
  let t := timeT s
  let b := beatField s
  let as := if s.net.alarms.any fun a => a.code == code then
      s.net.alarms.map fun a => if a.code = code then
        { a with count := Nat.min 0xFFFFFFFF (a.count + 1), last := t, beat := b, phys := phys, lwing := lwing, arg := padTo 16 arg } else a
    else s.net.alarms ++ [{ code := code, phys := phys, lwing := lwing, first := t, last := t, beat := b, arg := padTo 16 arg }]
  alarmFn { s with net := { s.net with alarms := as } }

/-- Replaces the last element of a list. -/
def setLast {α : Type} (l : List α) (f : α → α) : List α := match l.getLast? with
  | some x => l.dropLast ++ [f x]
  | none => []

/-- The record of an event at the current time. -/
def mkRecord (s : State) (e : Ev) (again : Nat) : EventRec :=
  let rm := match e.rail with
    | some r => r
    | none => unitMv s e.unit
  { seq := s.ret.recSeq, code := e.code, severity := e.sev, unit := e.unit, beat := beatField s, again := Nat.min 0xFFFF again
    time := timeT s, timeLast := timeT s, phys := e.phys, lwing := e.lwing, op := e.op % 65536, temp := s.therm.tj, mv := rm.2, rail := rm.1
    flags := unitGen s e.unit e.phys, arg := padTo 16 e.arg }

/-- Writes a record to the live log, the retention tail and the count of records not yet in NVM; one that finds the live log
full is lost (R555). -/
def putRecord (s : State) (e : Ev) (again : Nat) : State :=
  if 8192 ≤ s.recd.live.length then
    let s' := { s with recd := { s.recd with lostCnt := incW s.recd.lostCnt, lost := true, fullAlarm := true } }
    if s.recd.fullAlarm then s' else alarmEntry { s' with recd := { s'.recd with lostCnt := incW s'.recd.lostCnt } } 0x0103 0xFF 0xFF [0]
  else
    let r := mkRecord s e again
    { s with
      recd := { s.recd with live := s.recd.live ++ [r] }
      ret := { s.ret with tail := (s.ret.tail ++ [r]).drop (s.ret.tail.length + 1 - 512)
                          tailNew := Nat.min 512 (s.ret.tailNew + 1), recSeq := (s.ret.recSeq + 1) % 2 ^ 32 } }

/-- Merges an event into the last record written (R554, repeat mode). -/
def mergeRecord (s : State) : State :=
  let f := fun (r : EventRec) => { r with again := Nat.min 0xFFFF (r.again + 1), timeLast := timeT s }
  { s with recd := { s.recd with live := setLast s.recd.live f }, ret := { s.ret with tail := setLast s.ret.tail f } }

/-- The event equals the last record written in code, unit, phys and the first 8 bytes of arg. -/
def sameAsLast (s : State) (e : Ev) : Bool := match s.recd.live.getLast? with
  | some r => r.code == e.code && r.unit == e.unit && r.phys == e.phys && r.arg.take 8 == (padTo 16 e.arg).take 8
  | none => false

/-- Takes a token of the bucket of a key (R554, rate-limit mode): whether one was there, the records suppressed since the last
written one, and the buckets after. -/
def takeToken (s : State) (key : Nat × Nat) : Bool × Nat × List ((Nat × Nat) × Nat × Nat × Nat) :=
  let bs := s.recd.buckets
  let (left, since, supp) := match bs.find? (fun b => b.1 == key) with
    | some b => b.2
    | none => (s.recd.burst, s.c, 0)
  let gain := (s.c - since) * s.recd.rate / 1000000000
  let left' := Nat.min s.recd.burst (left + gain)
  let since' := if gain = 0 then since else since + gain * 1000000000 / s.recd.rate
  let rest := bs.filter fun b => b.1 != key
  if left' = 0 then (false, supp, (key, 0, since', supp + 1) :: rest) else (true, supp, (key, left' - 1, since', 0) :: rest)

/-- An event is written, merged, suppressed or lost (R554, R555). -/
def logEvent (s : State) (e : Ev) : State :=
  if s.recd.mode then
    let key := (e.code, if e.code = 0x0300 ∨ e.code = 0x0302 then leAt e.arg 0 4 else 0)
    let (got, supp, bs) := takeToken s key
    let s := { s with recd := { s.recd with buckets := bs } }
    if got then putRecord s e supp else { s with recd := { s.recd with supp := incW s.recd.supp } }
  else if sameAsLast s e then mergeRecord s
  else putRecord s e 0

/-- An alarm: its pending entry and its event record with severity 3 (R474, R552). -/
def raiseAlarm (s : State) (code : Nat) (phys lwing : Nat := 0xFF) (arg : List Byte := []) : State :=
  logEvent (alarmEntry s code phys lwing arg) { code := code, sev := 3, phys := phys, lwing := lwing, arg := arg }

/-- Event 0x0300: the status register, the flag mask and the details (R552). -/
def flagEvent (s : State) (addr mask : Nat) (detail : List Byte := []) (phys lwing : Nat := 0xFF) : State :=
  logEvent s { code := 0x0300, phys := phys, lwing := lwing, arg := leBytes 4 addr ++ leBytes 4 mask ++ detail }

/-- Event 0x0302 (R552). -/
def otherEvent (s : State) (arg : List Byte) (phys lwing : Nat := 0xFF) : State :=
  logEvent s { code := 0x0302, phys := phys, lwing := lwing, arg := arg }

/-- The record of a link check: the link as R505 numbers it, whether it passed, and the least margin found, which the manual leaves to the
silicon (R503, log entries 2 and 45). -/
def linkEvent (s : State) (index : Nat) (passed : Bool) : State :=
  let (v, s) := fresh s
  otherEvent s (leBytes 1 index ++ [if passed then 1 else 0] ++ leBytes 4 v)

/-- Event 0x0200: the reset of a domain (R553). -/
def resetEvent (s : State) (kind index cause gen : Nat) : State :=
  logEvent s { code := 0x0200, sev := if kind = 0 then 4 else 2,
               arg := [BitVec.ofNat 8 kind, BitVec.ofNat 8 index, BitVec.ofNat 8 cause, BitVec.ofNat 8 gen] }

/-! ### Reports (R444, R445) -/

/-- The 128 bytes of a report. -/
def reportBytes (r : Report) : List Byte :=
  let body := leBytes 4 r.seq ++ leBytes 1 r.cause ++ leBytes 1 r.outcome ++ leBytes 1 r.phys ++ leBytes 1 r.lwing ++ leBytes 6 r.beat ++
    leBytes 1 r.unit ++ leBytes 1 r.opcode ++ leBytes 8 r.time ++ leBytes 4 r.cmdIndex ++ leBytes 2 (twos 16 r.temp) ++ leBytes 1 r.sensor ++
    leBytes 1 r.rail ++ leBytes 2 r.mv ++ leBytes 2 r.gen ++ leBytes 4 r.delta ++ padTo 32 r.first ++ padTo 32 r.again ++ leBytes 8 r.addr ++
    padTo 12 r.extra
  body ++ leBytes 4 (crc32c body).toNat

/-- Fills in what the device reads at a report: its number, sensor, temperature, rail, voltage, generation and role. -/
def fillReport (s : State) (r : Report) : Report :=
  let rm := if r.unit = 13 then (r.rail, r.mv) else unitMv s r.unit
  let role := match vGet? s.phys r.phys with
    | some p => p.role
    | none => 0
  { r with seq := s.int.reportSeq, temp := s.therm.tj, sensor := Config.nearSensor r.unit r.phys, rail := rm.1, mv := rm.2
           gen := unitGen s r.unit r.phys + 16 * role }

/-- Writes a report to the integrity log, or counts it when the log is full, and event 0x0301 (R444). -/
def addReport (s : State) (r : Report) : State :=
  let r := fillReport s r
  let full := decide (512 ≤ s.ret.intLog.length)
  let s := { s with
    int := { s.int with reportSeq := (s.int.reportSeq + 1) % 2 ^ 32
                        status := if full then orW s.int.status 0x800 else s.int.status }
    ret := if full then { s.ret with intLost := Nat.min 0xFFFF (s.ret.intLost + 1) }
           else { s.ret with intLog := s.ret.intLog ++ [r] } }
  logEvent s { code := 0x0301, unit := r.unit, phys := r.phys, lwing := r.lwing, op := r.opcode
               arg := leBytes 4 r.seq ++ [if full then 1 else 0] }

/-! ### Datagrams (R468, R481) -/

/-- Class of a message type (R470). -/
def typeClass (typ : Nat) : Nat :=
  if typ = 0x01 then 2 else if typ = 0x02 ∨ typ = 0x03 ∨ typ = 0x40 then 3 else if typ = 0x04 then 0 else if typ = 0x05 then 4
  else if typ = 0x06 then 5 else if typ = 0x07 then 6 else if typ = 0x08 ∨ typ = 0x11 then 1 else 7

/-- Some enabled port has its link up (R474). -/
def anyLink (s : State) : Bool := s.net.port.any fun p => p.cfg.enabled && p.link

/-- Frames of a class are replicated on both ports: alarms and verdicts, where a port in use has 802.1CB (R461, R489). -/
def replicated (s : State) (cl : Nat) : Bool := (cl == 0 || cl == 2) && s.net.port.any fun p => p.cfg.enabled && p.cfg.frer

/-- Hands a datagram to the ports with the next number of its class. -/
def sendDg (s : State) (typ dst : Nat) (payload : List Byte) (flags : Nat := 0) : State :=
  let cl := typeClass typ
  let q := (vGet? s.net.seq cl).getD 0
  let rep := replicated s cl
  { s with net := { s.net with
      sent := s.net.sent ++ [{ typ := typ, cls := cl, flags := flags, gen := s.net.gen, seq := q, time := timeT s, dst := dst, payload := payload
                               rtag := if rep then vGet? s.net.frer cl else none }]
      seq := vUpd s.net.seq cl fun n => (n + 1) % 2 ^ 32
      frer := if rep then vUpd s.net.frer cl fun n => (n + 1) % 2 ^ 16 else s.net.frer } }

/-- The bytes of a datagram on the wire (R468). -/
def dgBytes (devId : Nat) (d : Datagram) : List Byte :=
  let body := leBytes 2 0x4C4F ++ [1] ++ leBytes 1 d.typ ++ leBytes 1 d.flags ++ leBytes 1 d.cls ++ leBytes 2 d.payload.length ++
    leBytes 8 devId ++ leBytes 4 d.gen ++ leBytes 4 d.seq ++ leBytes 8 d.time ++ d.payload
  body ++ leBytes 4 (crc32c body).toNat

/-! ### Wings and memory -/

/-- Updates a physical Wing. -/
def updPhys (s : State) (p : PWing) (f : Phys → Phys) : State := { s with phys := s.phys.set p (f s.phys[p]) }

/-- Updates a logical Wing. -/
def updLw (s : State) (k : LWing) (f : LogWing → LogWing) : State := { s with lw := s.lw.set k (f s.lw[k]) }

/-- The physical Wing of a logical Wing in WNG_MAP (R82). -/
def mapOf (s : State) (k : Nat) : Option PWing :=
  let n := fieldW s.wng.map (4 * k) 4
  if h : n < 8 then some ⟨n, h⟩ else none

/-- Writes an entry of WNG_MAP at Landing n (R82, R83). -/
def setMap (s : State) (k : Nat) (p : Option PWing) (n : Nat) : State :=
  let v := match p with
    | some p => p.val
    | none => 15
  { s with wng := { s.wng with map := BitVec.ofNat 32 (setBits s.wng.map.toNat (4 * k) 4 v), mapBeat := n } }

/-- Stores bytes in DRAM; a block written whole takes a new CRC-32C. -/
def dramWrite (s : State) (a : Nat) (bs : List Byte) : State :=
  { s with mem := { s.mem with dram := memWrites s.mem.dram a bs, bad := s.mem.bad.filter fun b => !within (512 * b) 512 a bs.length } }

/-- CRC-32C over the CRC-32C values of the 512-byte blocks of a range (R39). -/
def rangeCheck (m : Memory) (a n : Nat) : Word :=
  crc32c ((List.range (ceilDiv n 512)).flatMap fun j => leBytes 4 (crc32c (memReads m (a + 512 * j) 512)).toNat)

/-- Attached DRAM in bytes. -/
def dramBytes (s : State) : Nat := fieldW s.mem.dramCfg 8 9 * 2 ^ 30

/-- All physical Wings, and all logical Wings that the plan uses. -/
def allP : List PWing := List.finRange 8
def usedLw (s : State) : List LWing := (List.finRange 8).filter fun k => decide (k.val < lCount s)

/-- A world violation is recorded (R12, R518, R571). -/
def violation (s : State) : State := { s with sec := { s.sec with viol := true, violCnt := incW s.sec.violCnt } }

/-- The identity public key and dev_id of the fuses (R520). -/
def devId (s : State) : Nat := leAt (sha3 (Config.mlDsaPublic (sha3 (ascii "OPCN-ID" ++ s.fuse.secret)))) 0 8

/-- Index of a dev_id among the hosts of the configuration. -/
def hostIdx (s : State) (id : Nat) : Option (Fin 8) :=
  let j := s.boot.hosts.idxOf id
  if h : j < 8 then (if j < s.boot.hosts.length then some ⟨j, h⟩ else none) else none

def peerIdx (s : State) (id : Nat) : Option (Fin 16) :=
  let j := s.boot.peers.idxOf id
  if h : j < 16 then (if j < s.boot.peers.length then some ⟨j, h⟩ else none) else none

/-- The class shares of a port sum to at most 100 % (R481). -/
def sharesOk (l : List (List Nat)) : Bool := !l.isEmpty && l.all fun q => decide (q.sum ≤ 100)

end Sys2Proof.Machine
end

