-- ==== Sys2Proof/Machine/Pixel.lean ====
section
/-! DEFINITION. Pixel formats and the unpacking of lines (R127-R129). The 32-bit values are those of the GenICam PFNC list
(log entry 24). -/

namespace Sys2Proof.Machine

open Sys2Proof

/-- How samples of a format are used (R335): one plane, a Bayer mosaic, a bilinear pair, or three components. -/
inductive PixKind where
  | mono
  /-- Bayer: the colours at (0,0), (1,0), (0,1), (1,1) with 0 red, 1 green, 2 blue. -/
  | bayer (c00 c10 c01 c11 : Nat)
  /-- BiColor: true for RGBG. -/
  | bicolor (rgbg : Bool)
  /-- Three components: true for BGR order. -/
  | rgb (bgr : Bool)
  deriving DecidableEq, Repr, Inhabited

/-- Layout on the link (R127): bit depth, container bits of a sample (8, 16, or the depth itself when packed). -/
structure PixFmt where
  depth : Nat
  cont  : Nat
  kind  : PixKind
  deriving DecidableEq, Repr, Inhabited

def bayerGR : PixKind := .bayer 1 0 2 1
def bayerRG : PixKind := .bayer 0 1 1 2
def bayerGB : PixKind := .bayer 1 2 0 1
def bayerBG : PixKind := .bayer 2 1 1 0

/-- The formats that the D8 accepts, by PFNC value. -/
def pixTable : List (Nat × PixFmt) :=
  [(0x01080001, ⟨8, 8, .mono⟩), (0x01080008, ⟨8, 8, bayerGR⟩), (0x01080009, ⟨8, 8, bayerRG⟩), (0x0108000A, ⟨8, 8, bayerGB⟩),
   (0x0108000B, ⟨8, 8, bayerBG⟩), (0x021000A5, ⟨8, 8, .bicolor true⟩), (0x021000A6, ⟨8, 8, .bicolor false⟩)] ++
  [(0x01100003, ⟨10, 16, .mono⟩), (0x01100005, ⟨12, 16, .mono⟩), (0x01100025, ⟨14, 16, .mono⟩), (0x01100007, ⟨16, 16, .mono⟩)] ++
  [(0x0110000C, ⟨10, 16, bayerGR⟩), (0x0110000D, ⟨10, 16, bayerRG⟩), (0x0110000E, ⟨10, 16, bayerGB⟩), (0x0110000F, ⟨10, 16, bayerBG⟩),
   (0x01100010, ⟨12, 16, bayerGR⟩), (0x01100011, ⟨12, 16, bayerRG⟩), (0x01100012, ⟨12, 16, bayerGB⟩), (0x01100013, ⟨12, 16, bayerBG⟩),
   (0x0110002E, ⟨16, 16, bayerGR⟩), (0x0110002F, ⟨16, 16, bayerRG⟩), (0x01100030, ⟨16, 16, bayerGB⟩), (0x01100031, ⟨16, 16, bayerBG⟩)] ++
  [(0x010A0046, ⟨10, 10, .mono⟩), (0x010A0056, ⟨10, 10, bayerGR⟩), (0x010A0058, ⟨10, 10, bayerRG⟩), (0x010A0054, ⟨10, 10, bayerGB⟩),
   (0x010A0052, ⟨10, 10, bayerBG⟩)] ++
  [(0x010C0047, ⟨12, 12, .mono⟩), (0x010C0057, ⟨12, 12, bayerGR⟩), (0x010C0059, ⟨12, 12, bayerRG⟩), (0x010C0055, ⟨12, 12, bayerGB⟩),
   (0x010C0053, ⟨12, 12, bayerBG⟩), (0x021800AC, ⟨12, 12, .bicolor true⟩), (0x021800AE, ⟨12, 12, .bicolor false⟩)] ++
  [(0x02180014, ⟨8, 8, .rgb false⟩), (0x02180015, ⟨8, 8, .rgb true⟩), (0x02300033, ⟨16, 16, .rgb false⟩)]

def pixFmt? (v : Nat) : Option PixFmt := (pixTable.find? fun x => x.1 == v).map fun x => x.2

/-- Samples per line after unpacking (R329): the width, three times that for RGB. A BiColor pixel is one sample of the line. -/
def pixSamples (f : PixFmt) (width : Nat) : Nat := match f.kind with
  | .rgb _ => 3 * width
  | _ => width

/-- Bytes that a line of a width must hold (R309). -/
def lineBytes (f : PixFmt) (width : Nat) : Nat := pixSamples f width * f.cont / 8

/-- A packed line is a whole number of bytes (R128). -/
def widthOk (f : PixFmt) (width : Nat) : Bool := if f.cont = 10 then width % 4 == 0 else if f.cont = 12 then width % 2 == 0 else true

/-- Sample i of a line as carried, and whether bits above its depth were set (R129). -/
def rawSample (f : PixFmt) (bs : List Byte) (i : Nat) : Nat :=
  let p := i * f.cont
  bits (leAt bs (p / 8) 4) (p % 8) f.cont

/-- The unpacked samples, components in R, G, B order. -/
def unpack (f : PixFmt) (width : Nat) (bs : List Byte) : List Nat :=
  (List.range (pixSamples f width)).map fun i =>
    let j := match f.kind with
      | .rgb true => 3 * (i / 3) + (2 - i % 3)
      | _ => i
    rawSample f bs j % 2 ^ f.depth

/-- Pixels with bits set above their depth (R129). -/
def overDepth (f : PixFmt) (width : Nat) (bs : List Byte) : Nat :=
  ((List.range (pixSamples f width)).filter fun i => decide (2 ^ f.depth ≤ rawSample f bs i)).length

/-- Width of the stage 6 output in pixels, and its components (R338). -/
def outWidth (f : PixFmt) (width : Nat) : Nat := match f.kind with
  | .bicolor _ => width / 2
  | _ => width

/-- The format has colour output. -/
def isColour (f : PixFmt) : Bool := match f.kind with
  | .mono => false
  | _ => true

end Sys2Proof.Machine
end

