-- ==== Sys2Proof/Machine/Resets.lean ====
section
/-! DEFINITION. Resets of the device and of the compute die, phase 0 of the start, Vestibule hold, crash dumps, and the
commands that lead to them (R495-R506, R533-R538, R559, R594). -/

namespace Sys2Proof.Machine

open Sys2Proof

/-! ### Vestibule hold (R319, R399, R496-R499) -/

/-- The ports are not started: their lanes are Off and nothing is received (R299). -/
def stopCameras (s : State) : State :=
  { s with cam := { s.cam with
      port := s.cam.port.map fun p => { p with state := 0, stage := .idle, accepting := false, line := none, relinkReq := false, stopReq := false, speed := 0, fast := false }
      lane := s.cam.lane.map fun l => { l with rx := 0, tx := false, locked := false, next := none } } }

/-- The calendar is emptied and every ejector channel is off (R399). -/
def emptyCalendar (s : State) : State :=
  { s with ejc := { s.ejc with
      entries := [], direct := Vector.replicate 64 {}, valve := Vector.replicate 1024 {}
      status := if s.ejc.entries.isEmpty then s.ejc.status else orW s.ejc.status 8 } }

/-- The Escapement issues no Beats and no Wing runs planned work. -/
def stopBeats (s : State) : State :=
  { s with esc := { s.esc with phase := .off }, phys := s.phys.map fun p => { p with work := none } }

/-- Some PoCXP enable is driven. -/
def anyEnable (s : State) : Bool := s.cam.port.any fun p => p.enable.isSome

/-- The D8 enters Vestibule hold with a reason, a section and an index (R497, R498, R319). -/
def enterHold (s : State) (reason : Nat) (sect : Nat := 0xFF) (index : Nat := 0xFF) (offset : Nat := 0) : State :=
  let service := s.sec.phase == 6 || s.start.dieOnly
  let low := service || anyEnable s
  let s := stopBeats (emptyCalendar (stopCameras s))
  { s with
    sec := { s.sec with phase := 7, reason := reason, sect := sect, index := index, offset := offset }
    cam := { s.cam with port := s.cam.port.map fun p => { p with enable := if low then some false else p.enable } }
    iio := { s.iio with ready := false }
    start := { s.start with heldFromService := service, pocxpLow := if low then some s.c else none, noticeC := s.c } }

/-! ### Phase 0 (R495, R500, R501) -/

/-- A firmware copy that the boot ROM accepts: its signature verifies and its version is not below the counter (R514). -/
def fwOk (s : State) (f : Firmware) : Bool := f.good && decide (s.fuse.fwSvn ≤ f.version)

/-- The firmware that runs: copy A, else copy B. -/
def firmware (s : State) : Firmware := if fwOk s s.nvm.fwA then s.nvm.fwA else s.nvm.fwB

/-- Ranges of the configuration items (R502). -/
def cfgOk (b : BootCfg) : Bool :=
  decide (1 ≤ b.hosts.length ∧ b.hosts.length ≤ 8 ∧ b.peers.length ≤ 16 ∧ -7 ≤ b.logSync ∧ b.logSync ≤ 0 ∧ b.kp ≤ 7 ∧
    1 ≤ b.gateTimeout ∧ b.gateTimeout ≤ 3600 ∧ 16384 ≤ b.nvmLog ∧ b.nvmLog ≤ 131072) &&
  [115200, 230400, 460800, 921600, 1500000, 3000000].contains b.crownBaud && sharesOk b.shares &&
  decide (b.priority1 ≤ 255 ∧ b.olpPort ≤ 65535) && b.ports.all (fun p => decide (p.iface < 4))

/-- The copy that verifies with the higher sequence number (R501). -/
def chosenCfg (s : State) : Option BootCfg :=
  let good := fun (x : Option (Nat × BootCfg)) => x.filter fun c => cfgOk c.2
  match good s.nvm.cfgA, good s.nvm.cfgB with
  | some a, some b => some (if a.1 < b.1 then b.2 else a.2)
  | some a, none => some a.2
  | none, b => b.map fun x => x.2

/-- The fused fall-back network configuration (R501): ETH0 only, and one host (log entry 23). -/
def fallbackCfg : BootCfg := { hosts := [1] }

/-- The NVM log takes the records of the retention tail that it does not hold yet, marked recovered (R556). -/
def recoverTail (s : State) : State :=
  let new := (s.ret.tail.drop (s.ret.tail.length - s.ret.tailNew)).map fun r => { r with flags := r.flags ||| 16 }
  { s with nvm := { s.nvm with log := (s.nvm.log ++ new).take s.boot.nvmLog }, ret := { s.ret with tailNew := 0 } }

/-- The session generation increments and is stored (R483): whether the NVM took it. -/
def nextGeneration (s : State) : State :=
  let g := (s.ret.gen + 1) % 2 ^ 32
  if s.nvm.genWriteOk then
    { s with ret := { s.ret with gen := g }, nvm := { s.nvm with gen := g }, net := { s.net with gen := g, seq := Vector.replicate 8 0 } }
  else { s with ret := { s.ret with gen := g } }

/-- The Ethernet ports take their configuration and their PHYs leave reset (R458, R489). -/
def configurePorts (s : State) : State :=
  { s with
    net := { s.net with port := Vector.ofFn fun e : Fin 2 => { (s.net.port[e]) with cfg := s.boot.ports.getD e {} } }
    pins := { s.pins with ethRst := Vector.ofFn fun e : Fin 2 => (s.boot.ports.getD e {}).enabled } }

/-- Phase 0 once the firmware is verified: configuration, generation, ports, recovery of the log, then phase 1. -/
def bootVerified (s : State) (cause : Nat) (dumped : Bool) : State :=
  let cfg := chosenCfg s
  let s := { s with boot := cfg.getD fallbackCfg }
  let s := recoverTail (nextGeneration (configurePorts s))
  let s := { s with
    recd := { s.recd with baud := s.boot.crownBaud }
    nvm := { s.nvm with mirror := some s.ret }
    sec := { s.sec with phase := 1 }
    start := { s.start with gateC := s.c } }
  let s := raiseAlarm (resetEvent s 0 0 cause 0) 0x0101 0xFF 0xFF [BitVec.ofNat 8 cause]
  let s := if dumped then raiseAlarm s 0x0104 0xFF 0xFF [BitVec.ofNat 8 cause] else s
  if cfg.isNone then enterHold s 0x0E
  else if s.nvm.genWriteOk then s else enterHold s 0x0B

/-- Phase 0 of the start: straps, firmware, configuration. -/
def boot (s : State) (dumped : Bool := false) : State :=
  let s := { s with pwr := { s.pwr with held := false } }
  if s.pins.xspiMode = 3 ∨ (!fwOk s s.nvm.fwA && !fwOk s s.nvm.fwB) then { s with sec := { s.sec with bootHalt := true } }
  else bootVerified s s.ret.lastCause dumped

/-! ### Device reset (R535, R543) -/

/-- A physical Wing after a reset: role 7 where fused off, else 2 (R86). -/
def freshWing (s : State) (p : Nat) : Phys := { role := if bit s.fuse.goodWings p then 2 else 7 }

/-- Every register takes its Reset column; fuses, NVM and retention memory stay; the cause is recorded (R13, R535, R543, R563). -/
def resetState (s : State) (cause : Nat) : State :=
  { State.reset with
    pending := s.pending, freeCtr := s.freeCtr, fuse := s.fuse, nvm := s.nvm
    ret := { s.ret with lastCause := cause, lastKind := 0, resets := (s.ret.resets ++ [(0, cause)]).drop (s.ret.resets.length + 1 - 16) }
    pins := { porst := s.pins.porst, warm := s.pins.warm, xspiMode := s.pins.xspiMode, thermLow := s.pins.thermLow }
    phys := Vector.ofFn fun p : Fin 8 => freshWing s p
    therm := s.therm
    supply := { low := s.supply.low, down := s.supply.down, setpoint := s.supply.setpoint }
    net := { sent := s.net.sent, frames := s.net.frames }
    recd := { crownOut := s.recd.crownOut }
    cam := { sent := s.cam.sent, ctrl := s.cam.ctrl }
    ejc := { sent := s.ejc.sent } }

/-- Whether the device may leave reset: PORST_N high, every rail in range, and no thermal trip. -/
def mayBoot (s : State) : Bool := s.pins.porst && s.supply.low.isEmpty && s.supply.down.isEmpty && !s.pwr.hot

/-- The device resets and starts again at phase 0, or stays in reset while it may not leave it. -/
def deviceReset (s : State) (cause : Nat) (dumped : Bool := false) : State :=
  let s := resetState s cause
  if mayBoot s then boot s dumped else s

/-! ### Compute-die reset (R536, R538, R543, R544) -/

/-- First and last Beats not yet sealed (R536). -/
def unsealed (s : State) : Nat × Nat := (match s.sealer.sealed with | some b => b + 1 | none => 0, s.esc.beat)

/-- The WNG_ registers and the Wings after a compute-die reset (R544). -/
def dieWings (s : State) : State :=
  { s with
    wng := { status := s.wng.status, vtStatus := s.wng.vtStatus, vtNanv := s.wng.vtNanv, beStatus := s.wng.beStatus
             beSteps := s.wng.beSteps, beDisc := s.wng.beDisc
             adpt := if s.wng.adpt.state = 1 then { state := 3, reason := 7 } else {} }
    phys := Vector.ofFn fun p : Fin 8 =>
      { freshWing s p with gen := ((s.phys[p]).gen + 1) % 16, transient := (s.phys[p]).transient, fences := (s.phys[p]).fences }
    lw := Vector.replicate 8 {}
    start := { s.start with dropped := s.start.dropped } }

/-- The ISP_ block and the pipes after a compute-die reset: counters stay, every camera has a gap from its last line (R603). -/
def dieIsp (s : State) : State :=
  { s with
    isp := { s.isp with
      cam := s.isp.cam.map fun c =>
        { drop := c.drop, short := c.short, long := c.long, cut := c.cut, calUpd := c.calUpd, calSkip := c.calSkip, corrupt := c.corrupt
          lastLine := c.lastLine
          gaps := match c.lastLine with
            | some t => (t, none) :: c.gaps
            | none => c.gaps }
      busy := Vector.replicate 8 none, inReset := Vector.replicate 8 false, tblAddr := 0
      oaFree := Vector.replicate 8 0, oaTrack := Vector.replicate 8 0, ldArea := [] }
    pwr := { s.pwr with genPipe := s.pwr.genPipe.map fun g => (g + 1) % 16 }
    cam := { s.cam with port := s.cam.port.map fun p => { p with accepting := false, line := none } } }

/-- DRAM, MEM_ and TST_ after a compute-die reset. -/
def dieMemory (s : State) : State :=
  { s with
    mem := { chCorr := s.mem.chCorr, kvStatus := s.mem.kvStatus, kvMin := s.mem.kvMin, kvRefused := s.mem.kvRefused }
    tst := {}
    int := { s.int with round := none, passed := [], reloads := [], unitRuns := [], suspects := [] } }

/-- Sealing, the backlog and staging after a compute-die reset: nothing further is sealed, waiting records are lost and
counted, and the chains start again. A changeover that is in progress is refused, because its areas in DRAM are lost (log entry 77). -/
def dieRecords (s : State) : State :=
  let busy := s.sec.actState = 1
  { s with
    imgNew := none
    sealer := {}
    net := { s.net with
      backlog := [], verdLost := satInc s.net.verdLost s.net.backlog.length
      status := if s.net.backlog.isEmpty then s.net.status else orW s.net.status 8
      provs := [], marks := [], retracts := [], imports := [], exports := [], tlmLast := none }
    sec := { s.sec with stage := if s.sec.stage = 1 ∨ s.sec.stage = 2 ∨ s.sec.stage = 3 then 0 else s.sec.stage
                        recv := if s.sec.stage = 2 ∨ s.sec.stage = 3 then [] else s.sec.recv
                        preloaded := false, actDone := none
                        actState := if busy then 3 else s.sec.actState, actReason := if busy then 0x10 else s.sec.actReason }
    iio := { s.iio with ready := false, fifo := [], edges := [] } }

/-- The compute die resets. A second trigger while it is in reset only leaves an event; a device in reset or in boot halt takes
no part (R534). -/
def dieReset (s : State) (cause : Nat) : State :=
  if s.pwr.held || s.sec.bootHalt then s
  else match s.pwr.dieSince with
  | some _ => otherEvent s [1, BitVec.ofNat 8 cause]
  | none =>
    let (b1, b2) := unsealed s
    let s := raiseAlarm s 0x0100 0xFF 0xFF (leBytes 6 b1 ++ leBytes 6 b2)
    let g := (s.pwr.genDie + 1) % 16
    let s := { s with
      esc := { status := s.esc.status, uaCnt := s.esc.uaCnt, cfg := s.esc.cfg, nb := s.esc.nb, pMin := s.esc.pMin, pMax := s.esc.pMax }
      ret := { s.ret with lastCause := cause, lastKind := 1, resets := (s.ret.resets ++ [(1, cause)]).drop (s.ret.resets.length + 1 - 16) }
      pwr := { s.pwr with genDie := g, dieSince := some s.c, idleAt := none } }
    let s := nextGeneration (dieRecords (dieMemory (dieIsp (dieWings s))))
    resetEvent s 1 0 cause g

/-- A crash dump is captured unless one is held (R559). -/
def captureDump (s : State) (cause : Nat) : State :=
  match s.ret.dump with
  | some _ => { s with ret := { s.ret with dumpMissed := Nat.min 0xFFFF (s.ret.dumpMissed + 1) } }
  | none =>
    { s with ret := { s.ret with dump := some {
        cause := cause, time := timeT s, beat := beatField s
        gens := s.ret.gen :: s.pwr.genDie :: (s.phys.map fun p => p.gen).toList
        fw := (firmware s).version
        escPhase := match s.esc.phase with | .off => 0 | .drain => 1 | .guard => 2 | .run => 3
        landing := s.sealer.sealed
        progress := (s.phys.map fun p => match p.work with | some w => w.prog.toList | none => []).toList
        trace := s.recd.trace } } }

/-- A dump and a device reset: watchdog, sealing unit or calendar progress fault, fatal firmware error (R533, R559). -/
def dumpReset (s : State) (cause : Nat) : State :=
  let taken := s.ret.dump.isNone
  deviceReset (captureDump s cause) cause taken

/-- A device that runs: it is neither held in reset nor in boot halt. -/
def running (s : State) : Bool := !s.pwr.held && !s.sec.bootHalt

/-- Beats are planned: ready, the compute die out of reset, and not in Standby. -/
def dieUp (s : State) : Bool := running s && s.pwr.dieSince.isNone && s.pwr.state != 3

/-! ### The commands -/

/-- PORST_N_ASSERT (R533, R535): the device resets and stays in reset while PORST_N is low. -/
def execPorstNAssert (s : State) : Host.Outcome State Fault Refusal :=
  let s := resetState { s with pins := { s.pins with porst := false } } 0x01
  ok { s with pwr := { s.pwr with held := true } }

/-- WARM_N_ASSERT (R533): the device resets. -/
def execWarmNAssert (s : State) : Host.Outcome State Fault Refusal :=
  if s.pwr.held then ok s else ok (deviceReset s 0x02)

/-- PORST_N_RELEASE (R495, R594): phase 0, unless a rail is still below its warning level. -/
def execPorstNRelease (s : State) : Host.Outcome State Fault Refusal :=
  if s.pins.porst then ok s
  else
    let s := { s with pins := { s.pins with porst := true } }
    ok (if mayBoot s then boot s else s)

/-- RAILS_IN_RANGE (R594): the internal reset that waited for the rails ends. -/
def execRailsInRange (s : State) : Host.Outcome State Fault Refusal :=
  let s := { s with supply := { s.supply with low := [], down := [] } }
  ok (if s.pwr.held && mayBoot s then boot s else s)

/-- GATE_TIMEOUT's link has not passed: UCIe and DRAM in phase 1, an enabled Ethernet port, or a lane of a required camera
port that is not up (R505). -/
def gateBlocked (s : State) (index : Nat) : Bool :=
  if index < 32 then
    s.cam.port.any fun p => bit p.cfg.toNat 0 && bit p.cfg.toNat 13 && decide (p.state ≠ 3 ∧ p.state ≠ 4) &&
      decide (fieldW p.cfg 1 5 ≤ index ∧ index < fieldW p.cfg 1 5 + fieldW p.cfg 6 3)
  else if 0xC0 ≤ index ∧ index ≤ 0xC1 then
    match vGet? s.net.port (index - 0xC0) with
    | some p => p.cfg.enabled && !p.checked
    | none => false
  else !s.start.ucieDram && decide ((0x40 ≤ index ∧ index ≤ 0x41) ∨ (0x80 ≤ index ∧ index ≤ 0x9F))

/-- GATE_TIMEOUT (R505): a link that holds back readiness has not passed within gate_timeout of the start of phase 1. -/
def execGateTimeout (index : Byte) (s : State) : Host.Outcome State Fault Refusal :=
  if running s && decide (1 ≤ s.sec.phase ∧ s.sec.phase ≤ 5) && gateBlocked s index.toNat then
    ok (enterHold (reach s (s.start.gateC + s.boot.gateTimeout * 1000000000)) 0x0C 0xFF index.toNat)
  else ok s

/-- The program digest of an image (R511): its header, then each table entry with the bytes of its section, SIGN left out. -/
def progDigest (i : Image) : Digest := sha3 (i.header ++ ((i.table.take 11).zip i.bytes).flatMap fun x => x.1 ++ x.2)

/-- HOLD_NOTICE (R497, R499): every second in hold, to each host. -/
def execHoldNotice (s : State) : Host.Outcome State Fault Refusal :=
  if running s && s.sec.phase == 7 then
    let s := reach s (s.start.noticeC + 1000000000)
    let s := { s with start := { s.start with noticeC := s.c } }
    ok (sendDg s 0x30 0
      (leBytes 1 s.sec.reason ++ leBytes 1 s.sec.sect ++ leBytes 1 s.sec.index ++ leBytes 1 s.nvm.active ++ leBytes 4 s.sec.offset ++
       padTo 32 s.sec.prog ++ leBytes 1 s.fuse.svn ++ leBytes 1 s.sec.stage ++ leBytes 2 0 ++ leBytes 4 (firmware s).version))
  else ok s

/-- POCXP_HOLD_RELEASE (R319): 500 ms after entry to hold the enables are no longer driven. -/
def execPocxpHoldRelease (s : State) : Host.Outcome State Fault Refusal :=
  match s.start.pocxpLow with
  | some t =>
    let s := reach s (t + 500000000)
    ok { s with cam := { s.cam with port := s.cam.port.map fun p => { p with enable := none } }, start := { s.start with pocxpLow := none } }
  | none => ok s

/-- BOOT_HALT_REPORT (R496): every second the boot ROM writes the failure to the Crown UART. -/
def execBootHaltReport (s : State) : Host.Outcome State Fault Refusal :=
  if s.sec.bootHalt then
    let s := advance s 1000000000
    ok { s with recd := { s.recd with crownOut := s.recd.crownOut ++ [ascii "boot halt: firmware A and B failed"] } }
  else ok s

/-- DEVICE (R564, R565): a secure write of device gives a device reset. -/
def execDevice (a : Acc) (s : State) : Host.Outcome State Fault Refusal :=
  if running s then (if a.secure then ok (deviceReset s 0x07) else ok (violation s)) else ok s

/-- DIE (R564, R565): a secure write of die gives a compute-die reset. -/
def execDie (a : Acc) (s : State) : Host.Outcome State Fault Refusal :=
  if running s then (if a.secure then ok (dieReset s 0x07) else ok (violation s)) else ok s

/-- DIE_RELEASE (R536): at least 10 µs after the trigger the die is released and phases 1 to 4 run as at start.
Only a device reset leaves hold (R497). -/
def execDieRelease (s : State) : Host.Outcome State Fault Refusal :=
  match s.pwr.dieSince with
  | some t =>
    if running s && !s.supply.down.contains .vddW && !s.supply.down.contains .vddG then
      let s := reach s (t + 10000)
      if s.sec.phase = 7 then ok { s with pwr := { s.pwr with dieSince := none } }
      else
      let s := { s with
        pwr := { s.pwr with dieSince := none }
        sec := { s.sec with phase := 1 }
        start := { s.start with dieOnly := s.start.dieOnly || s.sec.phase == 6, gateC := s.c, ucieDram := false, pass := 0, missing := [] } }
      ok (if s.nvm.genWriteOk then s else enterHold s 0x0B)
    else ok s
  | none => ok s

/-- ASSEMBLER_TIMEOUT (R539): the Object Assembler makes no progress. -/
def execAssemblerTimeout (s : State) : Host.Outcome State Fault Refusal :=
  if dieUp s then ok (dieReset { s with pwr := { s.pwr with prog := incW s.pwr.prog } } 0x05) else ok s

/-- TRANSACTION_TIMEOUT (R539): a transaction is outstanding for more than 100 µs. -/
def execTransactionTimeout (s : State) : Host.Outcome State Fault Refusal :=
  if dieUp s then ok (dieReset { s with pwr := { s.pwr with prog := incW s.pwr.prog } } 0x05) else ok s

/-- DIE_TO_DIE_LINK_FAILURE (R533): cause 0x0C. -/
def execDieToDieLinkFailure (s : State) : Host.Outcome State Fault Refusal :=
  if dieUp s then ok (dieReset s 0x0C) else ok s

/-- SEALING_TIMEOUT (R539, R559): a progress fault of the sealing unit. -/
def execSealingTimeout (s : State) : Host.Outcome State Fault Refusal :=
  if running s then ok (dumpReset s 0x05) else ok s

/-- CALENDAR_FRAME_MISS (R539, R559): a progress fault of the ejector calendar. -/
def execCalendarFrameMiss (s : State) : Host.Outcome State Fault Refusal :=
  if running s then ok (dumpReset s 0x05) else ok s

/-- WATCHDOG_EXPIRY (R539, R559): the management cores did not serve their watchdog. -/
def execWatchdogExpiry (s : State) : Host.Outcome State Fault Refusal :=
  if running s then ok (dumpReset s 0x04) else ok s

/-- FATAL_FIRMWARE_ERROR (R559): a dump and a device reset, which the watchdog that is no longer served gives (log entry 22). -/
def execFatalFirmwareError (s : State) : Host.Outcome State Fault Refusal :=
  if running s then ok (dumpReset s 0x04) else ok s

/-- A domain is in reset: its edge waits for what was issued before (R538). A camera port's reset has no other mark. -/
def domainInReset (s : State) : Domain → Bool
  | .die => s.pwr.dieSince.isSome
  | .wing p => (s.phys[p]).softReset.isSome
  | .pipe q => s.isp.inReset[q]
  | .port _ => true
  | .eth e => s.pwr.ethReset[e]

/-- DOMAIN_DRAIN_TIMEOUT (R538): after 20 µs the edge of a domain drops what is outstanding, n transactions. -/
def execDomainDrainTimeout (d : Domain) (n : Nat) (s : State) : Host.Outcome State Fault Refusal :=
  if running s && domainInReset s d then ok { s with pwr := { s.pwr with stale := satInc s.pwr.stale n } } else ok s

end Sys2Proof.Machine
end

