-- ==== Sys2Proof/Machine/Loader.lean ====
section
/-! DEFINITION. The checks of the image loader, in the order of R515: each check is a condition with the reason of R498 and the
section of R510 that it names. -/

namespace Sys2Proof.Machine

open Sys2Proof

/-- A check: whether it passes, the reason and the section if it fails, and the byte offset of the failing item. -/
structure Check where
  pass   : Bool
  reason : Nat
  sect   : Nat := 0xFF
  offset : Nat := 0

/-- The first check that fails. -/
def firstFail (cs : List Check) : Option Check := cs.find? fun c => !c.pass

def range (lo hi x : Nat) : Bool := decide (lo ≤ x ∧ x ≤ hi)

/-! ### Header, layout and signature (R509-R514) -/

/-- The section layout (R510): twelve sections in order, at multiples of 512 inside the image, that do not overlap. -/
def layoutOk (i : Image) : Bool :=
  let t := i.table.map sectEntry
  imgSections i == 12 && (t.map fun x => x.id) == sectNames.map asciiName && i.bytes.length == 12 &&
  (t.all fun x => x.resv == 0 && x.offset % 512 == 0 && decide (x.offset + x.length ≤ imgLen i) &&
    (decide (0 < x.length) || (["TOK", "NET", "ADPT"].map asciiName).contains x.id)) &&
  decide (32 + 64 * 12 ≤ (t.headD (sectEntry [])).offset) &&
  ((t.zip (t.drop 1)).all fun p => decide (p.1.offset + p.1.length ≤ p.2.offset))

/-- The signature (R512). -/
def signOk (s : State) (i : Image) : Bool :=
  let g := imgSign i
  match vGet? s.fuse.keys g.slot with
  | none => false
  | some k => decide (sha3 g.pk = k.hash) && k.written && !k.revoked && bit k.usage 1 && g.alg == (if k.alg then 65 else 44) &&
      Config.mlDsaVerify k.alg g.pk "OPCN-IMAGE" (progDigest i) g.sig

/-- Each section digest matches its bytes. -/
def digestsOk (i : Image) : Bool := (i.table.zip i.bytes).all fun x => decide (sha3 x.2 = (sectEntry x.1).digest)

/-! ### PLAN -/

/-- Rate in MT/s of the code of MEM_DRAM_CFG (R578). -/
def rateOf (code : Nat) : Nat := [0, 4266, 5500, 6400, 7500, 8533].getD code 0

/-- Available Wings A (R73): good Wings that are not marked out. -/
def availWings (s : State) : List PWing := allP.filter fun p => (s.phys[p]).role != 7 && (s.phys[p]).role != 6

/-- L fits A (R73). -/
def wingCountOk (l : Nat) (noSpare : Bool) (a : Nat) : Bool := range 1 8 l && (if noSpare then l == a else decide (l + 1 ≤ a))

/-- Λ_k (R272) and σ_k (R418) in cycles. -/
def lambdaK (p : Plan) : Nat := 96 * (p.pMin - p.guardNs) * p.fPlan / (100 * 1000000000)
def sigmaK (p : Plan) : Nat := (p.pMin - p.guardNs) * p.fPlan / 1000000000 - lambdaK p

/-- Grace in ns (R25): ⌊grace × P_min / 1,000⌋. -/
def graceNs (p : Plan) : Nat := p.grace * p.pMin / 1000

/-- The WCC of each chain of an ME list and of each other command (R418). -/
def chainWccs : List Cmd → Nat → List Nat
  | [], acc => [acc]
  | c :: cs, acc =>
    let kp := if range 0x10 0x13 c.opcode then meKPart c else 0
    if kp = 1 ∨ kp = 2 then chainWccs cs (acc + c.wcc) else (acc + c.wcc) :: chainWccs cs 0

/-- The bytes that a descriptor names as it resolves for one Beat and adapter bank: the ranges (space, address, length) of its elements and of
its scale plane. -/
def descRanges (i : Issue) (write : Bool) (d : Desc) : List (Nat × Nat × Nat) :=
  let place := fun (x : Desc) (n : Nat) => match resolveDesc i write x with
    | .ok (sp, a) => [(sp, a, n)]
    | .error _ => []
  place d (dExtent d) ++ (if d.scaled then (wingDesc (iWing i) d.scaleIdx).elim [] fun x => place x (ceilDiv (dStored d) 32) else [])

/-- An output of an ME or vector tile command overlaps an input (R133, R216): the resolved addresses are compared (R265), for every place that
the versions of a Carried region take in turn and for both adapter banks. -/
def overlapBad (img : Image) (k : Nat) (w : WingPlan) (c : Cmd) : Bool :=
  let ds := (List.range 8).filterMap (fun j => (opDesc w c j).map fun d => (slotWritten c.opcode j, d)) ++
    (if c.opcode = 0x1A then (wingDesc w (pw c 1)).toList.map fun d => (false, d) else [])
  decide (0x10 ≤ c.opcode) && (List.range (img.plan.r + 2)).any fun j => [0, 1].any fun bank =>
    let i : Issue := { img := img, k := k, qi := 0, index := 0, cmd := c, beat := img.plan.r + 2 + j, bank := bank, dramBytes := 2 ^ 48 }
    let rs := ds.flatMap fun x => (descRanges i x.1 x.2).map fun r => (x.1, r)
    rs.any fun o => o.1 && rs.any fun x => !x.1 && o.2.1 == x.2.1 && overlaps o.2.2.1 o.2.2.2 x.2.2.1 x.2.2.2

/-- Every command of a Wing with its queue and whether it lies in a step list. -/
def wingCmds (w : WingPlan) : List (Nat × Bool × Cmd) :=
  (w.tables.flatMap fun t => t.queues.zipIdx.flatMap fun q => q.1.map fun c => (q.2, false, cmdOf c)) ++
  (w.steps.flatMap fun t => t.queues.zipIdx.flatMap fun q => q.1.map fun c => (q.2, true, cmdOf c))

/-- Ranges of R253 for logical Wing k: one step list for each best-effort job that runs on it, and no other. -/
def wingRanges (p : Plan) (k : Nat) (w : WingPlan) : Bool :=
  let jobs : List Nat := (p.jobs.filter fun j => j.bestEffort && bit j.wings k).map fun j => j.id
  let lists : List Nat := w.steps.map fun t => t.job
  range 1 65535 w.descs.length && range 1 64 w.tables.length &&
  (w.tables.all fun t => range 1 1048576 (t.queues.map List.length).sum) &&
  range 1 4096 w.schedule.length && (w.schedule.all fun x => decide (x < w.tables.length)) &&
  w.schedule.length == (p.wings.getD 0 {}).schedule.length &&
  (w.steps.all fun t => range 1 4096 (t.queues.map List.length).sum) &&
  decide lists.Nodup && lists.all jobs.contains && jobs.all lists.contains

/-- The job table (R269), the class of every command, n_ck (R285) and β_k (R261). The manual names no reason for a value outside these ranges
(DESIGN CHOICE, log entry 100). -/
def jobsOk (p : Plan) (cmds : List (Nat × WingPlan × Nat × Bool × Cmd)) : Bool :=
  range 1 256 p.jobs.length && (p.jobs.all fun j => decide (j.id ≤ 255)) && decide ((p.jobs.map fun j => j.id).Nodup) &&
  (cmds.all fun c => p.jobs.any fun j => j.id == c.2.2.2.2.job && j.bestEffort == cBestEffort c.2.2.2.2) && range 1 65535 p.nCk &&
  (List.range p.l).all fun k => range 8 64 (p.wings.getD k {}).beta

/-- A descriptor stays within its space, for every version of a Carried region and both adapter banks (R266). -/
def descFits (p : Plan) (w : WingPlan) (dram : Nat) (d : Desc) : Bool :=
  let size := if d.space = 0 then 0x3000000 else if d.space = 1 then dram else 0x100000
  if d.vsel = 0 then decide (d.addr + (if d.adp then w.adptStep else 0) + dExtent d ≤ size)
  else match p.regions.find? fun r => r.id == d.region with
    | some r => decide (d.addr + dExtent d ≤ r.size) && (match regionBase r d.space with
        | some b => decide (b + (p.r + 1) * r.stride + d.addr + dExtent d ≤ size)
        | none => false)
    | none => false

/-- A sequence class (R170): a key format of R193 and a value format of R194. -/
def classOk (c : SeqClass) : Bool :=
  let narrow := fun (f : Fmt) => fmtIsNarrowFloat f
  ([.int4, .int8, .e4m3, .bf16, .fp16].any fun q => keyOk q c.kFmt) && (!c.kScaled || narrow c.kFmt) && (valueOk .bf16 c.vFmt || valueOk .fp16 c.vFmt) &&
  (!c.vScaled || narrow c.vFmt) && range 1 64 c.hKv && range 32 256 c.dK && c.dK % 32 == 0 && range 32 256 c.dV && c.dV % 32 == 0 &&
  [16, 32, 64, 128, 256, 512, 1024].contains c.tP && range 1 65536 c.window && range 1 c.tP c.rowsMax &&
  range 1 16384 c.cap && 2 ^ Nat.log2 c.cap == c.cap && range (ceilDiv (c.window + c.rowsMax) c.tP + 1) c.cap c.nRet

/-- The five Carried regions of the allocator of a Wing that has sequence slots (R179): owned by it, in DRAM, and large enough (R176-R178, R202;
log entries 95 and 100). -/
def kvRegionsOk (p : Plan) (k : Nat) (w : WingPlan) : Bool :=
  let caps := (p.classes.map fun c => c.cap).foldl Nat.max 0
  let need := [64 * w.slotCount, 4 * w.slotCount * caps, 8 + 4 * w.pageCount, 8 * w.pageCount,
    w.slotCount * caps * (p.classes.map coarseBytes).foldl Nat.max 64]
  w.slotCount == 0 || (w.kvRegions.length == 5 && decide w.kvRegions.Nodup &&
    (w.kvRegions.zip need).all fun x => p.regions.any fun r => r.id == x.1 && r.owner == k && !r.gallery && decide (x.2 ≤ r.size))

/-- An encoder channel (R375). -/
def encOk (e : EncCfg) : Bool :=
  decide (e.mode ≤ 4 ∧ e.index ≤ 2) &&
  (match e.mode with
   | 1 => range 1 255 e.filtN
   | 2 | 3 => range 8 40 e.wordBits && range 20 2000 e.clkDiv && range 1 1000 e.reqPeriod
   | 4 => range 2 10 e.interp && (e.index == 0 || range 1 255 e.filtN) && decide (e.sGain < 65536 ∧ e.cGain < 65536) && adcOk e.sOff && adcOk e.cOff
   | _ => true)

def encUsed (p : Plan) (e : Nat) : Bool := match p.enc[e]? with
  | some c => c.mode != 0
  | none => false

/-- Lock-group sources name encoder channels in use (R311, R375). -/
def groupOk (p : Plan) : TrigSrc → Bool
  | .encoder e nT => encUsed p e && range 1 65535 nT
  | .period tT => range 1000 20000000 tT
  | _ => true

def iioCfg (p : Plan) (n : Nat) : IioCfg := match p.iio.find? fun x => x.1 == n with
  | some x => x.2
  | none => {}

/-- Photo-eye sources and recorded edges are inputs (R385). -/
def iioOk (p : Plan) : Bool :=
  (p.iio.all fun x => decide (x.1 < 64 ∧ x.2.dir ≤ 2 ∧ x.2.presc ≤ 16 ∧ x.2.outSrc ≤ 2 ∧ x.2.statusFn ≤ 7) &&
    (x.2.dir != 1 || range 1 255 x.2.filtN) && (!x.2.record || x.2.dir == 1)) &&
  p.sources.all fun x => match x.2.2 with
    | .photoEye ch _ _ => (iioCfg p ch).dir == 1
    | _ => true

/-- Ejector channels of a member: valve or direct, and number. -/
def memberChans (m : Member) : List (Bool × Nat) :=
  if m.kind = 1 then [(false, m.chan)]
  else if m.kind = 2 then (List.range (m.nvM1 + 1)).map fun i => (true, 256 * m.chan + m.v0 + i) else []

/-- The bound of R63 or R64 on Δ_min for d Beats of review and T_arm. -/
def budgetBound (p : Plan) (d tArm : Nat) : Nat :=
  let t := graceNs p + (1000 + 2 * (p.v + p.q)) + tArm
  if p.mode = 1 then (2 + p.r + d) * p.nB + ceilDiv (p.vMax * t) 1000000000
  else ceilDiv (p.vMax * ((2 + p.r + d) * p.pMin + t)) 1000000000

/-- Kind and profile of a verdict: the entry that DISP sets, or its default. -/
def disposition (d : Disp) (code detail : Nat) : Nat × Nat :=
  match d.map.find? fun e => e.1 == code && e.2.1 == detail with
  | some e => (e.2.2.1, e.2.2.2)
  | none => if code = 1 ∨ code = 3 then (1, 0) else (0, 0)

def profileOf (d : Disp) (n : Nat) : Profile := match d.profiles.find? fun p => p.1 == n with
  | some p => profileRec p.2
  | none => {}

/-- Firings that DISP admits for a channel: each member of a set that serves it, with each profile that an entry of the disposition map, set or
by default, gives that set (R55, R56, R392, R393). -/
def channelFirings (d : Disp) (ch : Bool × Nat) : List (Member × Profile) :=
  let kinds := (List.range 4).flatMap fun code => (List.range 256).map fun detail => disposition d code detail
  [(1, primarySet d), (2, secondarySet d)].flatMap fun set =>
    (set.2.filter fun m => (memberChans m).contains ch).flatMap fun m => ((kinds.filter fun k => k.1 == set.1).map fun k => k.2).eraseDups.map fun n => (m, profileOf d n)

/-- Δ_min of a channel in counts (R65): the fire count is the leading edge with the offsets of the member and the profile, and an object admits
at most L_max counts from its leading to its trailing edge, for a fused one w_t more (DEDUCED, log entry 101). -/
def deltaMin (p : Plan) (d : Disp) (ch : Bool × Nat) : Option Int :=
  let u : Int := if p.encChannel.isNone then 1000 else 1
  let len := (((List.range p.l).map fun k => (p.wings.getD k {}).asm.lMax).foldl Nat.max 0) + (p.fusions.map fun f => f.wT).foldl Nat.max 0
  match (channelFirings d ch).map fun x => (x.1.dist + x.2.a) * u - (len : Int) with
  | [] => none
  | x :: xs => some (xs.foldl min x)

/-- The recorded proof of the budget matches PLAN and DISP (R65): each channel that may fire has its Δ_min, and R63 or R64 holds for it. -/
def budgetOk (p : Plan) (d : Disp) : Bool :=
  ((primarySet d ++ secondarySet d).flatMap memberChans).eraseDups.all fun ch => match deltaMin p d ch with
    | none => true
    | some x => (p.budget.any fun b => b.valve == ch.1 && b.chan == ch.2 && b.ok && decide (b.deltaMin = x)) &&
        decide ((budgetBound p p.dR (if ch.1 then 4000 else 1000) : Int) ≤ x)

/-- The next command that completes when every command takes its WCC (R94): each queue has the time at which it is idle and its list; a head waits
for the count of its token among the signals so far. The least completion over the queues, with the queue and the token it signals. -/
def nextDone (qs : List (Nat × List Cmd)) (sigs : List (Nat × Nat)) : Option (Nat × Nat × Cmd) :=
  qs.zipIdx.foldl (fun best q => match q.1.2 with
    | [] => best
    | c :: _ =>
      let times := ((sigs.filter fun x => x.1 == c.waitTok).map fun x => x.2).mergeSort (· ≤ ·)
      match (if cWaitEn c then times[c.waitVal - 1]? else some 0) with
      | none => best
      | some t =>
        let done := Nat.max q.1.1 t + c.wcc
        match best with
        | some b => if done < b.1 then some (done, q.2, c) else best
        | none => some (done, q.2, c)) none

/-- The finish cycle of nine lists: none where a wait is never met. -/
def finishFrom : Nat → List (Nat × List Cmd) → List (Nat × Nat) → Nat → Option Nat
  | 0, _, _, last => some last
  | n + 1, qs, sigs, last =>
    if qs.all fun q => q.2.isEmpty then some last
    else match nextDone qs sigs with
      | none => none
      | some (t, j, c) => finishFrom n (qs.zipIdx.map fun q => if q.2 = j then (t, q.1.2.drop 1) else q.1)
          (if cSigEn c then sigs ++ [(c.sigTok, t)] else sigs) (Nat.max last t)

/-- F of a command table (R94, R425; DEDUCED, log entry 103). -/
def finishCycle (t : Table) : Option Nat :=
  finishFrom (t.queues.map List.length).sum (t.queues.map fun q => (0, q.map cmdOf)) [] 0

/-- T_load of logical Wing k (R424, R425): the WCCs of R261 for its Gallery-resident Carried versions and both adapter banks. -/
def loadCycles (p : Plan) (k : Nat) (w : WingPlan) : Nat :=
  let one := fun (n : Nat) => 640 + ceilDiv n w.beta + (if n % 512 = 0 then 0 else 700)
  (((p.regions.filter fun r => r.owner == k && r.gallery && r.mirror.isSome).map fun r => one r.size).sum) + (if w.adptSize = 0 then 0 else 2 * one w.adptSize)

/-- Samples of a line after unpacking (R329). -/
def lineSamples (i : Image) (port : Nat) : Nat := match (camEntries i).find? fun c => c.port == port with
  | some c => match pixFmt? c.pfnc with
    | some f => pixSamples f c.width
    | none => 0
  | none => 0

/-- The two rates of a pipe sum to at most 6.0 × 10⁹ pixels per second (R329). -/
def pipeFits (i : Image) : Bool := (List.range 8).all fun q =>
  decide (((i.isps.filter fun e => e.pipe == q).map fun e => 6 * ceilDiv (lineSamples i e.port) 6 * e.fC).sum ≤ 6000000000)

/-- The shares in use: those of the image, or the defaults of the boot device where the loader refuses them (R481). -/
def netShares (s : State) (i : Image) : List (List Nat) := if sharesOk i.net.shares then i.net.shares else s.boot.shares

/-- The highest rate of an interface in bit/s (R458). -/
def ifaceRate (iface : Nat) : Nat := if iface = 0 then 1000000000 else if iface = 1 then 2500000000 else 10000000000

/-- Bytes on the wire of n verdict records, and of an export of n bytes: 106 bytes of overhead a datagram (R482). -/
def verdictWire (n : Nat) : Nat := n / 21 * 1466 + if n % 21 = 0 then 0 else 64 * (n % 21) + 122
def exportWire (n : Nat) : Nat := n + ceilDiv n 1348 * 122

/-- The verdict and peer shares of each port in use carry what a Beat sends (R482, log entry 110). -/
def netFits (s : State) (i : Image) : Bool :=
  let p := i.plan
  let verdicts := i.net.dests.length * verdictWire (p.v + p.q)
  let peers := 126 * s.boot.peers.length + (p.streams.map fun x => x.peers.length * (x.areas.map fun a => exportWire a.2).sum).sum
  let fits := fun (e : EthPort) (cls bytes : Nat) =>
    decide (bytes * 8 * 1000000000 * 100 ≤ ((netShares s i).getD e []).getD cls 0 * ifaceRate (s.net.port[e]).cfg.iface * p.pMin)
  (List.finRange 2).all fun e => !(s.net.port[e]).cfg.enabled || (fits e 2 verdicts && fits e 3 peers)

/-- The recorded results of the proofs that the loader recomputes match (R94, R329, R425, R482). -/
def proofsOk (s : State) (i : Image) : Bool :=
  let p := i.plan
  let ws := (List.range p.l).map fun k => p.wings.getD k {}
  p.pipeOk == pipeFits i && p.netOk == netFits s i && (ws.all fun w => w.tables.all fun t => finishCycle t == some t.finish) &&
  ws.zipIdx.all fun w => w.1.tLoad == loadCycles p w.2 w.1

/-! Data that a command reads from the image, as far as the loader can follow it (log entry 102): through the weight copies of a Gallery slice,
and through a COPY that is the only one of the Wing's lists that writes the place. -/

/-- Offset in A of the byte at an offset of C in a COPY (R260): the logical element in its place of the other pitch. -/
def copySource (a c : Desc) (off : Nat) : Option Nat :=
  if !dRow c || a.pitch == c.pitch || decide (c.d1 = 1) then some off
  else
    let f := dFmt c
    let st := (off / 512 * 512 * 8 + (off % 512) * 8) / fmtBits f
    if fmtBits f < 8 ∨ c.d0 ≤ st % c.pitch then none
    else some (elemByte f (rowIdx a (st / c.pitch) (st % c.pitch)) + off % (fmtBits f / 8))

/-- DRAM address of the image byte that stands at an address of a space of logical Wing k, if the loader can tell. -/
def imageByte (i : Image) (w : WingPlan) : Nat → Nat → Nat → Option Nat
  | 0, _, _ => none
  | fuel + 1, sp, a =>
    if sp = 1 then (if i.dramInit.any fun x => within a 1 x.1 x.2.length then some a else none)
    else match (if sp = 0 then i.segments.find? fun g => within a 1 g.gal g.len else none) with
      | some g => some (g.master + (a - g.gal))
      | none =>
        match ((wingCmds w).map fun c => c.2.2).filter fun c => decide (c.opcode = 8 ∨ c.opcode = 9) && (match opDesc w c 2 with
            | some d => d.space == sp && d.vsel == 0 && within a 1 d.addr (dExtent d)
            | none => false) with
        | [c] => match opDesc w c 0, opDesc w c 2 with
          | some x, some d => if x.vsel ≠ 0 ∨ x.adp ∨ d.adp then none else (copySource x d (a - d.addr)).bind fun o => imageByte i w fuel x.space (x.addr + o)
          | _, _ => none
        | _ => none

/-- The raw content of a ROW operand from the image, if all of it can be followed. -/
def imageRaw (i : Image) (w : WingPlan) (d : Desc) (n : Nat) : Option (List Byte) :=
  let m := i.dramInit.foldl (fun m x => memWrites m x.1 x.2) []
  if d.vsel ≠ 0 ∨ d.adp then none
  else (List.range n).mapM fun j => (imageByte i w 4 d.space (rawAddr { d := d, space := d.space, addr := d.addr } j)).map (memRead m)

/-- The rules of a VERDICT command that the image supplies are those of R243 and R245. -/
def rulesOk (i : Image) (w : WingPlan) (c : Cmd) : Bool :=
  if c.opcode ≠ 0x40 then true
  else match opDesc w c 0, opDesc w c 4 with
    | some a, some p =>
      let n := bits (pw c 0) 0 7
      (match imageRaw i w p (16 * n) with
       | some bs => (List.range n).all fun j => vRuleOk a.d0 (bit (pw c 2) 0) (vRule ((bs.drop (16 * j)).take 16))
       | none => true)
    | _, _ => true

/-- The checks of PLAN. -/
def planChecks (s : State) (i : Image) : List Check :=
  let p := i.plan
  let ws := (List.range p.l).map fun k => p.wings.getD k {}
  let dram := dramBytes s
  let cmds := ws.zipIdx.flatMap fun w => (wingCmds w.1).map fun c => (w.2, w.1, c)
  let sigma := sigmaK p
  [⟨range 100000000 1250000000 p.fPlan && decide (p.galleryMiB ≤ 48), 5, 0, 0⟩,
   ⟨decide (p.minGiB ≤ fieldW s.mem.dramCfg 8 9 ∧ p.minRate ≤ rateOf (fieldW s.mem.dramCfg 1 3)), 8, 0, 0⟩,
   ⟨wingCountOk p.l p.noSpare (availWings s).length, 7, 0, 0⟩,
   ⟨if p.mode = 0 then range 50000 20000000 p.pMin
     else decide (p.mode = 1 ∧ 50000 ≤ p.pMin ∧ p.pMin ≤ p.pMax ∧ p.pMax ≤ 20000000) && range 1 16777215 p.nB, 6, 0, 0⟩,
   ⟨range 2000 65535 p.guardNs && range 1 3 p.r, 6, 0, 0⟩,
   ⟨(camEntries i).all fun c => p.lineCap.any fun x => x.1 == c.port && decide (0 < x.2), 6, 0, 0⟩,
   ⟨decide (p.v + p.q ≤ 16384) && (ws.all fun w => w.vShare.isSome && w.qShare.isSome) &&
     (ws.map fun w => w.vShare.getD 0).sum == p.v && (ws.map fun w => w.qShare.getD 0).sum == p.q, 6, 0, 0⟩,
   ⟨decide (p.q ≤ 4096) && range 1 16 p.dR && decide (p.reviewGiB ≤ 60), 6, 0, 0⟩,
   ⟨ws.zipIdx.all fun w => wingRanges p w.2 w.1, 6, 0, 0⟩,
   ⟨jobsOk p cmds, 6, 0, 0⟩,
   ⟨range 4096 1048576 p.omega && ws.all fun w => w.tables.all fun t =>
      (List.range 9).all fun q => decide ((t.checks.filter fun c => c.1 == q).length ≤ 64), 6, 0, 0⟩,
   ⟨cmds.all fun c => !tokenBreach c.2.2.2.1 c.2.2.2.2, 6, 0, 0⟩,
   ⟨decide ((ws.map fun w => w.slotCount).sum ≤ 32768) && ws.zipIdx.all fun w => kvRegionsOk p w.2 w.1, 6, 0, 0⟩,
   ⟨p.classes.all (fun c => classOk c && decide (pageBytes c ≤ 16384)) && decide (p.classes.length ≤ 16), 5, 0, 0⟩,
   ⟨ws.all fun w => w.descs.all fun b => descOk w (descOf b) && descFits p w dram (descOf b), 5, 0, 0⟩,
   ⟨cmds.all fun c => !cmdFault i c.1 c.2.2.1 c.2.2.2.1 c.2.2.2.2 && !overlapBad i c.1 c.2.1 c.2.2.2.2, 5, 0, 0⟩,
   ⟨decide (p.groups.length ≤ 8) && p.enc.all encOk && (match p.encChannel with | some e => encUsed p e | none => p.mode == 0) && p.groups.all (groupOk p), 5, 0, 0⟩,
   ⟨iioOk p, 5, 0, 0⟩,
   ⟨cmds.all fun c => rulesOk i c.2.1 c.2.2.2.2, 5, 0, 0⟩,
   ⟨ws.all fun w => w.tables.all fun t => t.queues.zipIdx.all fun q =>
      (if q.2 = 0 then chainWccs (q.1.map cmdOf) 0 else q.1.map fun c => (cmdOf c).wcc).all fun x => decide (x ≤ sigma), 9, 0, 0⟩,
   ⟨ws.all fun w => w.schedule.all fun t => decide (w.tLoad + (w.tables.getD t {}).finish ≤ lambdaK p), 9, 0, 0⟩,
   ⟨budgetOk p i.disp && proofsOk s i, 9, 0, 0⟩,
   ⟨p.computeOk && p.dramOk && p.footOk && p.ownerOk && p.kvOk && p.verdictOk && p.pipeOk && p.repeatOk && p.loadOk && p.netOk, 9, 0, 0⟩]

/-! ### WGT -/

/-- Recovers the weights g of a transformed tile and checks B′ = G′ g G′ᵀ (R154). -/
def winoTileOk (f : Fmt) (u : List Int) : Bool :=
  let at' := fun (a b : Nat) => u.getD (4 * a + b) 0
  let g00 := at' 0 0 / 4
  let g02 := at' 0 3 / 4
  let g20 := at' 3 0 / 4
  let g22 := at' 3 3 / 4
  let g01 := at' 0 1 / 2 - g00 - g02
  let g10 := at' 1 0 / 2 - g00 - g20
  let g21 := at' 3 1 / 2 - g20 - g22
  let g12 := at' 1 3 / 2 - g02 - g22
  let g11 := at' 1 1 - (g00 + g01 + g02 + g10 + g12 + g20 + g21 + g22)
  let g := [[g00, g01, g02], [g10, g11, g12], [g20, g21, g22]]
  let gp : List (List Int) := [[2, 0, 0], [1, 1, 1], [1, -1, 1], [0, 0, 2]]
  let dot := fun (a b : List Int) => ((a.zip b).map fun x => x.1 * x.2).sum
  let col := fun (m : List (List Int)) (j : Nat) => m.map fun r => r.getD j 0
  let w := gp.map fun r => (List.range 3).map fun j => dot r (col g j)
  let v := w.flatMap fun r => gp.map fun q => dot r q
  let lim : Int := if f = .int4 then 8 else 128
  decide (u.length = 16 ∧ v = u) && g.all fun r => r.all fun x => decide (-lim ≤ x ∧ x < lim)

/-- Offset of the bank of logical Wing k in an ADPT section or a set: the banks of the Wings below it come first (log entry 16). -/
def bankOffset (p : Plan) (k : Nat) : Nat := ((List.range k).map fun j => (p.wings.getD j {}).adptSize).sum

/-- What the loader writes to DRAM of an image's contents (R515): what the sections place, and the ADPT section in the master of bank 0 of
each logical Wing (R286). -/
def loadedPieces (i : Image) : List (Nat × List Byte) :=
  let set := sectBytes i 10
  i.dramInit ++ if set.isEmpty then [] else (List.range i.plan.l).map fun k =>
    let w := i.plan.wings.getD k {}
    (w.adptMaster, padTo w.adptSize (set.drop (bankOffset i.plan k)))

def loadedDram (m : Memory) (i : Image) : Memory := (loadedPieces i).foldl (fun m x => memWrites m x.1 x.2) m

/-- The memory with an image's contents in DRAM: a block that is written whole takes a good CRC-32C (R69). -/
def placeImage (m : Mem) (i : Image) : Mem :=
  { m with dram := loadedDram m.dram i, bad := m.bad.filter fun b => !(loadedPieces i).any fun x => within (512 * b) 512 x.1 x.2.length }

/-- A stream header of a compressed weight section (R98, R237, R241): its format is in use, and neither its blocks nor the dimensions declared
for the section exceed what PLAN plans for the tensor. -/
def zstreamOk (m : Memory) (i : Image) (z : ZStream) : Bool :=
  let h := memReads m z.at' 16
  let d := descOf z.desc
  (fmtOfCode (leAt h 4 1)).isSome && (fmtOfCode d.fmt).isSome &&
  match wingDesc (i.plan.wings.getD z.lw {}) z.idx with
  | some p => decide (leAt h 0 4 ≤ ceilDiv (dExtent p) 512 ∧ d.d0 ≤ p.d0 ∧ d.d1 ≤ p.d1 ∧ d.d2 ≤ p.d2 ∧ d.d3 ≤ p.d3)
  | none => false

/-- The transformed weights that WGT supplies to a WINO2 command come from integer weights of the original format (R154): taps, then output
channels, then input channels. The image states that format beside the descriptor; INT8 where it states none (log entry 102). -/
def winoWeightsOk (i : Image) (k : Nat) (w : WingPlan) (c : Cmd) : Bool :=
  if c.opcode ≠ 0x12 then true
  else match opDesc w c 1 with
    | some b => match imageRaw i w b (2 * dElems b) with
      | some bs =>
        let f := ((i.wino.find? fun x => x.lw == k && x.idx == c.opnd.getD 1 0xFFFF).map fun x => x.fmt).getD .int8
        let cout := b.d1 / 16
        (f == .int4 || f == .int8) && (List.range cout).all fun co => (List.range b.d0).all fun ci =>
          winoTileOk f ((List.range 16).map fun tap => sext 16 (leAt bs (2 * ((tap * cout + co) * b.d0 + ci)) 2))
      | none => true
    | none => true

def wgtChecks (s : State) (i : Image) : List Check :=
  let m := loadedDram s.mem.dram i
  let ws := (List.range i.plan.l).map fun k => i.plan.wings.getD k {}
  [⟨i.segments.all fun g => decide (g.len ≤ 1048576) && decide (sha3 (memReads m g.master g.len) = g.digest), 4, 1, 0⟩,
   ⟨(i.zstreams.filter fun z => !z.adpt).all (zstreamOk m i), 5, 1, 0⟩,
   ⟨ws.zipIdx.all fun w => (wingCmds w.1).all fun c => winoWeightsOk i w.2 w.1 c.2.2, 5, 1, 0⟩]

/-- The checks of ADPT (R241). -/
def adptChecks (s : State) (i : Image) : List Check :=
  [⟨(i.zstreams.filter fun z => z.adpt).all (zstreamOk (loadedDram s.mem.dram i) i), 5, 10, 0⟩]

/-! ### CAM and ISP -/

def camSpeeds : List Nat := [1, 2, 3, 5, 6, 10, 12]

/-- A set-up step (R305). -/
def stepOk (t : SetupStep) : Bool :=
  decide (t.op ≤ 2 ∧ t.width ≤ 1 ∧ t.addr % 4 = 0) && t.resv == 0 &&
  (match t.op with
   | 0 => t.width == 1 || t.mask == 0
   | 2 => t.addr == 0 && range 1 1000000 t.value && t.mask == 0
   | _ => true)

/-- A CAM entry (R127, R128, R296, R300, R302). -/
def camOk (c : CamEntry) : Bool :=
  decide (c.port < 16) && [1, 2, 4].contains c.laneCount && c.laneBase % c.laneCount == 0 && decide (c.laneBase + c.laneCount ≤ 32) &&
  camSpeeds.contains c.speed && decide (c.peak < 32) && (c.lockGroup == 0xFF || decide (c.lockGroup < 8)) && decide (c.faultIn < 64) &&
  range 1 65535 c.width && range 10 10000 c.hbTimeout && decide (c.pwrDelay ≤ 10000) && c.seqOff % 16 == 0 &&
  range 1 1024 c.seq.length && [0x0101, 0x0200, 0x0201].contains c.minRev && c.resv == 0 &&
  (!c.hsUplink || decide (0x0200 ≤ c.minRev)) && (decide (c.speed < 10) || decide (0x0200 ≤ c.minRev)) && c.seq.all stepOk &&
  (match pixFmt? c.pfnc with
   | some f => widthOk f c.width && (match f.kind with | .bicolor _ => c.width % 2 == 0 | _ => true)
   | none => false)

/-- Lanes of an entry. -/
def camLanes (c : CamEntry) : List Nat := (List.range c.laneCount).map fun j => c.laneBase + j

def camChecks (i : Image) : List Check :=
  let cams := camEntries i
  [⟨decide (cams.length ≤ 16) && (cams.all fun c => camOk c && decide (c.seqOff + 16 * c.seq.length ≤ (sectBytes i 2).length)) &&
     decide ((cams.map fun c => c.port).Nodup) && decide (cams.flatMap camLanes).Nodup, 5, 2, 0⟩,
   ⟨cams.all fun c => !c.faultUsed || (iioCfg i.plan c.faultIn).dir == 1, 5, 2, 0⟩]

/-- The CAM entry of a port. -/
def camOf (i : Image) (p : Nat) : Option CamEntry := (camEntries i).find? fun c => c.port == p

/-- The defect list is sorted, without a duplicate and inside the frame (R336). -/
def defectsOk (n h : Nat) (area : Bool) (l : List (Nat × Nat)) : Bool :=
  decide (l.length ≤ 4096) && (l.all fun x => decide (x.1 < n) && (!area || decide (x.2 < h))) &&
  (l.zip (l.drop 1)).all fun x => if area then decide (x.1.2 < x.2.2 ∨ (x.1.2 = x.2.2 ∧ x.1.1 < x.2.1)) else decide (x.1.1 < x.2.1)

/-- An output stream lies inside the line (R340). -/
def streamOk (w : Nat) (o : OutStream) : Bool :=
  decide (o.x0 + o.w ≤ w ∧ 0 < o.w) && [1, 2, 4, 8].contains o.fh && [1, 2, 4, 8].contains o.fv && o.w % o.fh == 0 && decide (o.shift ≤ 8 ∧ o.comp ≤ 4)

def ispOk (i : Image) (e : IspEntry) : Bool :=
  match camOf i e.port with
  | none => false
  | some c => match pixFmt? c.pfnc with
    | none => false
    | some f =>
      decide (e.pipe < 8 ∧ e.input < 2) && decide (e.streams.length ≤ 4) && e.streams.all (streamOk (outWidth f c.width)) && range 1 65535 e.hF &&
      defectsOk c.width e.hF e.area e.tables.defects && decide (e.delta ≤ 65535) &&
      (!e.calEn || (range 2 65535 e.calK && range 1 2147483647 e.nMin && e.target.all (range 1 65535) && decide (e.mapStream < e.streams.length)))

def ispChecks (i : Image) : List Check :=
  [⟨((camEntries i).map fun c => c.port).all (fun p => i.isps.any fun e => e.port == p) && decide (i.isps.length = i.cams.length) &&
     decide ((i.isps.map fun e => (e.pipe, e.input)).Nodup) && i.isps.all (ispOk i), 5, 3, 0⟩]

/-! ### SEC, TOK, DISP, INIT -/

/-- No granule of the reserved top 64 MiB is non-secure (R518). -/
def secChecks (s : State) (i : Image) : List Check :=
  [⟨i.secmap.dramOpen.all fun g => decide ((g + 1) * 16777216 + 67108864 ≤ dramBytes s), 5, 5, 0⟩]

def tokChecks (i : Image) : List Check :=
  [⟨decide (i.tok.length + 256 ≤ 65536) && i.tok.all (fun t => range 2 64 t.length) && decide i.tok.Nodup, 5, 7, 0⟩]

/-- A member record (R390). -/
def memberOk (m : Member) : Bool :=
  m.kind == 0 ||
  (m.resv == 0 && range 1 65535 m.onMin &&
   (if m.kind = 1 then decide (m.chan < 64) && m.v0 == 0 && m.nvM1 == 0 && m.wV == 0
    else m.kind == 2 && decide (m.chan < 4 ∧ m.v0 + m.nvM1 ≤ 255) && m.xHi == 0 && range 1 0xFFFFFFFF m.wV))

/-- Limits of a channel agree in every member, and no valve of a set is covered twice (R390). -/
def membersOk (d : Disp) : Bool :=
  let lim := fun (m : Member) => (m.onMin, m.onMax, m.offMin)
  let both := primarySet d ++ secondarySet d
  let all' := both.flatMap fun m => (memberChans m).map fun c => (c, lim m)
  decide (d.primary.length ≤ 8 ∧ d.secondary.length ≤ 8) && both.all memberOk &&
  all'.all (fun x => all'.all fun y => x.1 != y.1 || x.2 == y.2) &&
  [primarySet d, secondarySet d].all fun l => decide ((l.flatMap fun m => (memberChans m).filter fun c => c.1).Nodup)

/-- A firing profile (R391). -/
def profileOk (p : Profile) : Bool :=
  p.resv == 0 && (!p.fixed || p.e != 0)

/-- The disposition map (R55, R56). -/
def mapOk (m : List (Nat × Nat × Nat × Nat)) : Bool :=
  m.all fun x => decide (x.1 ≤ 3 ∧ x.2.1 ≤ 255 ∧ x.2.2.1 ≤ 2 ∧ x.2.2.2 < 64) && (x.1 != 2 || x.2.2.1 == 0)

def dispChecks (i : Image) : List Check :=
  [⟨mapOk i.disp.map && membersOk i.disp && i.disp.profiles.all (fun p => decide (p.1 < 64) && profileOk (profileRec p.2)), 0x0A, 8, 0⟩,
   ⟨(primarySet i.disp ++ secondarySet i.disp).all fun m => m.kind != 1 ||
      ((iioCfg i.plan m.chan).dir == 2 && (iioCfg i.plan m.chan).outSrc == 0), 5, 8, 0⟩]

/-- Bits of a register that an INIT entry may cover (R580). -/
def initMask (addr : Nat) : Option Nat :=
  if addr = 0xB0000 then some 0x00FFFF01 else if addr = 0xB0040 then some 3
  else if addr = 0x60410 ∨ addr = 0x60414 then some 0xFFFFFFFF else none

/-- An INIT entry after those before it (R581). -/
def initOk (before : List InitWrite) (w : InitWrite) : Bool :=
  match initMask w.addr with
  | none => false
  | some m => w.resv == 0 && decide (w.mask.toNat ≠ 0) && w.mask.toNat &&& m == w.mask.toNat && !before.any fun b => b.lock && b.addr == w.addr

def initChecks (i : Image) : List Check :=
  let ws := initWrites i
  ⟨decide (ws.length ≤ 256), 5, 9, 0⟩ ::
  ws.zipIdx.map fun w => ⟨initOk (ws.take w.2) w.1, 5, 9, 4 + 16 * w.2⟩

/-! ### The loader (R515) -/

/-- The checks in their order. -/
def loadChecks (s : State) (slotCap : Nat) (i : Image) : List Check :=
  [⟨imgMagic i == 0x4E43504F && imgFormat i == 1, 2, 0xFF, 0⟩,
   ⟨decide (imgLen i ≤ 64 * 2 ^ 30 ∧ imgLen i ≤ slotCap) && layoutOk i, 5, 0xFF, 0⟩,
   ⟨signOk s i, 3, 11, 0⟩,
   ⟨decide (s.fuse.svn ≤ imgSvn i ∧ imgSvn i ≤ 64), 2, 0xFF, 0⟩,
   ⟨digestsOk i, 4, 0xFF, 0⟩,
   ⟨imgDevice i == 0xD8 && imgContract i == 0x0100 && i.plan.device == 0xD8 && i.plan.contract == 0x0100, 5, 0, 0⟩] ++
  planChecks s i ++ wgtChecks s i ++ camChecks i ++ ispChecks i ++ secChecks s i ++ tokChecks i ++ dispChecks i ++ initChecks i ++ adptChecks s i

/-- What the loader finds against an image: none if it accepts it. -/
def loadFail (s : State) (slotCap : Nat) (i : Image) : Option Check := firstFail (loadChecks s slotCap i)

/-- Capacity of a slot (R502). -/
def slotCap (s : State) (j : Nat) : Nat := s.boot.slotCap.getD j 0

end Sys2Proof.Machine
end

