-- ==== Sys2Proof/Machine/World.lean ====
section
/-! DEFINITION. The secure and non-secure worlds of the units (R518, R519): what a non-secure unit may reach, and what happens where
it may not. -/

namespace Sys2Proof.Machine

open Sys2Proof

/-- The map that is applied: none before it is locked and none in hold, where every unit is secure (R519). -/
def mapInForce (s : State) : Option SecMap := if s.sec.phase = 7 then none else s.sec.map

/-- A granule of the map that the byte at an address lies in is secure: DRAM by 16 MiB, the Gallery of a logical Wing by 64 KiB. The tile
stores belong to their Wing. -/
def secureAt (m : SecMap) (k sp a : Nat) : Bool :=
  if sp = 1 then !m.dramOpen.contains (a / 16777216) else if sp = 0 then !m.galOpen.contains (k, a / 65536) else false

/-- The first block of a range that lies in a secure granule. -/
def secureBlock (m : SecMap) (k sp a n : Nat) : Option Nat := (blocksOf a n).find? fun b => secureAt m k sp (512 * b)

/-- The map, for a unit that it makes non-secure. -/
def openUnit (s : State) (secure : SecMap → Bool) : Option SecMap := (mapInForce s).filter fun m => !secure m

/-- n accesses of a non-secure unit to secure granules are counted. -/
def violations : Nat → State → State
  | 0, s => s
  | n + 1, s => violations n (violation s)

/-- A write of a unit to DRAM: dropped and counted where a non-secure unit meets a secure granule. -/
def unitWrite (s : State) (secure : SecMap → Bool) (a : Nat) (bs : List Byte) : State :=
  match openUnit s secure with
  | some m => if (secureBlock m 0 1 a bs.length).isSome then violation s else dramWrite s a bs
  | none => dramWrite s a bs

/-- The cells by which two memories differ, with the values of the second. -/
def memDiff (a b : Memory) : List Host.Cell :=
  (b.filter fun c => memRead a c.1 != c.2) ++ (a.filter fun c => memRead b c.1 != c.2).map fun c => (c.1, memRead b c.1)

/-- A memory after a non-secure unit ran: bytes of secure granules keep what they held. -/
def keepSecure (m : SecMap) (k sp : Nat) (old new : Memory) : Memory :=
  (memDiff new old).foldl (fun x c => if secureAt m k sp c.1 then memWrite x c.1 c.2 else x) new

end Sys2Proof.Machine
end

