-- ==== Sys2Proof/Machine/Ring.lean ====
section
/-! DEFINITION. The stream rings in DRAM (R341): r + 3 interval buffers, each with its lines and beside them a flag byte and a tag
for each line. The manual does not place them within a buffer: log entry 27. -/

namespace Sys2Proof.Machine

open Sys2Proof

/-- The CAM and ISP entries of a port in the image in force. -/
def camEntry (s : State) (p : Nat) : Option CamEntry := s.img.bind fun i => camOf i p
def ispEntry (s : State) (p : Nat) : Option IspEntry := s.img.bind fun i => i.isps.find? fun e => e.port == p

/-- Line capacity of a camera per capture interval (R42). -/
def capLines (s : State) (p : Nat) : Nat := match (planOf s).lineCap.find? fun x => x.1 == p with
  | some x => x.2
  | none => 0

/-- Pixels and components of an output line. -/
def outPixels (o : OutStream) : Nat := o.w / o.fh
def outComps (o : OutStream) : Nat := if o.comp = 4 then 3 else 1

/-- Elements from the start of one line to the next: the ROW pitch, or one line of C16 blocks (R138, R340). -/
def linePitch (o : OutStream) : Nat := if o.layout = 1 then 16 * outPixels o else ceilDiv (outPixels o * outComps o) 32 * 32

def elemSize (o : OutStream) : Nat := if o.u8 then 1 else 2

/-- Output lines that a stream forms from the line capacity. -/
def bufLines (s : State) (p : Nat) (o : OutStream) : Nat := capLines s p / o.fv + 1

/-- Bytes of the lines of a buffer, a multiple of 512, and of a whole buffer. -/
def dataBytes (s : State) (p : Nat) (o : OutStream) : Nat := ceilDiv (bufLines s p o * linePitch o * elemSize o) 512 * 512
def bufBytes (s : State) (p : Nat) (o : OutStream) : Nat := dataBytes s p o + ceilDiv (8 * bufLines s p o) 512 * 512

/-- Address of an interval's buffer. -/
def bufAddr (s : State) (p : Nat) (o : OutStream) (ivl : Nat) : Nat := o.ring + ivl % ((planOf s).r + 3) * bufBytes s p o

/-- Address of a line's flag byte; its tag follows four bytes on. -/
def metaAddr (s : State) (p : Nat) (o : OutStream) (ivl index : Nat) : Nat := bufAddr s p o ivl + dataBytes s p o + 8 * index

/-- The calibration tap as a stream: full width, UINT16, ROW (R347). -/
def tapStream (e : IspEntry) (n : Nat) : OutStream := { x0 := 0, w := n, ring := e.tapRing }

/-- Samples of a line of a camera. -/
def camSamples (s : State) (p : Nat) : Nat := match (camEntry s p).bind fun c => (pixFmt? c.pfnc).map fun f => pixSamples f c.width with
  | some n => n
  | none => 0

/-- Output stream j of a camera; 4 is the calibration tap, where live calibration is enabled (R341, R347). -/
def ringStream (s : State) (p j : Nat) : Option OutStream := match ispEntry s p with
  | some e => if j = 4 then (if e.calEn then some (tapStream e (camSamples s p)) else none) else e.streams[j]?
  | none => none

/-- Position of the next line of a stream in its interval buffer. -/
def nextOut (c : IspCam) (j ivl : Nat) : Nat := match vGet? c.outs j with
  | some x => if x.1 = ivl then x.2 else 0
  | none => 0

/-- Sets flags on the last line of an interval that stream j wrote, in its ring and in the record of the lines. -/
def flagWritten (s : State) (p : Port) (j ivl mask : Nat) : State := match ringStream s p j, nextOut s.isp.cam[p] j ivl with
  | some o, k + 1 =>
    let a := metaAddr s p o ivl k
    let s := unitWrite s (fun m => m.pipes) a [memRead s.mem.dram a ||| BitVec.ofNat 8 mask]
    let mark := fun (l : RingLine) => if l.stream = j ∧ l.ivl = ivl ∧ l.index = k then { l with flags := l.flags ||| mask } else l
    { s with isp := { s.isp with cam := s.isp.cam.set p { s.isp.cam[p] with ring := (s.isp.cam[p]).ring.map mark } } }
  | _, _ => s

/-- Writes a line with its flags and tag. -/
def ringWrite (s : State) (p : Nat) (o : OutStream) (ivl index flags : Nat) (tag : Word) (vals : List Nat) : State :=
  let a := bufAddr s p o ivl + index * linePitch o * elemSize o
  let spaced := if o.layout = 1 then (chunks (outComps o) vals.length vals).flatMap fun g => g ++ List.replicate (16 - g.length) 0 else vals
  let s := unitWrite s (fun m => m.pipes) a (spaced.flatMap fun v => leBytes (elemSize o) v)
  unitWrite s (fun m => m.pipes) (metaAddr s p o ivl index) (leBytes 1 flags ++ leBytes 3 0 ++ leBytes 4 tag.toNat)

end Sys2Proof.Machine
end

