-- ==== Sys2Proof/Machine/Cameras.lean ====
section
/-! DEFINITION. Camera ports and lanes: link attempts, losses, re-links, triggers, and the reception of lines up to the pipe FIFO
and the input digest (R294-R327, R331, R333). -/

namespace Sys2Proof.Machine

open Sys2Proof

/-! ### Access -/

def updPort (s : State) (p : Port) (f : CamPort → CamPort) : State := { s with cam := { s.cam with port := s.cam.port.set p (f s.cam.port[p]) } }
def updIsp (s : State) (p : Port) (f : IspCam → IspCam) : State := { s with isp := { s.isp with cam := s.isp.cam.set p (f s.isp.cam[p]) } }

/-- Flags of CAM_STATUS (R327) and ISP_STATUS (R370). -/
def camFlag (s : State) (mask : Nat) : State := { s with cam := { s.cam with status := orW s.cam.status mask } }
def ispFlag (s : State) (mask : Nat) : State := { s with isp := { s.isp with status := orW s.isp.status mask } }

/-- Lanes of a port, as numbers. -/
def portLanes (s : State) (p : Nat) : List Nat := match camEntry s p with
  | some e => camLanes e
  | none => []

/-- The port that owns a lane. -/
def lanePort (s : State) (l : Nat) : Option Port := (List.finRange 16).find? fun p => (portLanes s p).contains l

def updLanes (s : State) (p : Nat) (f : Nat → LaneSt → LaneSt) : State :=
  let ls := portLanes s p
  { s with cam := { s.cam with lane := Vector.ofFn fun l : Fin 32 => if ls.contains l.val then f l s.cam.lane[l] else s.cam.lane[l] } }

/-- Lanes Sleep (R299): a port that is down. -/
def sleepLanes (s : State) (p : Nat) : State := updLanes s p fun _ l => { l with rx := 1, tx := false, locked := false }

/-- Lanes On (R299): the transmitter of the master lane only. -/
def wakeLanes (s : State) (p : Nat) : State :=
  let m := (portLanes s p).headD 0
  updLanes s p fun j l => { l with rx := 2, tx := j == m, locked := false }

def lockLanes (s : State) (p : Nat) : State := updLanes s p fun _ l => { l with locked := true }

/-- The fault input that the CAM entry of a port names is asserted: its filtered level (R320). -/
def faultAsserted (s : State) (p : Nat) : Bool := match camEntry s p with
  | some e => e.faultUsed && (vGet? s.iio.level e.faultIn).getD false
  | none => false

/-- The port is up: state 3 or 4. -/
def portUp (x : CamPort) : Bool := x.state == 3 || x.state == 4

/-- The lanes of a port are in lock: it is up, or its attempt is past its first lock and not waiting for the second. -/
def receiving (x : CamPort) : Bool := portUp x || (x.state == 1 && match x.stage with
  | .idle | .power | .lock _ => false
  | _ => true)

/-! ### Control packets (R295, R303, R305, R306) -/

/-- The lane and the control command of a stage of an attempt. -/
def stageOp (e : CamEntry) : Stage → Option (Nat × CtlOp)
  | .revision => some (e.laneBase, .readRevision)
  | .connId j => some (e.laneBase + j, .readConnId)
  | .connCfg => some (e.laneBase, .writeConnConfig e.speed e.laneCount)
  | .setup j => (e.seq[j]?).map fun t =>
      (e.laneBase, if t.op = 1 then .readReg t.addr (t.width == 1)
        else .writeReg t.addr (t.value + (if t.width = 1 then t.mask <<< 32 else 0)) (t.width == 1))
  | _ => none

/-- The control packet of the present stage is sent, in the tagged form when the camera is 2.0 or 2.1. -/
def sendControl (s : State) (p : Port) : State :=
  match (camEntry s p).bind fun e => stageOp e (s.cam.port[p]).stage with
  | some x => { s with cam := { s.cam with ctrl := s.cam.ctrl ++ [{ port := p, lane := x.1, tagged := decide (0x0200 ≤ (s.cam.port[p]).rev), op := x.2 }] } }
  | none => s

/-- The attempt enters a stage, and sends its control command. -/
def enterStage (s : State) (p : Port) (st : Stage) : State :=
  sendControl (updPort s p fun x => { x with stage := st, sends := 1, waiting := none, holdC := s.c }) p

/-! ### Attempts (R303, R316, R319) -/

/-- The D8 brings its ports up at start: readiness has not been declared since the device reset (R304). -/
def atStart (s : State) : Bool := s.sec.phase == 5 && !s.start.dieOnly

/-- An attempt starts: PoCXP on with its delay, or the lanes at CXP-1. While the fault input is asserted the port waits in hold-off (R320). -/
def startAttempt (s : State) (p : Port) : State := match camEntry s p with
  | none => s
  | some e =>
    let x := s.cam.port[p]
    if x.fault || faultAsserted s p then updPort s p fun x => { x with state := 2, stage := .idle, cycling := false, holdC := s.c }
    else if e.pocxp && x.enable != some true then
      updPort s p fun x => { x with
        state := 1, stage := .power, enable := some true, cycling := false, holdC := s.c, sends := 0, waiting := none, connIds := []
        rev := 0, badHdr := false, first := x.first && atStart s }
    else
      wakeLanes (updPort s p fun x => { x with
        state := 1, stage := .lock false, cycling := false, holdC := s.c, sends := 0, waiting := none, connIds := []
        rev := 0, speed := 1, fast := false, badHdr := false, first := x.first && atStart s }) p

/-- An attempt fails with a cause (R303, R316): hold-off, power cycle after every third failure, or given up. A port without the required
flag that fails at start stays down, and waits for the host (R304, log entry 79). -/
def failAttempt (s : State) (p : Port) (cause : Nat) (step : Option Nat := none) : State := match camEntry s p with
  | none => s
  | some e =>
    let n := (s.cam.port[p]).attempts + (if (s.cam.port[p]).fault then 0 else 1)
    let up := e.relinkMax ≠ 0 ∧ e.relinkMax ≤ n
    let stay := (s.cam.port[p]).first && !e.required && atStart s
    let cyc := e.pocxp && n % 3 == 0 && !decide up && !stay
    let s := updPort s p fun x =>
      { x with
        state := if up || stay then 5 else 2, stage := .idle, speed := 0, fast := false, cause := cause, step := step.getD x.step, attempts := n, holdC := s.c, waiting := none, sends := 0
        cycling := cyc, enable := if cyc then some false else x.enable }
    let s := sleepLanes s p
    if up then raiseAlarm (camFlag s 2) 0x000A p 0xFF else s

/-- The attempt goes to set-up step j, or to the error-rate check after the last (R303, R305). -/
def toStep (s : State) (p : Port) (e : CamEntry) (j : Nat) : State :=
  enterStage s p (match e.seq[j]? with
    | some t => if t.op = 2 then .wait j else .setup j
    | none => .check)

/-- The arrangement of DeviceConnectionID values (R301). -/
def connOk (ids : List Nat) : Bool := ids.headD 1 == 0 && (List.range ids.length).all fun j => ids.contains j

/-- A VERIFY step passes (R305). -/
def verifyOk (t : SetupStep) (v : Nat) : Bool := ((v ^^^ t.value) &&& t.mask) % 2 ^ 32 == 0

/-- A normal acknowledgement with the value read. -/
def ackOk (s : State) (p : Port) (e : CamEntry) (v : Nat) : State :=
  let x := s.cam.port[p]
  match x.stage with
  | .revision => if v < e.minRev then failAttempt s p 6 else enterStage (updPort s p fun x => { x with rev := v }) p (.connId 0)
  | .connId j =>
    let ids := x.connIds ++ [v]
    let s := updPort s p fun x => { x with connIds := ids }
    if j + 1 < e.laneCount then enterStage s p (.connId (j + 1))
    else if connOk ids then enterStage s p .connCfg
    else failAttempt s p 5
  | .connCfg => wakeLanes (updPort (enterStage s p (.lock true)) p fun x => { x with speed := e.speed }) p
  | .setup j => match e.seq[j]? with
    | some t => if t.op = 1 ∧ !verifyOk t v then failAttempt s p 9 (some j) else toStep s p e (j + 1)
    | none => s
  | _ => s

/-- The set-up step that a control command belongs to, if any (R306). -/
def stageStep : Stage → Option Nat
  | .setup j => some j
  | _ => none

/-- A control command waits for its acknowledgement. -/
def controlStage : Stage → Bool
  | .revision | .connId _ | .connCfg | .setup _ => true
  | _ => false

/-- ATTEMPT_START (R303): the first attempt of a port at start. -/
def execAttemptStart (p : Port) (s : State) : Host.Outcome State Fault Refusal :=
  if running s && (s.sec.phase == 5 || s.sec.phase == 6) && (s.cam.port[p]).state == 0 && !(s.cam.port[p]).fault &&
      !faultAsserted s p then ok (startAttempt s p) else ok s

/-- PWR_DELAY_EXPIRY (R303): the lanes enter On at CXP-1. -/
def execPwrDelayExpiry (p : Port) (s : State) : Host.Outcome State Fault Refusal :=
  match (s.cam.port[p]).stage, camEntry s p with
  | .power, some e =>
    let s := reach s ((s.cam.port[p]).holdC + e.pwrDelay * 1000000)
    ok (wakeLanes (updPort s p fun x => { x with stage := .lock false, holdC := s.c, speed := 1, fast := false }) p)
  | _, _ => ok s

/-- LANE_LOCK (R303): every lane of the port is in lock. At the target speed the uplink changes too, if the entry selects it, and the set-up
sequence begins. -/
def execLaneLock (p : Port) (s : State) : Host.Outcome State Fault Refusal :=
  match (s.cam.port[p]).stage, camEntry s p with
  | .lock target, some e =>
    let s := lockLanes s p
    ok (if target then toStep (updPort s p fun x => { x with fast := e.hsUplink }) p e 0 else enterStage s p .revision)
  | _, _ => ok s

/-- LOCK_TIMEOUT (R303): a lane did not lock within 100 ms. -/
def execLockTimeout (p : Port) (s : State) : Host.Outcome State Fault Refusal :=
  match (s.cam.port[p]).stage with
  | .lock _ => ok (failAttempt (reach s ((s.cam.port[p]).holdC + 100000000)) p 1)
  | _ => ok s

/-- CONTROL_ACK (R306). -/
def execControlAck (p : Port) (a : Ack) (s : State) : Host.Outcome State Fault Refusal :=
  let x := s.cam.port[p]
  match camEntry s p with
  | some e =>
    if controlStage x.stage then
      match a with
      | .ok v => ok (ackOk s p e v)
      | .nack => ok (failAttempt s p 8 (stageStep x.stage))
      | .wait ms => ok (updPort s p fun x => { x with waiting := some (s.c + Nat.min ms 10000 * 1000000) })
    else ok s
  | none => ok s

/-- A send goes unanswered: sent again, and after three the attempt fails (R306). -/
def unanswered (s : State) (p : Port) : State :=
  let x := s.cam.port[p]
  if 3 ≤ x.sends then failAttempt s p 7 (stageStep x.stage)
  else sendControl (updPort s p fun x => { x with sends := x.sends + 1, waiting := none, holdC := s.c }) p

/-- CONTROL_TIMEOUT (R306): no acknowledgement within 200 ms. -/
def execControlTimeout (p : Port) (s : State) : Host.Outcome State Fault Refusal :=
  let x := s.cam.port[p]
  if controlStage x.stage && x.waiting.isNone then ok (unanswered (reach s (x.holdC + 200000000)) p) else ok s

/-- WAIT_ACK_EXPIRY (R306): the announced time passed without the acknowledgement; the send counts as unanswered. -/
def execWaitAckExpiry (p : Port) (s : State) : Host.Outcome State Fault Refusal :=
  let x := s.cam.port[p]
  match x.waiting with
  | some t => if controlStage x.stage then ok (unanswered (reach s t) p) else ok s
  | none => ok s

/-- SETUP_WAIT_EXPIRY (R305): a WAIT step elapses. -/
def execSetupWaitExpiry (p : Port) (s : State) : Host.Outcome State Fault Refusal :=
  match (s.cam.port[p]).stage, camEntry s p with
  | .wait j, some e =>
    let us := match e.seq[j]? with
      | some t => t.value
      | none => 0
    ok (toStep (reach s ((s.cam.port[p]).holdC + us * 1000)) p e (j + 1))
  | _, _ => ok s

/-- Line rate in Mbit/s of a target speed (R294). -/
def lineMbit (speed : Nat) : Nat := match speed with
  | 1 => 1250 | 2 => 2500 | 3 => 3125 | 5 => 5000 | 6 => 6250 | 10 => 10000 | _ => 12500

/-- Duration of the check volume in ns (R304): 10^10 bits in the attempts at start, 10^9 at a re-link. -/
def checkNs (s : State) (p : Port) (e : CamEntry) : Nat :=
  (if (s.cam.port[p]).first then 10 ^ 10 else 10 ^ 9) * 1000 / lineMbit e.speed

/-- Code errors on the lanes of a port, at least one of them, whose number and lanes no command carries (R325, log entry 106). -/
def codeErrors (s : State) (p : Port) : State :=
  let ls := portLanes s p
  let hit := ls.getD (Config.freeValue s.freeCtr % ls.length) 32
  let t := updLanes s p fun j l => { l with err := satInc l.err (Config.freeValue (s.freeCtr + 1 + j) + (if j = hit then 1 else 0)) }
  { t with freeCtr := s.freeCtr + 33 }

/-- What failed a check was code errors or stream packets with a CRC error: no command tells (R324, R325, log entry 106). -/
def checkErrors (s : State) (p : Port) : State :=
  let (v, s) := fresh s
  if v % 2 = 0 then codeErrors s p else updPort s p fun x => { x with crc := satInc x.crc (1 + v / 2) }

/-- The result of the check at start goes to the event recorder, lane by lane (R503). -/
def checkReport (s : State) (p : Port) (good : Bool) : State :=
  if (s.cam.port[p]).first then (portLanes s p).foldl (linkEvent · · good) s else s

/-- ERROR_RATE_CHECK_DONE (R304, R503): the port is up and waits for the Landing, or the attempt fails. -/
def execErrorRateCheckDone (p : Port) (good : Bool) (s : State) : Host.Outcome State Fault Refusal :=
  match (s.cam.port[p]).stage, camEntry s p with
  | .check, some e =>
    if good then
      let s := checkReport (reach s ((s.cam.port[p]).holdC + checkNs s p e)) p true
      let s := updLanes s p fun _ l => { l with changes := 0, next := none }
      ok (updPort s p fun x => { x with state := 3, stage := .idle, attempts := 0, first := false })
    else ok (failAttempt (checkReport (checkErrors s p) p false) p 10)
  | _, _ => ok s

/-- End of the hold-off: 50 ms, or 500 ms of a power cycle (R316). -/
def holdoffEnd (x : CamPort) : Nat := x.holdC + (if x.cycling then 500000000 else 50000000)

/-- HOLDOFF_EXPIRY (R316): a new attempt starts, unless the fault input is asserted (R320). -/
def execHoldoffExpiry (p : Port) (s : State) : Host.Outcome State Fault Refusal :=
  let x := s.cam.port[p]
  if x.state = 2 then
    let s := reach s (holdoffEnd x)
    ok (if x.fault || faultAsserted s p then s else startAttempt s p)
  else ok s

/-! ### Frames and the pipe FIFO (R331-R333) -/

/-- Entries of the FIFO of a camera's pipe input that are occupied (R330). -/
def occupied (s : State) (p : Port) : Nat := ((s.isp.cam[p]).fifo.filter fun l => l.entry).length

/-- The pipe of a camera is in reset. -/
def pipeInReset (s : State) (p : Nat) : Bool := match ispEntry s p with
  | some e => (vGet? s.isp.inReset e.pipe).getD false
  | none => false

/-- Line l joins interval ivl in the camera's line order: it is cut if the interval already holds as many lines as the capacity (R24, R42). -/
def joinInterval (cap ivl : Nat) (c : IspCam) (l : FifoLine) : IspCam × FifoLine :=
  let n := if c.ivl = ivl then c.taken else 0
  let cut := decide (cap ≤ n)
  ({ c with
      ivl := ivl, taken := n + 1
      cutLines := if !cut then c.cutLines
        else if c.cutLines.any fun x => x.1 == ivl then c.cutLines.map fun x => if x.1 = ivl then (ivl, x.2 + 1) else x
        else c.cutLines ++ [(ivl, 1)] },
   { l with ivl := ivl, cut := cut })

/-- The Escapement's speed_cut follows a cut line (R42). -/
def speedCut (s : State) (p : Port) : State :=
  if (s.isp.cam[p]).cutLines.isEmpty then s else { s with esc := { s.esc with status := orW s.esc.status 8 } }

/-- A short frame ends: fill lines flagged padded follow, with the tag of the frame's last line (R332, R333). -/
def padFrame (s : State) (p : Port) : State := match ispEntry s p with
  | none => s
  | some e =>
    let c := s.isp.cam[p]
    if c.frameOpen && decide (c.frameLines < e.hF) then
      let tag := if c.frameLines = 0 then BitVec.ofNat 32 (Config.padTag p (s.cam.port[p]).lines s.esc.beat) else c.lastTag
      let pad := (List.range (e.hF - c.frameLines)).map fun j =>
        ({ tag := tag, flags := 2, ivl := s.esc.beat, row := c.frameLines + j, data := none, since := s.c, entry := false } : FifoLine)
      let add := fun (c : IspCam) (l : FifoLine) =>
        let x := joinInterval (capLines s p) s.esc.beat c l
        { x.1 with fifo := x.1.fifo ++ [x.2] }
      speedCut (ispFlag (updIsp s p fun c => { pad.foldl add c with short := incW c.short, frameOpen := false }) 2) p
    else updIsp s p fun c => { c with frameOpen := false }

/-- Sets flags on the last line that a stream has of a camera: the one that waits in its vertical group, else the last in its ring. -/
def flagStream (mask : Nat) (p : Port) (s : State) (j : Nat) : State :=
  if ((vGet? (s.isp.cam[p]).groups j).getD []).isEmpty then flagWritten s p j ((vGet? (s.isp.cam[p]).outs j).getD (0, 0)).1 mask
  else updIsp s p fun c => { c with groups := vUpd c.groups j fun g => setLast g fun l => { l with flags := l.flags ||| mask } }

/-- Sets flags on the last line of a camera: in its FIFO, or where the stages and the rings hold it (R333). -/
def flagLast (s : State) (p : Port) (mask : Nat) : State :=
  let c := s.isp.cam[p]
  if !c.fifo.isEmpty then updIsp s p fun c => { c with fifo := setLast c.fifo fun l => { l with flags := l.flags ||| mask } }
  else if !c.rows.isEmpty then flagStream mask p (updIsp s p fun c => { c with rows := setLast c.rows fun l => { l with flags := l.flags ||| mask } }) 4
  else (List.range 5).foldl (flagStream mask p) s

/-- The line record of the hash chain (R281). -/
def lineRecord (tag : Word) (bs : List Byte) : List Byte := leBytes 4 tag.toNat ++ leBytes 4 bs.length ++ bs

/-- A line record joins the chain of its camera and capture interval. -/
def digestLine (s : State) (p : Port) (tag : Word) (bs : List Byte) : State :=
  { s with sealer := { s.sealer with lines := s.sealer.lines.set p (s.sealer.lines[p] ++ [lineRecord tag bs]) } }

/-- Completes the FIFO entry of the line in progress, which joins the interval in progress (R24): samples, or a fill line flagged lost if it
is corrupt (R309, R331). -/
def fillEntry (s : State) (p : Port) (data : Option (List Nat)) : State :=
  let c := s.isp.cam[p]
  match c.fifo.find? fun l => !l.eligible with
  | none => s
  | some l =>
    let x := joinInterval (capLines s p) s.esc.beat c
      { l with eligible := true, since := s.c, data := if l.entry then data else none
               flags := if l.entry && data.isSome then l.flags else l.flags ||| 1 }
    speedCut (updIsp s p fun _ => { x.1 with fifo := x.1.fifo.map fun l => if l.eligible then l else x.2 }) p

/-- The line in progress of a port ends as corrupt, with the bytes received (R309, R315). -/
def corruptLine (s : State) (p : Port) (bs : List Byte) : State := match (s.cam.port[p]).line with
  | none => s
  | some l =>
    let s := digestLine s p l.tag bs
    let s := updPort s p fun x => { x with line := none, corrupt := incW x.corrupt, lines := (x.lines + 1) % 2 ^ 64 }
    let s := camFlag s 32
    if l.cut then updIsp s p fun c => { c with cut := incW c.cut } else fillEntry s p none

/-! ### Loss (R314, R315, R318) -/

/-- The bytes received so far of a line in progress, which no command carries (log entry 2). -/
def bytesSoFar (s : State) (p : Port) (l : LineIn) : List Byte := Config.bytesSoFar p (s.cam.port[p]).lines l.tag.toNat s.esc.beat

/-- What ends when a port goes down: its line, its frame, its lanes; the generation of its domain increments. A stop that waits for the next
Landing stays. -/
def portDown (s : State) (p : Port) (cause resetCause : Nat) : State :=
  let s := match (s.cam.port[p]).line with
    | some l => corruptLine (updPort s p fun x => { x with crc := satInc x.crc (Config.crcSoFar p x.lines l.tag.toNat s.esc.beat) }) p (bytesSoFar s p l)
    | none => s
  let s := if (s.cam.port[p]).accepting then padFrame s p else s
  let g := ((s.cam.port[p]).gen + 1) % 16
  let s := updPort s p fun x =>
    { x with state := 2, stage := .idle, cause := cause, gen := g, accepting := false, holdC := s.c, relinkReq := false
             badHdr := false, cycling := false, waiting := none, speed := 0, fast := false }
  let s := updIsp s p fun c =>
    { c with
      gaps := c.gaps ++ (match c.lastLine with
        | some t => [(t, none)]
        | none => [])
      lastLine := none }
  resetEvent (sleepLanes s p) 4 p resetCause g

/-- link_loss and alarm 0x0009 (R315). -/
def lossAlarm (s : State) (p : Port) (cause : Nat) : State := raiseAlarm (camFlag s 1) 0x0009 p 0xFF [BitVec.ofNat 8 cause]

/-- A port that is up is lost (R314, R315). -/
def losePort (s : State) (p : Port) (cause : Nat) : State :=
  lossAlarm (updPort (portDown s p cause 0x0E) p fun x => { x with loss := incW x.loss }) p cause

/-- LOCK_LOSS (R314, R303): a lane is out of lock. -/
def execLockLoss (l : Lane) (s : State) : Host.Outcome State Fault Refusal :=
  match lanePort s l with
  | some p =>
    let x := s.cam.port[p]
    let s := { s with cam := { s.cam with lane := vUpd s.cam.lane l fun y => { y with locked := false } } }
    if portUp x then ok (losePort s p 1)
    else if x.state = 1 ∧ x.stage ≠ .power ∧ x.stage ≠ .lock false ∧ x.stage ≠ .lock true then ok (failAttempt s p 1)
    else ok s
  | none => ok s

/-- CODE_ERROR_LIMIT (R314, R304, R325): a lane counts 64 code or disparity errors within 1 ms. -/
def execCodeErrorLimit (l : Lane) (s : State) : Host.Outcome State Fault Refusal :=
  match lanePort s l with
  | some p =>
    let x := s.cam.port[p]
    if portUp x || x.state == 1 then
      let s := { s with cam := { s.cam with lane := vUpd s.cam.lane l fun y => { y with err := satInc y.err 64 } } }
      ok (if portUp x then losePort s p 2 else if x.stage = .check then failAttempt s p 10 else s)
    else ok s
  | none => ok s

/-- HEARTBEAT_TIMEOUT (R314, R317). -/
def execHeartbeatTimeout (p : Port) (s : State) : Host.Outcome State Fault Refusal :=
  let x := s.cam.port[p]
  match camEntry s p with
  | some e => if x.state = 4 then ok (losePort (reach s (x.lastHb + e.hbTimeout * 1000000)) p 3) else ok s
  | none => ok s

/-- HEARTBEAT (R295): the packet restarts the supervision. -/
def execHeartbeat (p : Port) (dt : Nat) (s : State) : Host.Outcome State Fault Refusal :=
  let s := advance s dt
  ok (if (s.cam.port[p]).state = 4 then updPort s p fun x => { x with lastHb := s.c } else s)

/-- FAULT_INPUT_ASSERT (R320): the input that the CAM entry names is on; the port goes down with cause power fault and its enable low. -/
def execFaultInputAssert (p : Port) (s : State) : Host.Outcome State Fault Refusal :=
  match camEntry s p with
  | some e =>
    if e.faultUsed && faultAsserted s p && !(s.cam.port[p]).fault then
      let x := s.cam.port[p]
      let s := updPort s p fun x => { x with fault := true }
      let s := camFlag (updPort s p fun x => { x with enable := x.enable.map fun _ => false }) 4
      ok (if portUp x then losePort s p 4
          else if x.state = 1 then lossAlarm (portDown s p 4 0x0E) p 4
          else if x.state = 2 then updPort s p fun x => { x with cause := 4 }
          else s)
    else ok s
  | none => ok s

/-- FAULT_INPUT_DEASSERT (R320): retries under R316 may go on, at once when the hold-off is over. -/
def execFaultInputDeassert (p : Port) (s : State) : Host.Outcome State Fault Refusal :=
  let x := s.cam.port[p]
  if faultAsserted s p then ok s
  else
  let s := updPort s p fun x => { x with fault := false }
  if x.fault && x.state == 2 && decide (holdoffEnd x ≤ s.c) then ok (startAttempt s p) else ok s

/-- The effect of a write of relink (R318). -/
def relinkPort (s : State) (p : Port) : State :=
  let x := s.cam.port[p]
  if portUp x then updPort s p fun x => { x with relinkReq := true }
  else if x.state = 5 ∨ x.state = 6 then startAttempt (updPort s p fun x => { x with attempts := 0, stopReq := false }) p
  else s

/-- The effect of a write of stop (R318): at the next Landing. -/
def stopPort (s : State) (p : Port) : State :=
  if (s.cam.port[p]).state ≠ 0 then updPort s p fun x => { x with stopReq := true } else s

/-- Ports at a Landing: requests of R318 take effect, and ports that passed their check begin to accept (R317). -/
def landingPort (s : State) (p : Port) : State :=
  let x := s.cam.port[p]
  if x.stopReq then
    let s := if portUp x || x.state == 1 then portDown s p 11 0x0E else s
    updPort s p fun x => { x with state := 6, cause := 11, stopReq := false, relinkReq := false, stage := .idle
                                  enable := if x.enable.isSome then some false else none }
  else if x.relinkReq then
    startAttempt (lossAlarm (portDown s p 11 0x0E) p 11) p
  else if x.state = 3 ∧ (s.pwr.state ≠ 1) then
    let s := updPort s p fun x => { x with state := 4, accepting := true, lastHb := s.c, line := none }
    updIsp s p fun c => { c with index := 0, frameOpen := false, frameLines := 0, longSeen := false, restart := Vector.replicate 4 true
                                 groups := Vector.replicate 4 [], rows := [] }
  else s

def landingPorts (s : State) : State := (List.finRange 16).foldl landingPort s

/-! ### Lines (R307-R310) -/

/-- LINE_FIRST_PACKET (R307, R331, R333): the tag is latched, and the line takes a FIFO entry, is dropped or is cut. -/
def execLineFirstPacket (p : Port) (stream dt : Nat) (s : State) : Host.Outcome State Fault Refusal :=
  let s := advance s dt
  let x := s.cam.port[p]
  match camEntry s p, ispEntry s p with
  | some e, some i =>
    if !receiving x then ok s
    else if stream ≠ e.streamId then ok (updPort s p fun x => { x with ign := incW x.ign })
    else if !portUp x || !x.accepting || x.line.isSome then ok s
    else
      let c := s.isp.cam[p]
      let tag := refCount s
      if i.hF ≤ c.frameLines then
        let s := if c.longSeen then s
          else ispFlag (updIsp (flagLast s p 4) p fun c => { c with long := incW c.long, longSeen := true }) 4
        ok (updPort s p fun x => { x with line := some { tag := tag, stored := false, cut := true } })
      else
        let reset := pipeInReset s p
        let room := decide (occupied s p < 4) && !reset
        let s := updPort s p fun x => { x with line := some { tag := tag, stored := room } }
        let s := updIsp s p fun c => { c with
          fifo := c.fifo ++ [{ tag := tag, flags := if room then 0 else 1, ivl := s.esc.beat, row := c.frameLines, data := none, eligible := false, entry := room }]
          gaps := c.gaps.map fun g => (g.1, some (g.2.getD tag))
          frameLines := c.frameLines + 1, lastTag := tag, lastLine := some tag }
        if room || reset then ok s
        else ok (flagEvent (ispFlag (updIsp s p fun c => { c with drop := incW c.drop }) 1) 0x41000 1)
  | _, _ => ok s

/-- Pixels above their depth count in CAM_PORT_FMT (R129, R308). -/
def countFmt (s : State) (p : Port) (n : Nat) : State :=
  if n = 0 then s else camFlag (updPort s p fun x => { x with fmt := satInc x.fmt n }) 16

/-- What a line that is not accepted leaves: its errors count, and end a check (R304, R324, R325). -/
def unacceptedLine (s : State) (p : Port) (e : LineEnd) : State :=
  let x := s.cam.port[p]
  if receiving x then
    let s := updPort s p fun x => { x with crc := satInc x.crc e.crcBad }
    let s := if e.codeBad then codeErrors s p else s
    if x.stage = .check ∧ (e.codeBad ∨ 0 < e.crcBad) then failAttempt s p 10 else s
  else s

/-- LINE_COMPLETE (R24, R309, R310): the line joins its capture interval and the hash chain, and is eligible or corrupt. Pixels above their depth
count for a line that found no FIFO entry, and not for one beyond H_f (DESIGN CHOICE, log entry 104). -/
def execLineComplete (p : Port) (e : LineEnd) (dt : Nat) (s : State) : Host.Outcome State Fault Refusal :=
  let s := advance s dt
  let x := s.cam.port[p]
  match x.line, camEntry s p with
  | some l, some ce =>
    match pixFmt? ce.pfnc with
    | none => ok s
    | some f =>
      let s := updPort s p fun x => { x with crc := satInc x.crc e.crcBad }
      let s := if e.codeBad then codeErrors s p else s
      let short := decide (e.bytes.length ≠ lineBytes f ce.width)
      let s := if short then countFmt s p 1 else s
      if short || x.badHdr || e.codeBad || decide (0 < e.crcBad) then ok (corruptLine s p e.bytes)
      else
        let s := digestLine s p l.tag e.bytes
        let s := updPort s p fun x => { x with line := none, lines := (x.lines + 1) % 2 ^ 64 }
        if l.cut then ok (updIsp s p fun c => { c with cut := incW c.cut })
        else
          let s := countFmt s p (overDepth f ce.width e.bytes)
          ok (fillEntry s p (some (unpack f ce.width e.bytes)))
  | none, some _ => ok (unacceptedLine s p e)
  | _, none => ok s

/-- IMAGE_HEADER (R308, R333): compared with the CAM entry, also before acceptance begins; it ends the frame before it. -/
def execImageHeader (p : Port) (h : Header) (s : State) : Host.Outcome State Fault Refusal :=
  match camEntry s p with
  | some e =>
    if receiving s.cam.port[p] then
      let bad := decide (h.fmt &&& e.hdrMask ≠ e.hdrCode ∨ h.width ≠ e.width)
      let s := if (s.cam.port[p]).accepting then
          updIsp (padFrame s p) p fun c => { c with frameOpen := true, frameLines := 0, longSeen := false }
        else s
      let s := updPort s p fun x => { x with badHdr := bad }
      ok (if bad then countFmt s p 1 else s)
    else ok s
  | none => ok s

/-- EVENT_PACKET (R296): counted and discarded. -/
def execEventPacket (p : Port) (s : State) : Host.Outcome State Fault Refusal :=
  if receiving s.cam.port[p] then ok (updPort s p fun x => { x with ign := incW x.ign }) else ok s

/-! ### Triggers and eye scans (R298, R311-R313) -/

/-- Members of a lock group that are up. -/
def trigMembers (s : State) (g : Nat) : List Port :=
  (List.finRange 16).filter fun p => (s.cam.port[p]).state == 4 && (match camEntry s p with | some e => e.lockGroup == g | none => false)

/-- L_trig and the least spacing of a member's uplink in ns (R312). -/
def trigTimes (s : State) (p : Nat) : Nat × Nat := match camEntry s p with
  | some e => if e.hsUplink then (2000, 1000) else (4000, 2000)
  | none => (4000, 2000)

/-- The source of a group. -/
def trigSource (s : State) (g : Nat) : TrigSrc := (planOf s).groups.getD g .none

/-- C of the next event of a group's source, if it has one (R311): the count reached its target, T_t has passed since the last event, or a Beat edge
was issued. In a time-locked plan each Beat edge is an event of a period source, from which T_t runs anew (log entry 107). A channel in fault
gives no event (R384). -/
def groupDue (s : State) (g : Fin 8) : Option Nat := match trigSource s g with
  | .none => none
  | .encoder e _ =>
    if (s.enc[e]).fault then none
    else match s.cam.trigReached[g] with
      | some c => some c
      | none => if 0 ≤ diff32 (s.enc[e]).count s.cam.trigTarget[g] then some s.c else none
  | .period tT => match s.cam.trigAt[g] with
    | none => some s.esc.edgeC
    | some a => some (if !encLocked s && decide (a < s.esc.edgeC) then Nat.min (a + tT) s.esc.edgeC else a + tT)
  | .beat => if s.cam.trigAt[g] = some s.esc.edgeC then none else some s.esc.edgeC

/-- The event at t is taken: the next target of an encoder source, or the last event of another. -/
def takeEvent (s : State) (g : Fin 8) (t : Nat) : State := match trigSource s g with
  | .encoder _ nT => { s with cam := { s.cam with
      trigTarget := s.cam.trigTarget.set g (s.cam.trigTarget[g] + BitVec.ofNat 32 nT), trigReached := s.cam.trigReached.set g none } }
  | _ => { s with cam := { s.cam with trigAt := s.cam.trigAt.set g (some t) } }

/-- Trigger packets for an event at t go to every member that is up, or the event is skipped (R312, R313). -/
def fireGroup (s : State) (g : Fin 8) (t : Nat) : State :=
  let ms := trigMembers s g
  let least := (ms.map fun (p : Port) => (trigTimes s p).2).foldl Nat.max 1000
  if (s.cam.lastTrig[g]).any fun l => decide (t < l + least) then camFlag { s with cam := { s.cam with skip := s.cam.skip.set g (incW s.cam.skip[g]) } } 8
  else { s with cam := { s.cam with
      lastTrig := s.cam.lastTrig.set g (some t), sent := s.cam.sent ++ ms.map fun (p : Port) => (g.val, t + (trigTimes s p).1, [p.val]) } }

/-- Lock-group triggers are stopped: from Landing n of an accepted Idle request until the next edge (R547). -/
def triggersStopped (s : State) : Bool := s.pwr.state == 1 || s.pwr.state == 2 || s.pwr.state == 3

/-- TRIGGER_EVENT (R311-R313): the event of the group's source that has come. While triggers are stopped it sends none. -/
def execTriggerEvent (g : Fin 8) (dt : Nat) (s : State) : Host.Outcome State Fault Refusal :=
  let s := advance s dt
  if !isReady s then ok s
  else match groupDue s g with
    | some t => if t ≤ s.c then ok (if triggersStopped s then takeEvent s g t else fireGroup (takeEvent s g t) g t) else ok s
    | none => ok s

/-- EYE_SCAN_DONE (R298): the open count, and the neighbour that the data path adopts in the next idle interval. -/
def execEyeScanDone (l : Lane) (below at' above : Nat) (s : State) : Host.Outcome State Fault Refusal :=
  match lanePort s l with
  | some p =>
    match camEntry s p with
    | some e =>
      if portUp s.cam.port[p] then
        let y := s.cam.lane[l]
        let lo := if 0 < y.peak ∧ at' + 32 ≤ below then some below else none
        let hi := if y.peak < 31 ∧ at' + 32 ≤ above then some above else none
        let next := match lo, hi with
          | some a, some b => some (if a < b then y.peak + 1 else y.peak - 1)
          | some _, none => some (y.peak - 1)
          | none, some _ => some (y.peak + 1)
          | none, none => none
        ok { s with cam := { s.cam with lane := s.cam.lane.set l { y with open' := at', next := if e.adaptive then next else none } } }
      else ok s
    | none => ok s
  | none => ok s

/-- PEAKING_CHANGE (R298): the data path adopts the code. -/
def execPeakingChange (l : Lane) (s : State) : Host.Outcome State Fault Refusal :=
  let y := s.cam.lane[l]
  match y.next, lanePort s l with
  | some c, some p =>
    if portUp s.cam.port[p] then
      ok { s with cam := { s.cam with lane := s.cam.lane.set l { y with peak := c, changes := Nat.min 255 (y.changes + 1), next := none } } }
    else ok s
  | _, _ => ok s

end Sys2Proof.Machine
end

