-- ==== Sys2Proof/Machine/Faults.lean ====
section
/-! DEFINITION. Check summaries, fencing, lost Wings, abandonment, best-effort discards, memory and unit faults
(R34, R35, R78, R169, R250, R274, R412-R424, R541), and what each does to the state of a logical Wing. -/

namespace Sys2Proof.Machine

open Sys2Proof

/-! ### Cycles and summaries -/

/-- WCLK cycles in a number of nanoseconds, at f_plan (log entry 25). -/
def cyclesOf (s : State) (ns : Nat) : Nat := ns * (planOf s).fPlan / 1000000000

/-- Nanoseconds that a number of cycles takes, rounded up. -/
def nsOf (s : State) (cycles : Nat) : Nat := ceilDiv (cycles * 1000000000) (planOf s).fPlan

/-- Cycles since the first issue of the Beat's work (R31). -/
def cyclesNow (s : State) (w : Work) : Nat := cyclesOf s (s.c - w.firstC)

/-- The command table of a work Beat (R254). -/
def tableNo (w : WingPlan) (beat : Nat) : Nat := w.schedule.getD (beatNo beat % w.schedule.length) 0
def tableOf (w : WingPlan) (beat : Nat) : Table := w.tables.getD (tableNo w beat) {}

/-- The 32-byte check summary of a matrix engine command (R169) or a vector tile command (R250); transfers have none. -/
def summaryBytes (qi index beat opcode : Nat) (f : CheckFail) (repeat' : Bool) : List Byte :=
  let res := f.result % 64 + (if repeat' then 64 else 0)
  if qi = 0 then
    leBytes 4 index ++ leBytes 6 beat ++ leBytes 1 opcode ++ leBytes 1 res ++ leBytes 4 f.passes ++ leBytes 4 f.first ++ leBytes 2 f.row ++
      leBytes 2 f.col ++ leBytes 4 f.expected ++ leBytes 4 f.observed
  else if qi ≤ 6 then
    leBytes 4 index ++ leBytes 6 beat ++ leBytes 1 opcode ++ leBytes 1 res ++ leBytes 1 (qi - 1) ++ leBytes 3 0 ++ leBytes 4 f.first ++
      leBytes 4 (if f.row = 0xFFFF then 0xFFFFFFFF else f.row) ++ leBytes 4 f.expected ++ leBytes 4 f.observed
  else []

/-- A summary goes to the Wing's check log. -/
def logSummary (s : State) (p : PWing) (bs : List Byte) : State :=
  if bs.isEmpty then s else updPhys s p fun x => { x with checkLog := x.checkLog ++ [bs] }

/-! ### Carried regions (R35, R265) -/

/-- Places of a region's versions (R265). -/
def places (s : State) : Nat := (planOf s).r + 2

def versionAddr (s : State) (r : Region) (v : Int) : Nat := versionAt r (places s) v

/-- Copies n bytes inside a memory. -/
def memCopy (m : Memory) (from' to' n : Nat) : Memory := memWrites m to' (memReads m from' n)

/-- Regions that a logical Wing owns. -/
def ownRegions (s : State) (k : Nat) : List Region := (planOf s).regions.filter fun r => r.owner == k

/-- Version b of a region equals version b − 1, in DRAM or in the slice of p and in the mirror (R35, R265). -/
def sameVersion (s : State) (p : Option PWing) (b : Nat) (r : Region) : State :=
  let copyD := fun (s : State) (base : Nat) =>
    let r' := { r with base := base }
    { s with mem := { s.mem with dram := memCopy s.mem.dram (versionAddr s r' ((b : Int) - 1)) (versionAddr s r' b) r.size } }
  let s := match r.mirror with
    | some m => copyD s m
    | none => s
  if r.gallery then
    match p with
    | some p => updPhys s p fun x => { x with gallery := memCopy x.gallery (versionAddr s r ((b : Int) - 1)) (versionAddr s r b) r.size }
    | none => s
  else copyD s r.base

/-- All regions of a logical Wing take version b as equal to version b − 1 (R35). -/
def rollBack (s : State) (k : Nat) (p : Option PWing) (b : Nat) : State := (ownRegions s k).foldl (fun s r => sameVersion s p b r) s

/-- The KV allocator of logical Wing k as version v of its Carried regions holds it (R179). -/
def kvLoad (s : State) (k : Nat) (v : Int) : Kv :=
  (kvRegions (planOf s) (wingPlan s k)).foldl (fun kv x => kvPutMem kv x.1 (memWrites [] 0 (memReads s.mem.dram (versionAddr s x.2 v) x.2.size))) {}

/-- The allocator after the last work Beat that is complete. -/
def kvNow (s : State) (k : LWing) : Kv := kvLoad s k (((s.lw[k]).nextWork : Int) - 1)

/-! ### Objects of a logical Wing -/

/-- The object record of an open component (R358). -/
def compObj (k : Nat) (c : Comp) : ObjRec :=
  { id := c.id, lead := c.lead, trail := c.last, left := c.left, right := c.right, stream := c.camera + 16 * c.stream, lwing := k
    flags := c.flags, views := 2 ^ c.camera }

/-- Every open component of a tracker, photo-eye objects and lane sequences included. -/
def openComps (a : Asm) : List Comp := a.comps ++ a.eyes ++ a.lanes

/-- Holds a work Beat for sealing with one reason for every object (R35, R47, R78). -/
def holdReason (s : State) (k beat reason : Nat) (objs : List ObjRec) : State :=
  { s with sealer := { s.sealer with
      held := s.sealer.held ++ [{ lw := k, beat := beat, objs := objs, v := (wingPlan s k).vShare.getD 0, reason := some reason }] } }

/-- A RETRACT becomes due when provisionals of these Beats were sent (R485). -/
def dueRetract (s : State) (k b1 b2 cause : Nat) : State :=
  if s.net.provs.any fun x => x.2 == k && decide (b1 ≤ x.1 ∧ x.1 ≤ b2) then
    { s with net := { s.net with retracts := s.net.retracts ++ [(2 ^ k, b1, b2, cause)] } }
  else s

/-! ### Best-effort steps (R273, R274) -/

/-- A JobRec of a job on a logical Wing. -/
def jobRec (s : State) (job k : Nat) : JobRec := (s.wng.jobs.find? fun j => j.job == job && j.lw == k).getD { job := job, lw := k }

def setJobRec (s : State) (j : JobRec) : State :=
  { s with wng := { s.wng with jobs := j :: s.wng.jobs.filter fun x => !(x.job == j.job && x.lw == j.lw) } }

/-- The step in flight on p is discarded (R274): counted, its versions equal the former ones, and after 16 discards in a row
the job is suspended with an event. -/
def discardStep (s : State) (p : PWing) : State :=
  match (s.phys[p]).work with
  | none => s
  | some w => match w.beJob with
    | none => s
    | some job =>
      let rs := (planOf s).regions.filter fun r => w.beWritten.contains r.id
      let s := rs.foldl (fun s r => sameVersion s (some p) w.beat r) s
      let s := updPhys s p fun x => { x with work := some { w with be := Vector.replicate 9 [], beJob := none, beWritten := [] } }
      let s := { s with wng := { s.wng with beDisc := incW s.wng.beDisc, beStatus := orW s.wng.beStatus 1 } }
      let j := jobRec s job w.lw
      let d := j.discards + 1
      if d < 16 then setJobRec s { j with discards := d }
      else
        let s := setJobRec s { j with discards := d, suspended := true }
        flagEvent { s with wng := { s.wng with beStatus := orW s.wng.beStatus 2 } } 0x20600 2 [] 0xFF w.lw

/-! ### Abandonment (R35) -/

/-- Objects that a work Beat has finished. -/
def finishedObjs (w : Work) : List ObjRec := w.objs.filter fun o => !o.openPart

/-- A tracker without the objects of a list, which were sealed from dropped work, and with object numbers that were used passed over. -/
def dropObjs (a : Asm) (nextId : Nat) (ids : List Nat) : Asm :=
  { comps := a.comps.filter fun c => !ids.contains c.id, eyes := a.eyes.filter fun c => !ids.contains c.id
    lanes := a.lanes.filter fun c => !ids.contains c.id, nextId := Nat.max a.nextId nextId
    masters := a.masters.filter fun c => !ids.contains c.obj.id, partners := a.partners.filter fun c => !ids.contains c.obj.id }

/-- What remains of the logical Wing k when its work Beat is dropped: the objects that it finished are sealed with that Beat and leave
the tracker, and every other object with lines in the interval carries the reason until it finishes (R35). -/
def doomInterval (s : State) (k : LWing) (reason nextId : Nat) (done : List ObjRec) : State :=
  let seqs := kvSeqs (wingPlan s k) (kvNow s k)
  updLw s k fun l =>
    let gone := done.map fun o => o.id
    let ids := ((openComps l.asm).map fun c => c.id) ++ seqs.map fun r => r.2.object
    { l with
      doomed := l.doomed ++ ((ids.eraseDups.filter fun i => !gone.contains i).map fun i => (i, reason))
      doomNext := some reason
      asm := dropObjs l.asm nextId gone }

/-- The work of a logical Wing for its Beat is abandoned (R35): queues flushed, versions rolled back, alarm 0x0001. A Wing in
role 4 only stops shadowing, and is a spare again from the next Landing on (R75, log entry 26). -/
def abandonWing (s : State) (p : PWing) : State :=
  match (s.phys[p]).work with
  | none => s
  | some w =>
    let s := discardStep s p
    let s := updPhys s p fun x => { x with work := none }
    if w.shadow then
      let s := updPhys s p fun x => { x with nextRole := some 2 }
      { s with wng := { s.wng with handover := none, status := orW s.wng.status 4 } }
    else
      let k := w.lw
      let s := holdReason s k w.beat 5 (finishedObjs w)
      let s := doomInterval s k 5 w.asm.nextId (finishedObjs w)
      let s := rollBack s k (some p) w.beat
      let s := updLw s k fun l => { l with nextWork := w.beat + 1 }
      let s := { s with esc := { s.esc with status := orW s.esc.status 2, abandoned := s.esc.abandoned ++ [k] } }
      let s := raiseAlarm s 0x0001 p k
      dueRetract s k w.beat w.beat 2

/-! ### Lost Wings (R78, R80) -/

/-- Logical Wing k is lost from a Beat on: the objects that its work of that Beat had finished, and those open in its tracker, are
sealed with reason 0x06. -/
def loseWing (s : State) (k : LWing) (p : Nat) (beat : Nat) (done : List ObjRec) (asm : Asm) : State :=
  let s := holdReason s k beat 6 (done ++ (openComps asm).map (compObj k))
  let s := updLw s k fun l =>
    { l with lost := true, lostFrom := beat, late := 0, pending := none, cutObjs := [], asm := { asm with comps := [], eyes := [], lanes := [] } }
  raiseAlarm { s with wng := { s.wng with status := orW s.wng.status 2 } } 0x0005 p k

/-! ### Fencing (R422) -/

/-- Spares that could take over: ready or in background test (R423). -/
def spares (s : State) : List PWing := allP.filter fun p => (s.phys[p]).role == 2 || (s.phys[p]).role == 3

/-- Substitutions that wait. -/
def waiting (s : State) : Nat := ((List.finRange 8).filter fun k => (s.lw[k]).pending.isSome).length

/-- The outcome that a report of a fault on a Wing carries (R447). -/
def faultOutcome (s : State) (p : PWing) : Nat :=
  let x := s.phys[p]
  if x.role = 0 ∨ x.role = 1 then
    (if (planOf s).noSpare then 2
     else match s.wng.handover with
       | some _ => 1
       | none => if waiting s < (spares s).length then 1 else 2)
  else 10

/-- A physical Wing is soft-reset and fenced (R422, steps 1 to 4), with the cause for its reset record and for the report of
R428. -/
def isolate (s : State) (p : PWing) (resetCause faultCause : Nat) : State :=
  let g := ((s.phys[p]).gen + 1) % 16
  let s := updPhys s p fun x =>
    { x with
      work := none, gen := g, role := 5, logical := 0, softReset := some s.c, clamping := false, bist := none, nextRole := none
      gallery := [], tiles := Vector.replicate 6 [], tileWritten := Vector.replicate 6 [], galBad := [], tileBad := Vector.replicate 6 []
      fences := Nat.min 15 (x.fences + 1), faultCause := faultCause, missed := 0 }
  resetEvent s 2 p resetCause g

/-- The consequence of a fenced Wing for its logical Wing: a pending substitution, a lost Wing in no-spare mode, or the end of
a handover that it shadowed (R79, R80, R423). -/
def afterFence (s : State) (p : PWing) (role : Nat) (k : LWing) (w : Option Work) : State :=
  let beat := match w with
    | some w => w.beat
    | none => (s.lw[k]).nextWork
  if role = 0 ∨ role = 1 then
    let s := dueRetract s k beat beat 1
    let done := w.elim [] finishedObjs
    let asm := w.elim (s.lw[k]).asm fun w => w.asm
    if (planOf s).noSpare then loseWing s k p beat done asm
    else updLw s k fun l =>
      { l with
        pending := some { time := timeT s, beat := l.nextWork, inProgress := beat, asm := asm, tally := w.elim {} fun w => w.tally }
        cutObjs := (l.cutObjs ++ done.map fun o => (beat, o)).eraseDups }
  else if role = 4 then { s with wng := { s.wng with handover := none, status := orW s.wng.status 4 } }
  else s

/-- A Wing fault is confirmed on p (R422). The report carries what the caller found. -/
def fenceWing (s : State) (p : PWing) (r : Report) : State :=
  let x := s.phys[p]
  let seq := s.int.reportSeq
  let s := addReport s { r with outcome := faultOutcome s p, phys := p, lwing := if x.role = 0 ∨ x.role = 1 ∨ x.role = 4 then x.logical.val else 0xFF }
  let s := { s with int := { s.int with status := orW s.int.status 2, persist := incW s.int.persist } }
  let s := raiseAlarm s 0x0006 p x.logical (leBytes 4 seq)
  let s := isolate (discardStep s p) p 0x10 r.cause
  afterFence s p x.role x.logical x.work

/-- A progress fault of p (R541): no report and no alarm 0x0006, but event 0x0201 and alarm 0x0102. The report of R428 has no
cause value for it: a free value (log entry 2). -/
def progressFault (s : State) (p : PWing) (unit nj done deadline index : Nat) : State :=
  let x := s.phys[p]
  let s := { s with pwr := { s.pwr with prog := incW s.pwr.prog } }
  let s := logEvent s { code := 0x0201, sev := 2, unit := unit, phys := p, lwing := x.logical
                        arg := leBytes 4 unit ++ leBytes 4 nj ++ leBytes 4 done ++ leBytes 4 deadline }
  let s := raiseAlarm s 0x0102 p x.logical (leBytes 4 index)
  let s := { s with int := { s.int with status := orW s.int.status 2, persist := incW s.int.persist } }
  let (v, s) := fresh s
  let s := isolate (discardStep s p) p 0x05 (v % 256)
  afterFence s p x.role x.logical x.work

/-! ### Memory and unit faults (R416, R417) -/

/-- Where a DRAM block belongs (R417). -/
inductive BlockKind where
  | image | carried (owner : Nat) | other
  deriving DecidableEq, Repr

/-- The initial version of a region: an empty allocator in the regions of R179 (R178), else that of INIT (R517). -/
def initBytes (s : State) (r : Region) : List Byte := match s.img with
  | some i =>
    let w := wingPlan s r.owner
    match (kvRegions i.plan w).find? fun x => x.2.id == r.id with
    | some x => memReads (kvMem (kvStart r.owner w) x.1) 0 r.size
    | none => padTo r.size ((i.carried.find? fun x => x.1 == r.id).elim [] fun x => x.2)
  | none => List.replicate r.size 0

/-- The INIT version of a region stands: version r + 1, which takes its place, is not written (R37, R417). -/
def initStands (s : State) (r : Region) : Bool :=
  let first := (planOf s).r + 1
  (match s.mem.carried.find? fun x => x.region == r.id with
    | some v => decide (v.version ≤ first)
    | none => false) &&
  !s.phys.any fun x => match x.work with
    | some w => w.beat == first && w.written.contains r.id
    | none => false

/-- Where the INIT version of a region lies in DRAM while it stands: at home, in the mirror, or in both. -/
def initPlaces (s : State) (r : Region) : List Nat :=
  if initStands s r then ((if r.gallery then [] else [r.base]) ++ r.mirror.toList).map fun b => versionAddr s { r with base := b } (-1) else []

/-- What an image places in DRAM and no Beat has overwritten (R417): the adapter masters only while no promotion is in force. -/
def imagePieces (s : State) (i : Image) : List (Nat × List Byte) := if s.wng.adpt.promoted then i.dramInit else loadedPieces i

/-- What the block at an address holds. -/
def blockKind (s : State) (a : Nat) : BlockKind :=
  let hits := fun (base n : Nat) => overlaps base n a 512
  match (planOf s).regions.find? (fun r => (!r.gallery && hits r.base (places s * r.stride)) ||
      (match r.mirror with | some m => hits m (places s * r.stride) | none => false)) with
  | some r => if (initPlaces s r).any fun b => hits b r.size then .image else .carried r.owner
  | none => match s.img with
    | some i => if (imagePieces s i).any fun x => hits x.1 x.2.length then .image else .other
    | none => .other

/-- The bytes of the image that lie in a block are written again. -/
def rewriteBlock (s : State) (a : Nat) : State := match s.img with
  | some i =>
    let parts := imagePieces s i ++ (planOf s).regions.flatMap fun r => (initPlaces s r).map fun b => (b, initBytes s r)
    let m := parts.foldl (fun m x => (x.2.zipIdx.filter fun b => decide (a ≤ x.1 + b.2 ∧ x.1 + b.2 < a + 512)).foldl
      (fun m b => memWrite m (x.1 + b.2) b.1) m) s.mem.dram
    { s with mem := { s.mem with dram := m, bad := s.mem.bad.filter fun b => b != a / 512 } }
  | none => s

/-- The failing command halts its queue: its work cannot complete (R417, Carried data). -/
def haltQueue (s : State) (p : PWing) (qi : Nat) : State :=
  updPhys s p fun x =>
    { x with work := x.work.map fun w => { w with failing := w.failing.map fun f => if f.queue = qi then { f with halted := true } else f } }

/-- A memory fault at a DRAM block (R417): it is counted, and its address goes to the memory defect list of 1,024 entries (R558). -/
def noteDefect (s : State) (a : Nat) : State :=
  { s with
    int := { s.int with status := orW s.int.status 8, memFault := incW s.int.memFault }
    ret := { s.ret with memDefects := if s.ret.memDefects.contains a || decide (1024 ≤ s.ret.memDefects.length) then s.ret.memDefects else s.ret.memDefects ++ [a] } }

/-- A memory fault of a command (R417): until it is written again, the block's stored CRC-32C is not that of its data. -/
def memoryFault (s : State) (p : PWing) (qi block : Nat) (r : Report) : State :=
  let a := block / 512 * 512
  let s := noteDefect { s with mem := { s.mem with bad := if s.mem.bad.contains (a / 512) then s.mem.bad else a / 512 :: s.mem.bad } } a
  match blockKind s a with
  | .carried owner =>
    let s := addReport s { r with outcome := 4 }
    let s := haltQueue s p qi
    if h : owner < 8 then updLw s ⟨owner, h⟩ fun l => { l with carriedReset := true } else s
  | .image => rewriteBlock (abandonWing (addReport s { r with outcome := 3 }) p) a
  | .other => abandonWing (addReport s { r with outcome := 3 }) p

/-- Beats in a row, up to this one, with faults of the same unit (R416). -/
def unitCount (runs : List (Nat × Nat × Nat)) (unit beat : Nat) : Nat :=
  match runs.find? fun x => x.1 == unit with
  | some (_, b, n) => if b + 1 = beat then n + 1 else if b = beat then n else 1
  | none => 1

/-- A unit fault (R416): the work is abandoned, and three Beats in a row with faults of one unit give a compute-die reset. -/
def unitFault (s : State) (p : PWing) (unit beat : Nat) (r : Report) : State :=
  let s := addReport s { r with outcome := 7 }
  let n := unitCount s.int.unitRuns unit beat
  let runs := (unit, beat, n) :: s.int.unitRuns.filter fun x => x.1 != unit
  let s := { s with int := { s.int with status := orW s.int.status 4, unit := incW s.int.unit, unitRuns := runs } }
  let s := abandonWing s p
  if 3 ≤ n then dieReset s 0x0A else s

/-- A failure that is a CRC-32C mismatch on a DRAM block and nothing else, as its result bits say (R169, R250, R416). -/
def onlyCrc (f : CheckFail) : Bool := f.inDram && decide (f.result = if 1 ≤ f.unit ∧ f.unit ≤ 6 then 2 else 0)

/-- Attribution of a persistent fault by its two check summaries (R416). -/
def faultAttrib (s : State) (p : PWing) (qi : Nat) (f g : CheckFail) (beat : Nat) (r : Report) : State :=
  match f.block, g.block with
  | some a, some b =>
    if onlyCrc f && onlyCrc g && decide (a / 512 = b / 512) then memoryFault s p qi a { r with addr := a / 512 * 512 }
    else if f.unit = g.unit ∧ 10 ≤ f.unit ∧ f.unit ≤ 12 then unitFault s p f.unit beat r
    else fenceWing s p r
  | _, _ =>
    if f.unit = g.unit ∧ 10 ≤ f.unit ∧ f.unit ≤ 12 then unitFault s p f.unit beat r
    else fenceWing s p r

/-- A physical Wing becomes the next to be tested (R421). -/
def prioritise (s : State) (p : PWing) : State :=
  { s with wng := { s.wng with priority := if s.wng.priority.contains p then s.wng.priority else s.wng.priority ++ [p] } }

/-- A transient fault is counted, and eight within 4,096 Beats give the Wing priority (R420, R421). -/
def countTransient (s : State) (p : PWing) : State :=
  let s := { s with int := { s.int with status := orW s.int.status 1, transient := incW s.int.transient } }
  let b := s.esc.beat
  let s := updPhys s p fun x =>
    { x with transient := Nat.min 255 (x.transient + 1), recent := (x.recent.filter fun y => decide (b < y + 4096)) ++ [b] }
  if 8 ≤ (s.phys[p]).recent.length then prioritise (updPhys s p fun x => { x with recent := [] }) p else s

end Sys2Proof.Machine
end

