-- ==== Sys2Proof/Machine/Pipes.lean ====
section
/-! DEFINITION. The ISP pipes: order of lines, stages 1 to 7, line capacity, table groups, live calibration and pipe resets
(R42, R328-R349, R537). -/

namespace Sys2Proof.Machine

open Sys2Proof

/-! ### Stages 1 to 3 (R335-R337) -/

/-- Values between stages are UINT16. -/
def clamp16 (x : Int) : Nat := (clampI 0 65535 x).toNat

/-- The average of n values: floor((sum + floor(n / 2)) / n) (R338). -/
def avgI (xs : List Int) : Int := (xs.sum + (xs.length / 2 : Nat)) / (xs.length : Int)

/-- The colour plane of sample x of row y (R335): BiColor runs C, G, with green plane 0. -/
def planeOf (f : PixFmt) (x y : Nat) : Nat := match f.kind with
  | .mono => 0
  | .bayer _ _ _ _ => x % 2 + 2 * (y % 2)
  | .bicolor _ => if x % 2 = 0 then 1 else 0
  | .rgb _ => x % 3

/-- Stage 1 (R336). -/
def stage1 (f : PixFmt) (t : IspTables) (y : Nat) (xs : List Nat) : List Nat :=
  xs.zipIdx.map fun a => a.1 - t.black.getD (planeOf f a.2 y) 0

/-- The column of a sample, and the step to the next sample of its plane. -/
def sampleCol (f : PixFmt) (x : Nat) : Nat := match f.kind with
  | .rgb _ => x / 3
  | _ => x
def planeStep (f : PixFmt) : Nat := match f.kind with
  | .mono => 1
  | .rgb _ => 3
  | _ => 2

/-- The nearest unlisted sample at a step to one side. -/
def nearest (bad : Nat → Bool) (xs : Array Nat) (x : Int) (step : Int) : Nat → Option Nat
  | 0 => none
  | n + 1 =>
    let j := x + step
    if j < 0 ∨ (xs.size : Int) ≤ j then none else if bad j.toNat then nearest bad xs j step n else xs[j.toNat]?

/-- Stage 2 (R336): listed positions take the mean of the nearest unlisted samples of their plane. -/
def stage2 (f : PixFmt) (area : Bool) (t : IspTables) (y : Nat) (xs : List Nat) : List Nat :=
  let cols := (t.defects.filter fun d => !area || d.2 == y).map fun d => d.1
  if cols.isEmpty then xs
  else
    let arr := xs.toArray
    let bad := fun (x : Nat) => cols.contains (sampleCol f x)
    xs.zipIdx.map fun a =>
      if bad a.2 then
        match nearest bad arr a.2 (-(planeStep f : Int)) arr.size, nearest bad arr a.2 (planeStep f) arr.size with
        | some l, some r => (l + r + 1) / 2
        | some l, none => l
        | none, some r => r
        | none, none => 0
      else a.1

/-- Index of a sample's pair in the flat-field tables (log entry 28). -/
def flatIdx (f : PixFmt) (x y : Nat) : Nat := match f.kind with
  | .bayer _ _ _ _ => 2 * x + y % 2
  | _ => x

/-- Stage 3 (R337). -/
def stage3 (f : PixFmt) (t : IspTables) (y : Nat) (xs : List Nat) : List Nat :=
  xs.zipIdx.map fun a =>
    let j := flatIdx f a.2 y
    clamp16 (((a.1 : Int) - t.offsets.getD j 0) * (t.gains.getD j 16384 : Nat) + 8192 |>.fdiv 16384)

/-! ### Stage 4 (R338) -/

/-- Coordinates outside the frame reflect, again where the reflection falls outside. A frame of one line or column has none there. -/
def reflect (i : Int) (n : Nat) : Nat :=
  if n ≤ 1 then (if i = 0 then 0 else n)
  else
    let j := (i % (2 * ((n : Int) - 1))).toNat
    if j < n then j else 2 * (n - 1) - j

/-- What the demosaic reads: the sample at a row and column of the frame, and the colour there. -/
structure Mosaic where
  h   : Nat
  w   : Nat
  row : Nat → Option (Array Nat)
  kind : PixKind
  /-- The rows that the pipe has. -/
  rows : List (List Nat)

/-- The sample at a site. The manual gives none for a row that was cut (log entry 112). -/
def Mosaic.at' (m : Mosaic) (y x : Int) : Int :=
  match (m.row (reflect y m.h)).bind fun r => r[reflect x m.w]? with
  | some v => Int.ofNat v
  | none => Int.ofNat (Config.missingSample (reflect y m.h) (reflect x m.w) m.rows % 65536)

def Mosaic.colour (m : Mosaic) (y x : Int) : Nat := match m.kind with
  | .bayer a b c d =>
    let xo := x % 2 = 1
    let yo := y % 2 = 1
    if yo then (if xo then d else c) else (if xo then b else a)
  | _ => 0

/-- Green at a site. -/
def Mosaic.green (m : Mosaic) (y x : Int) : Int :=
  let g := m.at'
  if m.colour y x = 1 then g y x
  else
    let dh := |g y (x - 1) - g y (x + 1)| + |2 * g y x - g y (x - 2) - g y (x + 2)|
    let dv := |g (y - 1) x - g (y + 1) x| + |2 * g y x - g (y - 2) x - g (y + 2) x|
    if dh < dv then avgI [g y (x - 1), g y (x + 1)]
    else if dv < dh then avgI [g (y - 1) x, g (y + 1) x]
    else avgI [g y (x - 1), g y (x + 1), g (y - 1) x, g (y + 1) x]

/-- Red or blue at a site: green plus the mean colour difference of the nearest sites of that colour. -/
def Mosaic.other (m : Mosaic) (c : Nat) (y x : Int) : Nat :=
  if m.colour y x = c then (m.at' y x).toNat
  else
    let near : List (Int × Int) :=
      if m.colour y x = 1 then
        (if m.colour y (x + 1) = c then [(y, x - 1), (y, x + 1)] else [(y - 1, x), (y + 1, x)])
      else [(y - 1, x - 1), (y - 1, x + 1), (y + 1, x - 1), (y + 1, x + 1)]
    let diff := fun (q : Int × Int) =>
      let yy : Int := reflect q.1 m.h
      let xx : Int := reflect q.2 m.w
      m.at' yy xx - m.green yy xx
    clamp16 (m.green y x + avgI (near.map diff))

/-- An RGB line of a Bayer frame. -/
def bayerLine (m : Mosaic) (y : Nat) : List Nat :=
  (List.range m.w).flatMap fun (x : Nat) => [m.other 0 y x, (m.green y x).toNat, m.other 2 y x]

/-- An RGB line of a bilinear pair. -/
def bicolorLine (rgbg : Bool) (xs : List Nat) : List Nat :=
  let a := xs.toArray
  let n := a.size / 2
  let cc := fun (i : Nat) => (a[2 * i]?).getD 0
  let gg := fun (i : Nat) => (a[2 * i + 1]?).getD 0
  (List.range n).flatMap fun i =>
    let dl := ((gg i : Int) - gg (i - 1)).natAbs
    let dr := ((gg i : Int) - gg (i + 1)).natAbs
    let miss :=
      if n = 1 then Config.lonePixel xs % 65536
      else if i = 0 then cc (i + 1)
      else if i + 1 = n then cc (i - 1)
      else if dl < dr then cc (i - 1)
      else if dr < dl then cc (i + 1)
      else (avgI [(cc (i - 1) : Int), (cc (i + 1) : Int)]).toNat
    let red := (i % 2 == 0) == rgbg
    if red then [cc i, gg i, miss] else [miss, gg i, cc i]

/-- OR of the flags of lines. -/
def orFlags (ls : List StageLine) : Nat := ls.foldl (fun a l => a ||| l.flags) 0

/-- The lines that stage 4 emits when a new line has been read, and the lines it keeps (R338). -/
def stage4 (f : PixFmt) (e : IspEntry) (rows : List StageLine) (l : StageLine) : List StageLine × List StageLine :=
  match f.kind with
  | .mono => ([l], [])
  | .bicolor b => ([{ l with data := bicolorLine b l.data }], [])
  | .rgb _ =>
    let d := e.delays.foldl Nat.max 0
    let all := rows ++ [l]
    if l.idx < d then ([], all)
    else
      let n := l.idx - d
      let keep := all.filter fun x => decide (n < x.idx)
      let parts := (List.range 3).filterMap fun k => all.find? fun x => x.idx == n + e.delays.getD k 0
      match all.find? fun x => x.idx == n with
      | some first =>
        -- an output line needs every line that it takes a component of (log entry 112)
        if parts.length < 3 then ([], keep)
        else
          let comps := parts.map fun x => x.data.toArray
          let vals := (List.range first.data.length).map fun i => ((comps.getD (i % 3) #[])[i]?).getD 0
          ([{ first with data := vals, ivl := l.ivl, flags := orFlags parts }], keep)
      | none => ([], keep)
  | .bayer _ _ _ _ =>
    let kept := if (rows.getLast?.map fun x => decide (x.row < l.row)).getD false then rows else []
    let all := kept ++ [l]
    let arrs := all.map fun x => (x.row, x.data.toArray)
    let m : Mosaic := { h := e.hF, w := l.data.length, kind := f.kind, rows := all.map fun x => x.data
                        row := fun y => (arrs.find? fun x => x.1 == y).map fun x => x.2 }
    let last := l.row + 1 == e.hF
    let ys := if last then (List.range (l.row + 1)).filter fun y => decide (l.row ≤ y + 3) else if 3 ≤ l.row then [l.row - 3] else []
    (ys.filterMap fun y => (all.find? fun x => x.row == y).map fun x =>
        { x with data := bayerLine m y, ivl := l.ivl, flags := orFlags (all.filter fun z => decide (z.row ≤ y + 3 ∧ y ≤ z.row + 3)) },
     if last then [] else all.drop (all.length - 6))

/-! ### Stages 5 to 7 (R339, R340) -/

/-- Stage 5 on an RGB pixel: nine entries in row order, then three offsets. -/
def stage5 (t : IspTables) (px : List Nat) : List Nat :=
  (List.range 3).map fun i =>
    let m := fun (j : Nat) => t.matrix.getD (3 * i + j) (if i = j then 4096 else 0)
    clamp16 (((List.range 3).map fun j => m j * (px.getD j 0 : Nat)).sum + t.matrix.getD (9 + i) 0 + 2048 |>.fdiv 4096)

/-- Stage 6: interpolation in the LUT of a component. -/
def stage6 (t : IspTables) (comp x : Nat) : Nat :=
  let l := t.luts.getD comp []
  let at' := fun (i : Nat) => l.getD i (Nat.min 65535 (16 * i))
  (at' (x / 16) * (16 - x % 16) + at' (x / 16 + 1) * (x % 16) + 8) / 16

/-- Stages 5 and 6 on a line. -/
def stage56 (f : PixFmt) (t : IspTables) (xs : List Nat) : List Nat :=
  if isColour f then (chunks 3 xs.length xs).flatMap fun px => ((stage5 t px).zipIdx.map fun v => stage6 t v.2 v.1)
  else xs.map (stage6 t 0)

/-- The components of a cropped pixel that a stream carries; the manual does not define the mono component of a colour line. -/
def pickComps (colour : Bool) (o : OutStream) (px : List Nat) : List Nat :=
  if !colour then [px.getD 0 0] else if o.comp = 4 then px else if o.comp = 0 then [Config.monoOf px % 65536] else [px.getD (o.comp - 1) 0]

/-- The values of one output line from f_v lines of stage 6 (R340). -/
def streamVals (colour : Bool) (o : OutStream) (ls : List StageLine) : List Nat :=
  let n := if colour then 3 else 1
  let lines : List (Array (List Nat)) := ls.map fun l => ((chunks n l.data.length l.data).map (pickComps colour o)).toArray
  let comps := if colour && o.comp == 4 then 3 else 1
  (List.range (outPixels o)).flatMap fun x => (List.range comps).map fun k =>
    let vs := lines.flatMap fun a => (List.range o.fh).map fun j => Int.ofNat (((a[o.x0 + x * o.fh + j]?).getD []).getD k 0)
    let y := (avgI vs).toNat
    if o.u8 then Nat.min 255 ((y + 2 ^ o.shift / 2) / 2 ^ o.shift) else y

/-- Writes an output line of a stream to its ring, and forgets lines of buffers used again. -/
def emitLine (s : State) (p : Port) (j : Nat) (o : OutStream) (ivl flags : Nat) (tag : Word) (vals : List Nat) : State :=
  let n := nextOut s.isp.cam[p] j ivl
  let s := ringWrite s p o ivl n flags tag vals
  updIsp s p fun c =>
    { c with
      outs := vUpd c.outs j fun _ => (ivl, n + 1)
      ring := if j < 4 then (c.ring.filter fun l => decide (ivl < l.ivl + (planOf s).r + 3)) ++
          [{ stream := j, ivl := ivl, tag := tag, flags := flags, index := n, restart := (vGet? c.restart j).getD false }] else c.ring
      restart := vUpd c.restart j fun _ => false }

/-- Stage 7 for one stream (R340): the line joins the vertical group of its index since acceptance, and the last line of a group forms
the output line, with the tag of the first, unless a line of the group was cut (log entry 112). -/
def stage7 (s : State) (p : Port) (colour : Bool) (j : Nat) (o : OutStream) (l : StageLine) : State :=
  let g := (((vGet? (s.isp.cam[p]).groups j).getD []).filter fun x => x.idx / o.fv == l.idx / o.fv) ++ [l]
  if l.idx % o.fv + 1 < o.fv then updIsp s p fun c => { c with groups := vUpd c.groups j fun _ => g }
  else
    let s := updIsp s p fun c => { c with groups := vUpd c.groups j fun _ => [] }
    if g.length < o.fv then s else emitLine s p j o l.ivl (orFlags g) (g.headD l).tag (streamVals colour o g)

/-! ### Armed groups and line capacity (R42, R344) -/

/-- Takes the gain group, or the main group, of other tables. -/
def takeGain (a b : IspTables) : IspTables := { a with gains := b.gains }
def takeMain (a b : IspTables) : IspTables := { b with gains := a.gains }

/-- Armed groups become active at line index i_n + Δ (R344). -/
def armedApply (e : IspEntry) (ivl : Nat) (c : IspCam) : IspCam :=
  let note := fun (arm idx : Option Nat) => match arm, idx with
    | some n, none => if n ≤ ivl then some c.index else none
    | _, i => i
  let ig := note c.armGain c.idxGain
  let im := note c.armMain c.idxMain
  let due := fun (i : Option Nat) => match i with
    | some i => decide (i + e.delta ≤ c.index)
    | none => false
  let c := { c with idxGain := ig, idxMain := im }
  let c := if due ig then { c with active := takeGain c.active c.shadow, gainSt := 0, applied := c.index % 2 ^ 28, armGain := none, idxGain := none
                                   calUpd := if e.calEn then incW c.calUpd else c.calUpd } else c
  if due im then { c with active := takeMain c.active c.shadow, mainSt := 0, applied := c.index % 2 ^ 28, armMain := none, idxMain := none } else c

/-- A line beyond the capacity of its interval is not processed: the last line of the interval in each ring carries speed_cut (R42, R341). -/
def cutLine (s : State) (p : Port) (ivl : Nat) : State := (List.range 5).foldl (fun s j => flagWritten s p j ivl 8) s

/-- A line passes the stages of its pipe (R335). -/
def processLine (s : State) (p : Port) (e : IspEntry) (w : Nat) (f : PixFmt) (l : FifoLine) : State :=
  let s := updIsp s p (armedApply e l.ivl)
  let c := s.isp.cam[p]
  let s := updIsp s p fun c => { c with index := c.index + 1 }
  let n := pixSamples f w
  if l.cut then cutLine s p l.ivl
  else
    let t := if l.ivl < c.switchAt then c.former else c.active
    let x2 := stage2 f e.area t l.row (stage1 f t l.row (l.data.getD (List.replicate n e.fill)))
    let s := if e.calEn then emitLine s p 4 (tapStream e n) l.ivl l.flags l.tag x2 else s
    let (outs, rows) := stage4 f e c.rows { row := l.row, idx := c.index, ivl := l.ivl, tag := l.tag, flags := l.flags, data := stage3 f t l.row x2 }
    let s := updIsp s p fun c => { c with rows := rows }
    outs.foldl (fun s o => (e.streams.zipIdx).foldl (fun s x => stage7 s p (isColour f) x.2 x.1 { o with data := stage56 f t o.data }) s) s

/-! ### Pipes (R330, R537, R539) -/

/-- The camera at an input of a pipe. -/
def pipeCam (s : State) (q input : Nat) : Option Port := match s.img with
  | some i => (List.finRange 16).find? fun p => i.isps.any fun e => e.port == p.val && e.pipe == q && e.input == input
  | none => none

/-- The oldest eligible line of an input. -/
def headLine (s : State) (q input : Nat) : Option (Port × FifoLine) := match pipeCam s q input with
  | some p => match (s.isp.cam[p]).fifo with
    | l :: _ => if l.eligible then some (p, l) else none
    | [] => none
  | none => none

/-- The line that the pipe works on (R330): the one it took when it finished the last, else the first to become eligible. -/
def currentLine (s : State) (q : Pipe) : Option (Nat × Port × FifoLine) :=
  let a := (headLine s q 0).map fun x => (0, x)
  let b := (headLine s q 1).map fun x => (1, x)
  match s.isp.busy[q] with
  | some 0 => a
  | some _ => b
  | none => match a, b with
    | some x, some y => if y.2.2.since < x.2.2.since then b else a
    | some _, none => a
    | none, _ => b

/-- ISP cycles of one nanosecond that a line of a camera takes (R330). -/
def lineCycles (s : State) (p : Port) : Nat := ceilDiv (camSamples s p) 6

/-- PIPE_LINE_DONE (R330): the line leaves the pipe ⌈n_c / 6⌉ cycles after the pipe took it, and the pipe takes the next, from the other
input if it has one. -/
def execPipeLineDone (q : Pipe) (s : State) : Host.Outcome State Fault Refusal :=
  if s.isp.inReset[q] then ok s
  else match currentLine s q with
    | none => ok s
    | some (input, p, l) => match ispEntry s p, camEntry s p with
      | some e, some ce => match pixFmt? ce.pfnc with
        | some f =>
          let s := reach s (Nat.max l.since s.isp.freeC[q] + lineCycles s p)
          let s := updIsp s p fun c => { c with fifo := c.fifo.drop 1 }
          let s := processLine s p e ce.width f l
          let next := if (headLine s q (1 - input)).isSome then some (1 - input) else if (headLine s q input).isSome then some input else none
          ok { s with isp := { s.isp with busy := s.isp.busy.set q next, freeC := s.isp.freeC.set q s.c } }
        | none => ok s
      | _, _ => ok s

/-- A pipe resets (R537): lines in its FIFOs become fill lines flagged lost. -/
def resetPipe (s : State) (q : Pipe) (cause : Nat) : State :=
  let g := (s.pwr.genPipe[q] + 1) % 16
  let lose := fun (s : State) (p : Port) => updIsp s p fun c =>
    { c with fifo := c.fifo.map fun l => { l with data := none, entry := false, flags := l.flags ||| (if l.data.isSome || l.entry then 1 else 0) } }
  let s := ([0, 1].filterMap (pipeCam s q)).foldl lose s
  let s := { s with
    isp := { s.isp with inReset := s.isp.inReset.set q true, busy := s.isp.busy.set q none }
    pwr := { s.pwr with genPipe := s.pwr.genPipe.set q g } }
  resetEvent s 3 q cause g

/-- PIPE_LINE_TIMEOUT (R539): an eligible line was not finished within ⌈n_c / 6⌉ + 4,096 cycles of becoming eligible. -/
def execPipeLineTimeout (q : Pipe) (s : State) : Host.Outcome State Fault Refusal :=
  match currentLine s q with
  | some (_, p, l) =>
    if dieUp s && !s.isp.inReset[q] then
      ok (resetPipe { reach s (l.since + lineCycles s p + 4096) with pwr := { s.pwr with prog := incW s.pwr.prog } } q 0x05)
    else ok s
  | none => ok s

/-- PIPE_RESET_COMPLETE (R537). -/
def execPipeResetComplete (q : Pipe) (s : State) : Host.Outcome State Fault Refusal :=
  -- input 0 goes first after a reset (R330)
  let first := if (headLine s q 0).isSome then some 0 else if (headLine s q 1).isSome then some 1 else none
  ok (if s.isp.inReset[q] then { s with isp := { s.isp with inReset := s.isp.inReset.set q false, busy := s.isp.busy.set q first, freeC := s.isp.freeC.set q s.c } } else s)

/-! ### Table groups (R342-R345, R369) -/

/-- Columns with their planes: entries of the flat-field tables of a camera. -/
def flatCount (s : State) (p : Nat) : Nat := match camEntry s p with
  | some ce => match pixFmt? ce.pfnc with
    | some f => match f.kind with
      | .bayer _ _ _ _ => 2 * ce.width
      | _ => pixSamples f ce.width
    | none => 0
  | none => 0

/-- Words of a table of the window (log entry 28). -/
def tableWords (s : State) (p t : Nat) : Nat := match t with
  | 0 => 4 | 1 => 4096 | 2 | 3 => flatCount s p | 4 => 12 | 5 => 3 * 4097 | _ => 0

/-- Replaces entry n of a list, filling up with a default for each place. -/
def putAtWith {α : Type} (l : List α) (n : Nat) (d : Nat → α) (x : α) : List α :=
  (l ++ (List.range (n + 1 - l.length)).map fun j => d (l.length + j)).set n x

/-- Replaces entry n of a list, filling up with a default. -/
def putAt {α : Type} (l : List α) (n : Nat) (d x : α) : List α := putAtWith l n (fun _ => d) x

/-- A defect at no column, and the entry of a LUT that maps every value to itself (log entry 28). -/
def noDefect : Nat × Nat := (65536, 0)
def plainLut (i : Nat) : Nat := Nat.min 65535 (16 * i)

/-- Stores a word of a shadow table. -/
def putWord (t : IspTables) (table n : Nat) (v : Word) : IspTables :=
  let x := v.toNat
  match table with
  | 0 => { t with black := putAt t.black n 0 (x % 65536) }
  | 1 => { t with defects := putAt t.defects n noDefect (x % 65536, x / 65536) }
  | 2 => { t with offsets := putAt t.offsets n 0 (sext 16 x) }
  | 3 => { t with gains := putAt t.gains n 16384 (x % 65536) }
  | 4 => { t with matrix := putAtWith t.matrix n (fun j => if j < 9 ∧ j % 4 = 0 then 4096 else 0) (if n < 9 then sext 16 x else sext 32 x) }
  | _ => { t with luts := putAt t.luts (n / 4097) [] (putAtWith (t.luts.getD (n / 4097) []) (n % 4097) plainLut (x % 65536)) }

/-- A write of ISP_TBL_DATA (R342, R345, R369). -/
def tblWrite (s : State) (v : Word) : State :=
  let word := bits s.isp.tblAddr 0 20
  let cam := bits s.isp.tblAddr 20 4
  let table := bits s.isp.tblAddr 24 3
  let s' := { s with isp := { s.isp with tblAddr := setBits s.isp.tblAddr 0 20 ((word + 1) % 2 ^ 20) } }
  match ispEntry s cam with
  | none => ispFlag s' 32
  | some e =>
    if h : cam < 16 then
      let c := s.isp.cam[cam]
      if tableWords s cam table ≤ word then ispFlag s' 32
      else if table = 3 ∧ e.calEn then ispFlag s' 16
      else if (if table = 3 then c.gainSt else c.mainSt) ≠ 0 then ispFlag s' 8
      else updIsp s' ⟨cam, h⟩ fun c => { c with shadow := putWord c.shadow table word v }
    else ispFlag s' 32

/-- The camera that ISP_TBL_ADDR names. -/
def tblCam (s : State) : Port := ⟨bits s.isp.tblAddr 20 4, Nat.mod_lt _ (by decide)⟩

/-- A write of commit_main (R343, R345). -/
def commitMainCore (s : State) : State :=
  let p := tblCam s
  if (ispEntry s p).isNone then s
  else if (s.isp.cam[p]).mainSt ≠ 0 then ispFlag s 8
  else updIsp s p fun c => { c with mainSt := 1 }

/-- A write of commit_gain (R342, R343, R345). -/
def commitGainCore (s : State) : State :=
  let p := tblCam s
  match ispEntry s p with
  | none => s
  | some e =>
    if e.calEn then ispFlag s 16
    else if (s.isp.cam[p]).gainSt ≠ 0 then ispFlag s 8
    else updIsp s p fun c => { c with gainSt := 1 }

/-- A camera's pending groups at Landing n (R343, R344): active from interval n on, or armed; shadow copies are refilled. -/
def switchTables (n : Nat) (e : IspEntry) (c : IspCam) : IspCam :=
  let c := if c.gainSt = 0 ∧ !c.staged.isEmpty then
      { c with gainSt := 1, staged := []
               shadow := { c.shadow with gains := c.staged.foldl (fun g x => putAt g x.1 16384 x.2) c.shadow.gains } } else c
  if e.locked then
    { c with
      gainSt := if c.gainSt = 1 then 2 else c.gainSt, armGain := if c.gainSt = 1 then some n else c.armGain
      mainSt := if c.mainSt = 1 then 2 else c.mainSt, armMain := if c.mainSt = 1 then some n else c.armMain }
  else if c.gainSt = 1 ∨ c.mainSt = 1 then
    let a := if c.gainSt = 1 then takeGain c.active c.shadow else c.active
    let a := if c.mainSt = 1 then takeMain a c.shadow else a
    { c with active := a, former := c.active, switchAt := n, gainSt := 0, mainSt := 0
             -- an update of the calibration is applied when its group becomes active (R349)
             calUpd := if e.calEn ∧ c.gainSt = 1 then incW c.calUpd else c.calUpd
             applied := (c.index + (c.fifo.filter fun l => decide (l.ivl < n)).length) % 2 ^ 28 }
  else c

/-- The step of Landing n that applies shadow tables. -/
def landingTables (s : State) (n : Nat) : State :=
  (List.finRange 16).foldl (fun (s : State) (p : Port) => match ispEntry s p with
    | some e => updIsp s p (switchTables n e)
    | none => s) s

/-! ### Live calibration (R349) -/

/-- Gains that logical Wing k staged in the work of Beat b: pairs of table index and gain, 0 for a skipped column (log entry 29). -/
def stagedGains (s : State) (k : Nat) (rid first count b : Nat) : List (Nat × Nat) :=
  match (planOf s).regions.find? fun r => r.id == rid with
  | none => []
  | some r =>
    let a := versionAddr s r b
    let bs := if r.gallery then (match mapOf s k with | some p => memReads (s.phys[p]).gallery a (2 * count) | none => [])
      else memReads s.mem.dram a (2 * count)
    (List.range count).map fun j => (first + j, leAt bs (2 * j) 2)

/-- The gain columns of a Beat that is sealed enter the shadow copies; Wings without a result withhold theirs (R349). -/
def calibrate (s : State) (b : Nat) (complete : Nat → Bool) : State :=
  (List.finRange 16).foldl (fun (s : State) (p : Port) => match ispEntry s p with
    | none => s
    | some e =>
      if !e.calEn || b % e.calK != e.calK - 1 then s
      else
        let parts := e.calRegions.zipIdx.map fun x => (complete x.2, stagedGains s x.2 x.1.1 x.1.2.1 x.1.2.2 b)
        let good := (parts.filter fun x => x.1).flatMap fun x => x.2
        let new := good.filter fun x => x.2 != 0
        let skipped := (parts.filter fun x => !x.1).flatMap fun x => x.2
        let n := skipped.length + (good.length - new.length)
        let s := if skipped.isEmpty then s else ispFlag s 64
        updIsp s p fun c =>
          let c := { c with calSkip := satInc c.calSkip n }
          if new.isEmpty then c
          else if c.gainSt = 0 then
            { c with gainSt := 1, shadow := { c.shadow with gains := new.foldl (fun g x => putAt g x.1 16384 x.2) c.shadow.gains } }
          else { c with staged := c.staged ++ new }) s

/-- Lines cut in a camera's intervals before n that are not reported yet. -/
def cutBefore (s : State) (n : Nat) (p : Port) : Nat := (((s.isp.cam[p]).cutLines.filter fun x => decide (x.1 < n)).map fun x => x.2).sum

/-- Lines cut in the interval that closed: event 0x0300 for each camera and alarm 0x0002 with the sum (R42). -/
def reportCuts (s : State) (n : Nat) : State :=
  let cut := ((List.finRange 16).map fun p => (p, cutBefore s n p)).filter fun x => decide (0 < x.2)
  if cut.isEmpty then s
  else
    let s := cut.foldl (fun s x => updIsp (flagEvent s 0x10118 8 (leBytes 4 x.1.val ++ leBytes 4 x.2)) x.1 fun c =>
      { c with cutLines := c.cutLines.filter fun y => decide (n ≤ y.1) }) s
    raiseAlarm s 0x0002 0xFF 0xFF (leBytes 4 ((cut.map fun x => x.2).sum) ++ leBytes 2 ((cut.map fun x => 2 ^ x.1.val).sum))

end Sys2Proof.Machine
end

