-- ==== Sys2Proof/Machine/Assembler.lean ====
section
/-! DEFINITION. The Object Assembler: labelling and tracking of coarse masks, photo-eye and lane sources, fusion, the object
table, operation records, samples and postings (R350-R362, R603). How the mailbox and the output area are laid out is the
model's choice: log entry 30. -/

namespace Sys2Proof.Machine

open Sys2Proof

/-! ### Positions and columns (R350) -/

/-- Aligned position of a tag. -/
def aligned (e : IspEntry) (tag : Word) : Word := tag + BitVec.ofInt 32 e.oC

/-- Common column of a column of the camera. -/
def commonCol (e : IspEntry) (x : Nat) : Int := ((x * e.mC + 32768) / 65536 : Nat) + e.bC

/-- Camera columns that a column of a stream covers: first and last. -/
def streamCols (o : OutStream) (g : Nat) : Nat × Nat := (o.x0 + g * o.fh, o.x0 + g * o.fh + o.fh - 1)

/-! ### Reasons (R359, R603) -/

/-- Reasons of touching a line. -/
def lineReasons (l : RingLine) : List Nat :=
  (if l.flags % 4 ≠ 0 then [2] else []) ++ (if bit l.flags 2 then [0x0B] else []) ++ (if bit l.flags 3 then [7] else [])

/-- A line range overlaps a gap of the camera. -/
def overlapsGap (e : IspEntry) (c : IspCam) (lead trail : Word) : Bool :=
  c.gaps.any fun g =>
    decide (0 ≤ diff32 trail (aligned e g.1)) && (match g.2 with
      | some t => decide (0 ≤ diff32 (aligned e t) lead)
      | none => true)

def addReasons (rs new : List Nat) : List Nat := new.foldl (fun a r => if a.contains r then a else a ++ [r]) rs

/-! ### Labelling (R354) -/

/-- Runs of nonzero mask bytes of a row: first and last column. -/
def runsFrom : Nat → Option Nat → List Byte → List (Nat × Nat)
  | x, some a, [] => [(a, x - 1)]
  | _, none, [] => []
  | x, some a, b :: bs => if b = 0 then (a, x - 1) :: runsFrom (x + 1) none bs else runsFrom (x + 1) (some a) bs
  | x, none, b :: bs => if b = 0 then runsFrom (x + 1) none bs else runsFrom (x + 1) (some x) bs

/-- What labelling reads: the Wing, its plan and the stream. -/
structure Label where
  k     : Nat
  asm   : AsmPlan
  area  : MaskArea
  entry : IspEntry
  out   : OutStream
  cam   : IspCam
  width : Nat

/-- What labelling changes. -/
structure Track where
  asm    : Asm
  closed : List Closed := []
  opened : List Comp := []
  full   : Bool := false

/-- A run touches the last line of a component, 8-connected. -/
def touches (r : Nat × Nat) (c : Comp) : Bool := c.runs.any fun q => decide (r.1 ≤ q.2 + 1 ∧ q.1 ≤ r.2 + 1)

/-- Groups of components and runs that are connected: component IDs and runs. -/
def joinRun (mine : List Comp) (gs : List (List Nat × List (Nat × Nat))) (r : Nat × Nat) : List (List Nat × List (Nat × Nat)) :=
  let ids := (mine.filter (touches r)).map fun c => c.id
  let hit := gs.filter fun g => g.1.any ids.contains
  let rest := gs.filter fun g => !g.1.any ids.contains
  rest ++ [((ids ++ hit.flatMap fun g => g.1).eraseDups, (hit.flatMap fun g => g.2) ++ [r])]

/-- The record of a component that closes at a position. -/
def closeComp (l : Label) (c : Comp) (last : Word) (flags : Nat) : Closed :=
  { obj := { compObj l.k c with trail := last, flags := flags }, gl := c.gl, gr := c.gr
    reasons := addReasons c.reasons (if overlapsGap l.entry l.cam c.lead last then [2] else []) }

/-- A component that lies wholly within halo columns is discarded. -/
def wholeHalo (l : Label) (c : Comp) : Bool := decide (c.gr < l.area.haloL + l.area.x0 ∨ l.area.x0 + l.width - l.area.haloR ≤ c.gl)

def close (l : Label) (t : Track) (c : Comp) (last : Word) (flags : Nat) : Track :=
  if wholeHalo l c then t else { t with closed := t.closed ++ [closeComp l c last flags] }

/-- Extends a component by runs on a line. -/
def extend (l : Label) (c : Comp) (line : RingLine) (runs : List (Nat × Nat)) : Comp :=
  let gl := l.area.x0 + (runs.map fun r => r.1).foldl Nat.min 0xFFFFFF
  let gr := l.area.x0 + (runs.map fun r => r.2).foldl Nat.max 0
  let gl' := Nat.min c.gl gl
  let gr' := Nat.max c.gr gr
  let border := (if gl' < l.area.x0 + l.area.haloL ∧ 0 < l.k then 32 else 0) ||| (if l.area.x0 + l.width - l.area.haloR ≤ gr' ∧ 0 < l.area.haloR then 64 else 0)
  { c with
    last := aligned l.entry line.tag, gl := gl', gr := gr', lines := c.lines + 1, runs := runs
    left := commonCol l.entry (streamCols l.out gl').1, right := commonCol l.entry (streamCols l.out gr').2
    flags := c.flags ||| border
    reasons := addReasons c.reasons (lineReasons line ++ (if line.restart then [2] else [])) }

/-- A new component of a run (R354, R355): tracked, or an object at once when the tracker is full. -/
def openComp (l : Label) (doom : Option Nat) (line : RingLine) (t : Track) (r : Nat × Nat) : Track :=
  let pos := aligned l.entry line.tag
  let id := l.k * 2 ^ 29 + t.asm.nextId % 2 ^ 29
  let c0 : Comp := { id := id, stream := l.area.stream, camera := l.area.camera, lead := pos, last := pos, left := 0, right := 0
                     gl := 0xFFFFFF, gr := 0, lines := 0, reasons := doom.toList }
  let c := extend l c0 line [r]
  let asm := { t.asm with nextId := (t.asm.nextId + 1) % 2 ^ 29 }
  if 4096 ≤ t.asm.comps.length then
    let t := { t with asm := asm, full := true }
    close l t { c with reasons := addReasons c.reasons [4] }
      (pos + BitVec.ofNat 32 (Config.untrackedCounts l.area.camera pos.toNat l.asm.lMax)) (c.flags ||| 128)
  else if l.asm.lMax ≤ 1 then close l { t with asm := asm, opened := t.opened ++ [c] } c pos (c.flags ||| 1)
  else { t with asm := { asm with comps := asm.comps ++ [c] }, opened := t.opened ++ [c] }

/-- One line of a mask. -/
def labelLine (l : Label) (doom : Option Nat) (t : Track) (x : RingLine × List (Nat × Nat)) : Track :=
  let line := x.1
  let own := fun (c : Comp) => c.camera == l.area.camera && c.stream == l.area.stream
  -- a restart line: what was open closes at the camera's last delivered line
  let t := if line.restart then
      (t.asm.comps.filter own).foldl (fun t c => close l t c c.last c.flags) { t with asm := { t.asm with comps := t.asm.comps.filter fun c => !own c } }
    else t
  let mine := t.asm.comps.filter own
  let news := x.2.filter fun r => !mine.any (touches r)
  let gs := (x.2.filter fun r => mine.any (touches r)).foldl (joinRun mine) []
  let pos := aligned l.entry line.tag
  let fate := fun (t : Track) (c : Comp) =>
    if !own c then { t with asm := { t.asm with comps := t.asm.comps ++ [c] } }
    else match gs.find? fun g => g.1.contains c.id with
      | none => close l t c c.last c.flags
      | some g =>
        let oldest := (mine.find? fun m => g.1.contains m.id).map fun m => m.id
        if oldest = some c.id then
          let c := extend l c line g.2
          -- the range covers the ranges of the components that join it
          let js := mine.filter fun m => g.1.contains m.id
          let c := { c with left := (js.map fun m => m.left).foldl min c.left, right := (js.map fun m => m.right).foldl max c.right
                            gl := (js.map fun m => m.gl).foldl Nat.min c.gl, gr := (js.map fun m => m.gr).foldl Nat.max c.gr }
          if l.asm.lMax ≤ c.lines then close l t c pos (c.flags ||| 1)
          else { t with asm := { t.asm with comps := t.asm.comps ++ [c] } }
        else close l t { c with reasons := addReasons c.reasons (lineReasons line) } pos (c.flags ||| 2)
  let t := t.asm.comps.foldl fate { t with asm := { t.asm with comps := [] } }
  news.foldl (openComp l (if line.index = 0 then doom else none) line) t

/-- Lines of a stream in a capture interval, in order. -/
def intervalLines (c : IspCam) (stream ivl : Nat) : List RingLine := c.ring.filter fun (l : RingLine) => l.stream == stream && l.ivl == ivl

/-- The port of a camera is down for good as far as this interval goes: nothing of a later interval has arrived (R603). -/
def cameraDown (s : State) (p : Port) (ivl : Nat) : Bool :=
  (s.cam.port[p]).state != 4 && (s.isp.cam[p]).fifo.isEmpty && !(s.isp.cam[p]).ring.any fun l => decide (ivl < l.ivl)

/-- Labels the mask that lies in an area of the mailbox: rows × width bytes at a pitch. -/
def labelMask (s : State) (k : Nat) (a : AsmPlan) (m : MaskArea) (dram : Memory) (addr rows width pitch ivl : Nat) (doom : Option Nat)
    (asm : Asm) : Track :=
  if h : m.camera < 16 then
    match ispEntry s m.camera with
    | none => { asm := asm }
    | some e => match e.streams[m.stream]? with
      | none => { asm := asm }
      | some o =>
        let c := s.isp.cam[m.camera]
        let l : Label := { k := k, asm := a, area := m, entry := e, out := o, cam := c, width := width }
        let lines := (intervalLines c m.stream ivl).take rows
        let xs := lines.map fun x => (x, runsFrom 0 none (memReads dram (addr + x.index * pitch) width))
        let t := xs.foldl (labelLine l doom) { asm := asm }
        if cameraDown s ⟨m.camera, h⟩ ivl then
          let own := fun (c : Comp) => c.camera == m.camera && c.stream == m.stream
          (t.asm.comps.filter own).foldl (fun t c => close l t c c.last c.flags) { t with asm := { t.asm with comps := t.asm.comps.filter fun c => !own c } }
        else t
  else { asm := asm }

/-! ### Photo-eyes and lanes (R356) -/

/-- Reasons that lines of a camera within a range give an object. -/
def rangeReasons (s : State) (camera stream ivl : Nat) (lead : Word) (trail : Option Word) : List Nat :=
  match vGet? s.isp.cam camera, ispEntry s camera with
  | some c, some e =>
    let hit := (intervalLines c stream ivl).filter fun l =>
      decide (0 ≤ diff32 (aligned e l.tag) lead) && (match trail with | some t => decide (0 ≤ diff32 t (aligned e l.tag)) | none => true)
    hit.foldl (fun a l => addReasons a (lineReasons l ++ (if l.restart then [2] else []))) []
  | _, _ => []

/-- An object of a photo-eye. -/
def eyeStep (s : State) (k camera stream ivl x0 x1 : Nat) (doom : Option Nat) (t : Track) (e : Bool × Word) : Track :=
  let own := fun (c : Comp) => c.camera == camera && c.stream == stream
  match t.asm.eyes.find? own with
  | none =>
    if e.1 then
      let c : Comp := { id := k * 2 ^ 29 + t.asm.nextId % 2 ^ 29, stream := stream, camera := camera, lead := e.2, last := e.2, left := x0, right := x1
                        gl := x0, gr := x1, flags := 4, reasons := doom.toList }
      { t with asm := { t.asm with eyes := t.asm.eyes ++ [c], nextId := (t.asm.nextId + 1) % 2 ^ 29 }, opened := t.opened ++ [c] }
    else t
  | some c =>
    if e.1 then t
    else
      let gap := match vGet? s.isp.cam camera, ispEntry s camera with
        | some ic, some ie => overlapsGap ie ic c.lead e.2
        | _, _ => false
      let rs := addReasons c.reasons (rangeReasons s camera stream ivl c.lead (some e.2) ++ (if gap then [2] else []))
      { t with
        asm := { t.asm with eyes := t.asm.eyes.filter fun c => !own c }
        closed := t.closed ++ [{ obj := { compObj k c with trail := e.2 }, reasons := rs, gl := c.gl, gr := c.gr }] }

/-- The rising edges that an eye ignores in an interval: those while an object is open. -/
def ignoredEdges : Bool → List (Bool × Word) → Nat
  | _, [] => 0
  | open', e :: es => (if e.1 && open' then 1 else 0) + ignoredEdges e.1 es

/-- Edges of an input channel in a capture interval. -/
def eyeEdges (s : State) (ch ivl : Nat) : List (Bool × Word) :=
  (s.iio.edges.filter fun x => x.1 == ivl && x.2.1 == ch).map fun x => (x.2.2.1, x.2.2.2.2)

/-- A photo-eye or lane object that is still open takes the lines of an interval: their reasons, and the last of them as its edge so far. -/
def takeLines (s : State) (ivl : Nat) (c : Comp) : Comp :=
  { c with
    reasons := addReasons c.reasons (rangeReasons s c.camera c.stream ivl c.lead none)
    last := (intervalLines ((vGet? s.isp.cam c.camera).getD {}) c.stream ivl).foldl
      (fun (p : Word) (l : RingLine) => match ispEntry s c.camera with | some e => aligned e l.tag | none => p) c.last }

/-- The photo-eye and lane sources that a Wing handles, in an interval; lanes join while none of them stands and no Idle entry
is under way (R356, R547). -/
def fixedSources (s : State) (k : Nat) (a : AsmPlan) (ivl : Nat) (doom : Option Nat) (asm : Asm) : Track :=
  a.own.foldl (fun t x =>
    match (planOf s).sources.find? fun y => y.1 == x.1 && y.2.1 == x.2 with
    | some (_, _, .photoEye ch x0 x1) =>
      let t := (eyeEdges s ch ivl).foldl (eyeStep s k x.1 x.2 ivl x0 x1 doom) t
      { t with asm := { t.asm with eyes := t.asm.eyes.map fun c => if c.camera = x.1 ∧ c.stream = x.2 then takeLines s ivl c else c } }
    | some (_, _, .lanes cols) =>
      let own := fun (c : Comp) => c.camera == x.1 && c.stream == x.2
      if t.asm.lanes.any own then { t with asm := { t.asm with lanes := t.asm.lanes.map fun c => if own c then takeLines s ivl c else c } }
      else if s.pwr.idleAt.isSome then t
      else
        let now := match ispEntry s x.1, (intervalLines ((vGet? s.isp.cam x.1).getD {}) x.2 ivl).head? with
          | some e, some l => aligned e l.tag
          | _, _ => refCount s
        let new := cols.zipIdx.map fun q =>
          ({ id := q.2, stream := x.2, camera := x.1, lead := now, last := now, left := q.1.1, right := q.1.2, gl := q.1.1, gr := q.1.2 } : Comp)
        { t with asm := { t.asm with lanes := t.asm.lanes ++ new.map (takeLines s ivl) }, opened := t.opened ++ new }
    | _ => t) { asm := asm }

/-! ### Fusion (R351, R352) -/

/-- Submission order (R355): aligned trailing edge, left common column, ID. -/
def submitsBefore (a b : ObjRec) : Bool :=
  let d := diff32 a.trail b.trail
  decide (d < 0) || (d == 0 && (decide (a.left < b.left) || (a.left == b.left && decide (a.id < b.id))))

/-- Insertion sort by a strict order, stable. -/
def insertBy {α : Type} (lt : α → α → Bool) (x : α) : List α → List α
  | [] => [x]
  | y :: ys => if lt x y then x :: y :: ys else y :: insertBy lt x ys

def sortBy {α : Type} (lt : α → α → Bool) : List α → List α
  | [] => []
  | x :: xs => insertBy lt x (sortBy lt xs)

def camera (o : ObjRec) : Nat := o.stream % 16

/-- Centre column of an object. -/
def centre (o : ObjRec) : Int := (o.left + o.right) / 2

/-- The first line of a partner after a position, if it has delivered one by the end of interval ivl; a port that is not up counts as having
delivered. -/
def delivered (s : State) (ivl c : Nat) (after : Word) : Option (Option Word) :=
  match vGet? s.cam.port c, vGet? s.isp.cam c, ispEntry s c with
  | some p, some ic, some e =>
    match ((ic.ring.filter fun l => decide (l.ivl ≤ ivl)).map fun l => aligned e l.tag).find? fun t => decide (0 < diff32 t after) with
    | some t => some (some t)
    | none => if p.state = 4 ∧ p.accepting then none else some none
  | _, _, _ => some none

/-- Candidates of a master object among a partner camera's objects, the best one first. -/
def bestPartner (f : Fusion) (m : ObjRec) (ps : List Closed) (c : Nat) : Option Closed :=
  let ok := ps.filter fun p => camera p.obj == c && decide ((diff32 p.obj.trail m.trail).natAbs ≤ f.wT) &&
    decide ((centre p.obj - centre m).natAbs ≤ f.wX)
  let key := fun (p : Closed) => ((diff32 p.obj.trail m.trail).natAbs, (centre p.obj - centre m).natAbs, p.obj.id)
  let lt := fun (a b : Closed) => decide ((key a).1 < (key b).1 ∨ ((key a).1 = (key b).1 ∧ ((key a).2.1 < (key b).2.1 ∨
    ((key a).2.1 = (key b).2.1 ∧ (key a).2.2 < (key b).2.2))))
  (sortBy lt ok).head?

/-- An object as the view of its camera. -/
def ownView (c : Closed) : View :=
  { cam := camera c.obj, stream := c.obj.stream / 16, lead := c.obj.lead, trail := c.obj.trail, gl := c.gl, gr := c.gr }

/-- Settles one master object: its trail is the decision count, its partners are matched or missing. -/
def settle (s : State) (ivl : Nat) (f : Fusion) (m : Closed) (ps : List Closed) : Option (Closed × List Closed × Bool) :=
  let after := m.obj.trail + BitVec.ofNat 32 f.wT
  let ds := f.partners.map fun c => delivered s ivl c after
  if ds.any Option.isNone then none
  else
    -- the line that completes the decision is the last to arrive: tags are counts at arrival, less the camera's offset (R350)
    let tagOf := fun (c : Nat) (t : Word) => match ispEntry s c with | some e => t - BitVec.ofInt 32 e.oC | none => t
    let lines := (f.partners.zip ds).filterMap fun d => d.2.join.map fun t => (t, tagOf d.1 t)
    let count := (lines.foldl (fun t d => if 0 < diff32 d.2 t.2 then d else t) (m.obj.trail, tagOf f.master m.obj.trail)).1
    let (m', ps', missing) := f.partners.foldl (fun (acc : Closed × List Closed × Bool) c =>
      match bestPartner f m.obj acc.2.1 c with
      | some p =>
        ({ acc.1 with obj := { acc.1.obj with flags := acc.1.obj.flags ||| 8, views := acc.1.obj.views ||| p.obj.views }
                      reasons := addReasons acc.1.reasons p.reasons
                      views := acc.1.views ++ [some (ownView p)] },
         acc.2.1.filter fun q => q.obj.id != p.obj.id, acc.2.2)
      | none => ({ acc.1 with obj := { acc.1.obj with flags := acc.1.obj.flags ||| 16 }, reasons := addReasons acc.1.reasons [9], views := acc.1.views ++ [none] }, acc.2.1, true))
      (m, ps, false)
    some ({ m' with obj := { m'.obj with trail := count } }, ps', missing)

/-- Fusion of everything that has closed: finished objects, masters and partners that wait, and whether a view was missing. -/
def fuse (s : State) (ivl : Nat) (asm : Asm) (closed : List Closed) : List Closed × Asm × Bool :=
  let fs := (planOf s).fusions
  let isMaster := fun (x : Closed) => fs.any fun f => f.master == camera x.obj
  let isPartner := fun (x : Closed) => fs.any fun f => f.partners.contains (camera x.obj)
  let alone := closed.filter fun x => !isMaster x && !isPartner x
  let lt := fun (a b : Closed) => submitsBefore a.obj b.obj
  let masters := sortBy lt (asm.masters ++ closed.filter isMaster)
  let partners := asm.partners ++ closed.filter fun x => isPartner x && !isMaster x
  let (done, wait, ps, miss) := masters.foldl (fun (acc : List Closed × List Closed × List Closed × Bool) m =>
    match fs.find? fun f => f.master == camera m.obj with
    | some f => match settle s ivl f m acc.2.2.1 with
      | some (m', ps, x) => (acc.1 ++ [m'], acc.2.1, ps, acc.2.2.2 || x)
      | none => (acc.1, acc.2.1 ++ [m], acc.2.2.1, acc.2.2.2)
    | none => (acc.1 ++ [m], acc.2.1, acc.2.2.1, acc.2.2.2)) ([], [], partners, false)
  -- partner objects that no master has claimed once the master's lines are past them
  let orphan := fun (p : Closed) => match fs.find? fun f => f.partners.contains (camera p.obj) with
    | some f => (delivered s ivl f.master (p.obj.trail + BitVec.ofNat 32 f.wT)).isSome &&
        !wait.any fun m => camera m.obj == f.master && decide ((diff32 p.obj.trail m.obj.trail).natAbs ≤ f.wT)
    | none => true
  let lost := (ps.filter orphan).map fun p =>
    { p with obj := { p.obj with flags := p.obj.flags ||| 16 }, reasons := addReasons p.reasons [9] }
  (alone ++ done ++ lost, { asm with masters := wait, partners := ps.filter fun p => !orphan p }, miss || !lost.isEmpty)

/-! ### Outputs (R353, R358, R360, R361) -/

/-- The 32 bytes of an object record (R358). -/
def objBytes (o : ObjRec) : List Byte :=
  leBytes 4 o.id ++ leBytes 4 o.lead.toNat ++ leBytes 4 o.trail.toNat ++ leBytes 2 (twos 16 o.left) ++ leBytes 2 (twos 16 o.right) ++
  leBytes 1 o.stream ++ leBytes 1 o.lwing ++ leBytes 1 o.flags ++ leBytes 1 (if o.openPart then 1 else 0) ++ leBytes 2 o.views ++ leBytes 2 0 ++
  leBytes 4 o.slot ++ leBytes 4 0

/-- Slots that JOINs of a Beat take in turn (R184, R185): none for a JOIN that will be refused. -/
def predictSlots (w : WingPlan) (kv : Kv) (beat n : Nat) : List (Option Nat) :=
  let held := (kvSeqs w kv).map fun x => x.1
  let free := ((List.range w.slotCount).filter fun j => !held.contains (w.slotFirst + j) && !kv.left.contains j).map (w.slotFirst + ·)
  let ready := readyPages w kv beat
  (List.range n).map fun j => if w.rho < ready - j then free[j]? else none

/-- JOIN records, and LEAVE records of the objects that closed and hold a slot (R183, R353). -/
def seqRecords (w : WingPlan) (cls beat : Nat) (kv : Kv) (opened : List Comp) (done : List ObjRec) : List (List Byte) × List (List Byte) :=
  let lt := fun (a b : Comp) => decide (diff32 a.lead b.lead < 0) || (a.lead == b.lead && (decide (a.left < b.left) || (a.left == b.left && decide (a.id < b.id))))
  let js := sortBy lt opened
  let slots := (js.map fun c => c.id).zip (predictSlots w kv beat js.length)
  let slotOf : Nat → Option Nat := fun id => (match (kvSeqs w kv).find? fun x => x.2.object == id with
    | some x => some x.1
    | none => match slots.find? fun (x : Nat × Option Nat) => x.1 == id with
      | some x => x.2
      | none => (none : Option Nat))
  (js.map fun c => leBytes 1 1 ++ leBytes 1 cls ++ leBytes 2 0 ++ leBytes 4 c.id ++ leBytes 8 0,
   done.filterMap fun o => (slotOf o.id).map fun sl => leBytes 1 2 ++ leBytes 1 0 ++ leBytes 2 sl ++ leBytes 4 0 ++ leBytes 8 0)

/-- Bytes of a sample, a whole number of blocks. -/
def sampleBytes (a : AsmPlan) (o : OutStream) : Nat := ceilDiv (a.sampleH * (ceilDiv (a.sampleW * outComps o) 32 * 32) * elemSize o) 512 * 512

/-- The bytes of a window of w elements per component of a ring line. -/
def lineWindow (s : State) (p : Nat) (o : OutStream) (l : RingLine) (x0 w : Nat) (dram : Memory) : List Byte :=
  let a := bufAddr s p o l.ivl + l.index * linePitch o * elemSize o
  let per := if o.layout = 1 then 16 else outComps o
  (List.range w).flatMap fun x => (List.range (outComps o)).flatMap fun c => memReads dram (a + ((x0 + x) * per + c) * elemSize o) (elemSize o)

/-- Blocks of a ring line whose CRC-32C fails. -/
def lineBad (s : State) (p : Nat) (o : OutStream) (bad : List Nat) (l : RingLine) : List Nat :=
  let a := bufAddr s p o l.ivl + l.index * linePitch o * elemSize o
  (blocksOf a (linePitch o * elemSize o)).filter bad.contains

/-- The sample of a view from the lines up to interval ivl (R360): its bytes, and the blocks of it that failed (R361). -/
def cutSample (s : State) (a : AsmPlan) (ivl : Nat) (dram : Memory) (bad : List Nat) (v : View) : List Byte × List Nat :=
  match vGet? s.isp.cam v.cam, ispEntry s v.cam with
  | some c, some e => match e.streams[v.stream]? with
    | none => ([], [])
    | some o =>
      let all := c.ring.filter fun (l : RingLine) => l.stream == v.stream && decide (l.ivl ≤ ivl)
      let before := fun (t : Word) => (all.filter fun (l : RingLine) => decide (diff32 (aligned e l.tag) t < 0)).length
      let mid := (before v.lead + before v.trail) / 2
      let y0 := Nat.min (mid - a.sampleH / 2) (all.length - a.sampleH)
      let x0 := Nat.min ((v.gl + v.gr) / 2 - a.sampleW / 2) (outPixels o - a.sampleW)
      let ls := (all.drop y0).take a.sampleH
      let row := ceilDiv (a.sampleW * outComps o) 32 * 32 * elemSize o
      let hit := ls.flatMap (lineBad s v.cam o bad)
      (if hit.isEmpty then padTo (sampleBytes a o) (ls.flatMap fun (l : RingLine) => padTo row (lineWindow s v.cam o l x0 a.sampleW dram))
       else List.replicate (sampleBytes a o) 0, hit)
  | _, _ => ([], [])

/-- The views of an object in the order of its fusion group, none for a missing one: the master's first, then the partners' (R351, R352). A
partner object that no master claimed has its own view in its place and none elsewhere. -/
def sampleViews (s : State) (c : Closed) : List (Option View) :=
  match (planOf s).fusions.find? fun f => f.partners.contains (camera c.obj) with
  | some f => if f.master = camera c.obj then some (ownView c) :: c.views
      else none :: f.partners.map fun p => if p = camera c.obj then some (ownView c) else none
  | none => some (ownView c) :: c.views

/-- The samples of an object, and the blocks of them that failed: zeros in the place of a missing view. -/
def objSamples (s : State) (a : AsmPlan) (ivl : Nat) (dram : Memory) (bad : List Nat) (c : Closed) : List Byte × List Nat :=
  let len := (cutSample s a ivl dram bad (ownView c)).1.length
  let cuts := (sampleViews s c).map fun v => match v with
    | some v => cutSample s a ivl dram bad v
    | none => (List.replicate len 0, [])
  (cuts.flatMap fun x => x.1, cuts.flatMap fun x => x.2)

/-- What a run of the Assembler gives back. -/
structure AsmOut where
  dram    : Memory
  bad     : List Nat
  work    : Work
  note    : AsmNote := {}

/-- Bytes that the Assembler writes, with the blocks whose CRC-32C fails: a whole block takes a fresh one (R69, R361). -/
def asmWrite (m : Memory × List Nat) (a : Nat) (bs : List Byte) : Memory × List Nat :=
  (memWrites m.1 a bs, m.2.filter fun b => !within (512 * b) 512 a bs.length)

/-- Places of the output area (log entry 30): counts, object table, JOIN and LEAVE records, line ranges, samples. -/
def outPlaces (a : AsmPlan) : List Nat :=
  let b := a.outBase + 512
  let t := ceilDiv (32 * (a.oMax + 4096)) 512 * 512
  let r := ceilDiv (16 * (a.oMax + 4096)) 512 * 512
  [b, b + t, b + t + r, b + t + 2 * r, b + t + 3 * r]

/-- The last run of the Assembler in a Beat settles the objects and writes the outputs. -/
def finishRun (s : State) (k : Nat) (w : WingPlan) (b : Nat) (o : AsmOut) : AsmOut :=
  let a := w.asm
  let ivl := b - 1
  -- entry to Idle closes every open component and lane sequence (R547)
  let stop := s.pwr.idleAt == some (b - 1)
  let ended := (if stop then openComps o.work.asm else []).map fun c =>
    ({ obj := compObj k c, reasons := addReasons c.reasons [2], gl := c.gl, gr := c.gr } : Closed)
  let asm0 := if stop then { o.work.asm with comps := [], eyes := [], lanes := [] } else o.work.asm
  let (done, asm, miss) := fuse s ivl asm0 (o.work.closed ++ ended)
  let lt := fun (x y : Closed) => submitsBefore x.obj y.obj
  let done := (sortBy lt done).zipIdx.map fun x => { x.1 with obj := { x.1.obj with slot := x.2 } }
  let open' := (openComps asm).filter fun c => c.flags &&& 96 != 0
  let table := (done.map fun x => x.obj) ++ open'.map fun c => { compObj k c with openPart := true }
  let (joins, leaves) := if a.sampleW = 0 then seqRecords w a.seqClass b o.work.kv o.work.opened (done.map fun x => x.obj) else ([], [])
  let active := (openComps asm).map (fun c => (c.id, c.camera, c.stream, c.lead, none)) ++
    done.map (fun x => (x.obj.id, camera x.obj, x.obj.stream / 16, x.obj.lead, some x.obj.trail))
  let rangeOf := fun (x : Nat × Nat × Nat × Word × Option Word) => match vGet? s.isp.cam x.2.1, ispEntry s x.2.1 with
    | some c, some e =>
      let ls := (intervalLines c x.2.2.1 ivl).filter fun (l : RingLine) => decide (0 ≤ diff32 (aligned e l.tag) x.2.2.2.1) &&
        (match x.2.2.2.2 with | some t => decide (0 ≤ diff32 t (aligned e l.tag)) | none => true)
      (x.1, x.2.1, x.2.2.1, ls)
    | _, _ => (x.1, x.2.1, x.2.2.1, [])
  let ranges := active.map rangeOf
  -- rows of a streaming stream whose blocks fail are zeroed
  let (dram, bad, zeroed) := if a.sampleW = 0 then
      ranges.foldl (fun (acc : Memory × List Nat × List (Nat × Nat × List Nat)) x =>
        match ispEntry s x.2.1 with
        | some e => match e.streams[x.2.2.1]? with
          | some os =>
            let hit := x.2.2.2.filter fun l => !(lineBad s x.2.1 os acc.2.1 l).isEmpty
            if hit.isEmpty then acc
            else
              let len := linePitch os * elemSize os
              let wr := fun (m : Memory) (l : RingLine) => memWrites m (bufAddr s x.2.1 os l.ivl + l.index * len) (List.replicate len 0)
              let gone := hit.flatMap fun (l : RingLine) => blocksOf (bufAddr s x.2.1 os l.ivl + l.index * len) len
              (hit.foldl wr acc.1, acc.2.1.filter fun q => !gone.contains q, acc.2.2 ++ [(x.1, x.2.1, gone.filter acc.2.1.contains)])
          | none => acc
        | none => acc) (o.dram, o.bad, [])
    else (o.dram, o.bad, [])
  let places := outPlaces a
  let at' := fun (j : Nat) => places.getD j 0
  -- samples
  let ((dram, bad), zeroed) := if a.sampleW = 0 then ((dram, bad), zeroed)
    else done.zipIdx.foldl (fun (acc : (Memory × List Nat) × List (Nat × Nat × List Nat)) x =>
      let bs := objSamples s a ivl dram bad x.1
      (asmWrite acc.1 (at' 4 + (x.2 % Nat.max 1 a.batchCap) * bs.1.length) bs.1,
       if bs.2.isEmpty then acc.2 else acc.2 ++ [(x.1.obj.id, camera x.1.obj, bs.2)])) ((dram, bad), zeroed)
  let counts := [table.length, joins.length, leaves.length, ranges.length].flatMap (leBytes 4)
  let rangeBytes := ranges.flatMap fun x =>
    leBytes 4 x.1 ++ leBytes 1 x.2.1 ++ leBytes 1 x.2.2.1 ++ leBytes 2 x.2.2.2.length ++ leBytes 4 ((x.2.2.2.head?.map fun (l : RingLine) => l.index).getD 0) ++ leBytes 4 0
  let out := [(a.outBase, counts), (at' 0, table.flatMap objBytes), (at' 1, joins.flatten), (at' 2, leaves.flatten), (at' 3, rangeBytes)]
  let (dram, bad) := out.foldl (fun m x => asmWrite m x.1 (padTo (ceilDiv x.2.length 512 * 512) x.2)) (dram, bad)
  let posts := (done.flatMap fun x => x.reasons.map fun r => (x.obj.id, r)) ++ zeroed.map fun z => (z.1, 1)
  let free := a.batchCap - done.length
  { o with
    dram := dram, bad := bad
    work := { o.work with asm := asm, closed := [], opened := [], objs := table, unassessed := o.work.unassessed ++ posts }
    note := { o.note with
      flags := o.note.flags ||| (if miss then 128 else 0) ||| (if zeroed.isEmpty then 0 else 1024) |||
        (if a.sampleW ≠ 0 ∧ free < a.lowWater then 512 else 0)
      corrupt := zeroed.map fun z => z.2.1
      defects := (zeroed.flatMap fun z => z.2.2).eraseDups.map fun b => 512 * b
      free := if a.sampleW = 0 then none else some free } }

/-- A run of the Assembler for work Beat b of logical Wing k, started by a COPY of C at an address (R353). -/
def assemble (s : State) (k : LWing) (w : WingPlan) (b addr rows width pitch : Nat) (dram : Memory) (bad : List Nat) (x : Work) : AsmOut :=
  let a := w.asm
  let ivl := b - 1
  let doom := (s.lw[k]).doomNext
  if b = 0 then { dram := dram, bad := bad, work := { x with asmRuns := x.asmRuns + 1 } }
  else
    let t0 : Track := if x.asmRuns = 0 then fixedSources s k a ivl doom x.asm else { asm := x.asm }
    let ignored := if x.asmRuns = 0 then
        a.own.filterMap fun y => match (planOf s).sources.find? fun z => z.1 == y.1 && z.2.1 == y.2 with
          | some (_, _, .photoEye ch _ _) =>
            some (ch.val, ignoredEdges (x.asm.eyes.any fun c => c.camera == y.1 && c.stream == y.2) (eyeEdges s ch ivl))
          | _ => none
      else []
    let t1 := match a.masks.find? fun m => a.mailBase + m.offset == addr with
      | some m => labelMask s k a m dram addr rows width pitch ivl doom t0.asm
      | none => { asm := t0.asm }
    let runs := x.asmRuns + 1
    let work := { x with asm := t1.asm, asmRuns := runs, closed := x.closed ++ t0.closed ++ t1.closed, opened := x.opened ++ t0.opened ++ t1.opened }
    let o : AsmOut := { dram := dram, bad := bad, work := work, note := { flags := if t1.full then 256 else 0, ignored := ignored } }
    if a.masks.length ≤ runs then finishRun s k w b o else o

end Sys2Proof.Machine
end

