-- ==== Sys2Proof/Machine/Queues.lean ====
section
/-! DEFINITION. The nine queues of a Wing sequencer: which command a queue may issue, what it does when it completes, what
a failed check leaves, and best-effort steps (R71, R254-R260, R265-R274, R412-R421). -/

namespace Sys2Proof.Machine

open Sys2Proof

/-! ### What runs -/

/-- The lists of a table with their command indices (R255). -/
def indexQueues (qs : List (List (List Byte))) : Vector (List (Nat × Cmd)) 9 :=
  Vector.ofFn fun q : Fin 9 =>
    let base := ((qs.take q.val).map List.length).sum
    (qs.getD q.val []).zipIdx.map fun x => (base + x.2, cmdOf x.1)

/-- The adapter bank in force for the work of a Beat (R286, R287). -/
def bankFor (s : State) (beat : Nat) : Nat := if beat < s.wng.adpt.done then 1 - s.wng.adpt.bank else s.wng.adpt.bank

/-- The command at issue. -/
def issueOf (s : State) (w : Work) (qi : Nat) (be : Bool) (idx : Nat) (c : Cmd) : Issue :=
  { img := s.img.getD {}, k := w.lw, qi := qi, index := idx, cmd := c, beat := w.beat, be := be
    beta := if be then (jobRec s c.job w.lw).steps else w.beat
    seed := ((vGet? s.wng.seeds c.job).getD 0).toNat, dramBytes := dramBytes s, bank := bankFor s w.beat }

/-- What the engine sees of the state. -/
def engOf (s : State) (p : PWing) (w : Work) : Eng :=
  let x := s.phys[p]
  { gal := x.gallery, tiles := x.tiles, tileW := x.tileWritten, dram := s.mem.dram
    badGal := x.galBad, badTile := x.tileBad, badDram := s.mem.bad
    shadow := w.shadow, scratch := w.scratch, kv := w.kv, bank := w.bank }

/-- The wait of a command is met (R267). -/
def waitMet (w : Work) (c : Cmd) : Bool := !cWaitEn c || decide (c.waitVal ≤ (vGet? w.tok c.waitTok).getD 0)

/-- A failed check of the queue waits for its repeat. -/
def failingOn (w : Work) (qi : Nat) : Option Failing := w.failing.find? fun f => f.queue == qi

/-- The latency-critical command that a queue may issue. -/
def headLc (w : Work) (qi : Nat) : Option (Nat × Cmd) :=
  match ((vGet? w.lc qi).getD []).head? with
  | some x => if waitMet w x.2 && (failingOn w qi).isNone then some x else none
  | none => none

/-- The best-effort command that a queue may issue at cycle t (R272). -/
def headBe (s : State) (p : PWing) (w : Work) (qi t : Nat) : Option (Nat × Cmd) :=
  let lc := ((vGet? w.lc qi).getD []).head?
  let lam := lambdaK (planOf s)
  match ((vGet? w.be qi).getD []).head? with
  | some x =>
    if (failingOn w qi).isNone && (match lc with | some y => !waitMet w y.2 | none => true) && waitMet w x.2 && !w.repeated &&
        (s.phys[p]).role == 0 && !(qi == 0 && w.bank.isSome) &&
        decide (t + x.2.wcc ≤ (match lc with | some y => Nat.min y.2.slot lam | none => lam)) then some x
    else none
  | none => none

/-- The command that a queue issues at cycle t: its class, its index and itself. -/
def queueHead (s : State) (p : PWing) (w : Work) (qi t : Nat) : Option (Bool × Nat × Cmd) :=
  match headLc w qi with
  | some x => some (false, x)
  | none => (headBe s p w qi t).map fun x => (true, x)

/-! ### Best-effort steps (R273) -/

/-- The best-effort job that follows another in ascending ID, wrapping round, among those that may run on k: a job that is suspended runs on no
Wing (R274). -/
def nextJob (s : State) (k : Nat) (last : Option Nat) : Option Nat :=
  let ids := ((planOf s).jobs.filter fun j => j.bestEffort && bit j.wings k && !(s.wng.jobs.any fun x => x.job == j.id && x.suspended) &&
    (wingPlan s k).steps.any fun l => l.job == j.id).map fun j => j.id
  let least := fun (l : List Nat) => l.foldl (fun (m : Option Nat) x => match m with | some y => some (Nat.min x y) | none => some x) none
  match last with
  | none => least ids
  | some l => match least (ids.filter fun i => decide (l < i)) with
    | some i => some i
    | none => least ids

/-- The Wing starts the next step, if it is Active and none is in flight. -/
def startStep (s : State) (p : PWing) : State :=
  match (s.phys[p]).work with
  | none => s
  | some w =>
    if (s.phys[p]).role ≠ 0 ∨ w.shadow ∨ w.beJob.isSome then s
    else match nextJob s w.lw s.wng.lastJob[w.lw] with
      | none => s
      | some j =>
        let qs := ((wingPlan s w.lw).steps.find? fun l => l.job == j).elim [] fun l => l.queues
        let s := { s with wng := { s.wng with lastJob := s.wng.lastJob.set w.lw (some j) } }
        updPhys s p fun x => { x with work := some { w with be := indexQueues qs, beJob := some j, beWritten := [] } }

/-- A step whose commands have all completed is counted, its versions count as written, and the next step starts. -/
def completeStep (s : State) (p : PWing) : State :=
  match (s.phys[p]).work with
  | none => s
  | some w => match w.beJob with
    | none => s
    | some job =>
      if w.be.any fun l => !l.isEmpty then s
      else
        let j := jobRec s job w.lw
        let s := setJobRec s { j with steps := j.steps + 1, discards := 0 }
        let s := { s with wng := { s.wng with beSteps := incW s.wng.beSteps, adpt := if (planOf s).trainJob == some job then { s.wng.adpt with steps := s.wng.adpt.steps + 1 } else s.wng.adpt } }
        let s := updPhys s p fun x => { x with work := some { w with beJob := none, written := w.written ++ w.beWritten, beWritten := [] } }
        startStep s p

/-! ### Checks (R39, R98, R266, R412) -/

/-- The failed check that an error of the command itself gives (R169, R250, R446). -/
def engFail (qi : Nat) (issued : Bool) : EngErr → CheckFail
  | .fault => { cause := if !issued then 3 else if qi = 0 then 1 else if qi ≤ 6 then 2 else 3, unit := qi, result := if qi = 0 then 32 else 16 }
  | .crc b dram =>
    { cause := if dram then 6 else 5, unit := qi, result := if 1 ≤ qi ∧ qi ≤ 6 then 2 else 0, first := if qi = 0 then 0xFFFFFFFF else b
      block := some (512 * b), inDram := dram }
  | .unwritten b => { cause := 2, unit := qi, result := 4, first := b }
  | .stream b => { cause := 2, unit := qi, result := 8, first := b }
  | .results => { cause := 2, unit := qi, result := 32 }
  | .check f => { f with unit := qi }
  | .ownership | .share => { cause := 4, unit := qi }
  | .tag => { cause := 1, unit := qi }

/-- Opcodes that work on the KV allocator (R180), and those that change it (R188). -/
def kvReads (o : Nat) : Bool := decide (0x18 ≤ o ∧ o ≤ 0x1C)
def kvWrites (o : Nat) : Bool := o == 0x18 || o == 0x1C

/-- Carried versions that a command reads: the region, the version, and whether it reads the mirror or home in DRAM (R87, R179, R265). -/
def readVersions (s : State) (w : Work) (c : Cmd) : List (Region × Int × Bool) :=
  (if kvReads c.opcode then (kvRegions (planOf s) (wingPlan s w.lw)).map fun x => (x.2, (w.beat : Int) - 1, true) else []) ++
  (List.range 8).filterMap fun i => match opDesc (wingPlan s w.lw) c i with
    | some d =>
      if d.vsel = 1 then
        ((planOf s).regions.find? fun r => r.id == d.region).map fun r =>
          (r, (if r.owner = w.lw.val then (w.beat : Int) - 1 else (w.beat : Int) - 1 - (planOf s).r), d.space == 1)
      else none
    | none => none

/-- The memory that holds a region for physical Wing p. -/
def regionMem (s : State) (p : PWing) (r : Region) : Memory := if r.gallery then (s.phys[p]).gallery else s.mem.dram

/-- Regions whose version b a command writes. -/
def writtenRegions (s : State) (k : Nat) (c : Cmd) : List Nat :=
  (if kvWrites c.opcode then (wingPlan s k).kvRegions else []) ++ (List.range 8).filterMap fun i => match opDesc (wingPlan s k) c i with
    | some d => if d.vsel = 2 && slotWritten c.opcode i then some d.region else none
    | none => none

/-- The place of a version that a command reads first, if its check value does not match (R39). -/
def badRegion (s : State) (p : PWing) (w : Work) (c : Cmd) : Option Nat :=
  (readVersions s w c).findSome? fun x =>
    let (r, v, dram) := x
    match regionBase r (if dram then 1 else 0) with
    | none => none
    | some b =>
      let a := versionAddr s { r with base := b } v
      let m := if dram then s.mem.dram else (s.phys[p]).gallery
      if s.mem.carried.any fun y => y.region == r.id && decide ((y.version : Int) = v + 1) && !y.verified && rangeCheck m a r.size != y.check
      then some a else none

/-- The versions that a command has read are verified. -/
def markVerified (s : State) (w : Work) (c : Cmd) : State :=
  let vs := readVersions s w c
  if vs.isEmpty then s
  else { s with mem := { s.mem with carried := s.mem.carried.map fun y =>
      (if vs.any fun x => x.1.id == y.region && decide (x.2.1 + 1 = (y.version : Int)) then { y with verified := true } else y) } }

/-- Operands of a command that lie in secure granules while its Wing is non-secure (R518): slot, space and first such block. -/
def worldHits (s : State) (i : Issue) : List (Nat × Nat × Nat) :=
  match openUnit s fun m => bit m.wings i.k with
  | none => []
  | some m => (List.range 8).flatMap fun j => match operand i j with
    | .ok (some o) =>
      let hit := fun (a n : Nat) => ((secureBlock m i.k o.space a n).map fun b => (j, o.space, b)).toList
      hit o.addr (dExtent o.d) ++ (if o.d.scaled then hit o.scale (ceilDiv (dStored o.d) 32) else [])
    | _ => []

/-- The first of them that is read: its block has the CRC-32C inverted. -/
def worldRead (s : State) (i : Issue) : Option (Nat × Nat) :=
  ((worldHits s i).find? fun h => !slotWritten i.cmd.opcode h.1).map fun h => h.2

/-- What the engine wrote to secure granules of a non-secure Wing is dropped. -/
def dropWorld (s : State) (i : Issue) (old new : Eng) : Eng :=
  match openUnit s fun m => bit m.wings i.k with
  | none => new
  | some m =>
    let keep := fun (sp : Nat) (o n : List Nat) => o.filter fun b => n.contains b || secureAt m i.k sp (512 * b)
    { new with gal := keepSecure m i.k 0 old.gal new.gal, dram := keepSecure m i.k 1 old.dram new.dram
               badGal := keep 0 old.badGal new.badGal, badDram := keep 1 old.badDram new.badDram
               scratch := new.scratch.filter fun c => !secureAt m i.k 1 c.1 }

/-- The command runs: what it leaves in the engine's view, or its first failed check. -/
def evalCmd (s : State) (p : PWing) (w : Work) (qi : Nat) (be : Bool) (idx : Nat) (c : Cmd) : Except CheckFail Eng :=
  let i := issueOf s w qi be idx c
  if cmdFault i.img i.k qi be c then .error (engFail qi false .fault)
  else match (List.range 8).findSome? (fun j => match operand i j with | .error x => some x | .ok _ => none) with
    | some x => .error (engFail qi false x)
    | none => match worldRead s i with
      | some h => .error (engFail qi true (.crc h.2 (h.1 == 1)))
      | none => match badRegion s p w c with
      | some a => .error { cause := 7, unit := qi, result := 0, block := some a }
      | none => match opBody i (engOf s p w) with
        | .error x => .error (engFail qi true x)
        | .ok e => .ok (dropWorld s i (engOf s p w) e)

/-! ### Completion -/

/-- A memory with cells written over it, newest first. -/
def overlay (m : Memory) (cs : List Host.Cell) : Memory := cs.foldr (fun c m => memWrite m c.1 c.2) m

/-- What a command adds to the flags of its Beat's work. -/
def addTally (t : Tally) (e : Eng) : Tally :=
  { vtFlags := t.vtFlags ||| e.vtFlags, nanRows := t.nanRows + e.nanRows, kvFlags := t.kvFlags ||| e.kvFlags, refused := t.refused + e.kvRefused
    alarms := t.alarms ++ e.alarms }

/-- The flags and counters of a run of the Assembler (R357, R360, R361, R366-R368, R387, R417). Each ring block whose CRC-32C failed counts as
one memory fault (DEDUCED, log entry 109). -/
def asmFlags (k : LWing) (s : State) (o : AsmNote) : State :=
  let s := { s with isp := { s.isp with
    status := orW s.isp.status o.flags
    oaFree := match o.free with | some n => s.isp.oaFree.set k n | none => s.isp.oaFree
    oaMin := match o.free with | some n => s.isp.oaMin.set k (Nat.min n s.isp.oaMin[k]) | none => s.isp.oaMin
    cam := o.corrupt.foldl (fun v c => vUpd v c fun (x : IspCam) => { x with corrupt := incW x.corrupt }) s.isp.cam } }
  let s := { s with iio := { s.iio with
    status := if o.ignored.any fun c => c.2 != 0 then orW s.iio.status 2 else s.iio.status
    ign := o.ignored.foldl (fun v c => vUpd v c.1 fun (x : Word) => satInc x c.2) s.iio.ign } }
  let s := o.defects.foldl noteDefect s
  if bit o.flags 9 then raiseAlarm s 0x000E 0xFF k (leBytes 4 (o.free.getD 0)) else s

/-- The flags, counters and alarms of the KV allocator, the vector tiles and the Assembler (R209, R212, R251, R252, R360, R475). -/
def flagTally (s : State) (k : LWing) (t : Tally) : State :=
  let s := { s with
    wng := { s.wng with vtStatus := s.wng.vtStatus.set k (orW s.wng.vtStatus[k] t.vtFlags), vtNanv := s.wng.vtNanv.set k (satInc s.wng.vtNanv[k] t.nanRows) }
    mem := { s.mem with kvStatus := orW s.mem.kvStatus t.kvFlags, kvRefused := s.mem.kvRefused.set k (satInc s.mem.kvRefused[k] t.refused) } }
  let s := t.asm.foldl (asmFlags k) s
  t.alarms.foldl (fun (s : State) (a : Nat × Nat) => raiseAlarm s a.1 0xFF k (leBytes 4 a.2)) s

/-- What the engine wrote reaches the state. A shadow Wing writes only its own slice and its scratch area, and sets no flag. -/
def applyEng (s : State) (p : PWing) (w : Work) (e : Eng) : State :=
  let w' := { w with scratch := e.scratch, kv := e.kv, bank := e.bank, unassessed := w.unassessed ++ e.posts, tally := addTally w.tally e }
  let s := updPhys s p fun x =>
    { x with gallery := e.gal, tiles := e.tiles, tileWritten := e.tileW, galBad := e.badGal, tileBad := e.badTile, work := some w' }
  if w.shadow then s else flagTally { s with mem := { s.mem with dram := e.dram, bad := e.badDram } } w.lw (addTally {} e)

/-- Blocks of the ring lines of every camera. -/
def ringBlocks (s : State) : List Nat :=
  (List.finRange 16).flatMap fun (p : Fin 16) => match ispEntry s p with
    | some e => (s.isp.cam[p]).ring.flatMap fun (l : RingLine) => match e.streams[l.stream]? with
      | some o => blocksOf (bufAddr s p o l.ivl + l.index * linePitch o * elemSize o) (linePitch o * elemSize o)
      | none => []
    | none => []

/-- The Assembler processes a mailbox area (R353). A non-secure Assembler reads ring lines in secure granules as failing blocks, and its
writes there are dropped (R518). -/
def runAssembler (s : State) (p : PWing) (c : Cmd) : State :=
  match (s.phys[p]).work with
  | none => s
  | some w =>
    let plan := wingPlan s w.lw
    let d := (opDesc plan c 2).getD { addr := 0 }
    let dram := if w.shadow then overlay s.mem.dram w.scratch else s.mem.dram
    let m := openUnit s fun m => m.assembler
    let secret := match m with
      | some m => (ringBlocks s).filter fun b => secureAt m 0 1 (512 * b)
      | none => []
    let o := assemble s w.lw plan w.beat d.addr d.d1 d.d0 d.pitch dram (s.mem.bad ++ secret) w
    let o := match m with
      | some m => { o with dram := keepSecure m 0 1 dram o.dram, bad := o.bad.filter s.mem.bad.contains }
      | none => o
    let s := violations (if secret.isEmpty then 0 else 1) s
    -- a block that only the world check failed is no memory fault
    let note := { o.note with defects := o.note.defects.filter fun a => s.mem.bad.contains (a / 512) }
    let work := { o.work with tally := { o.work.tally with asm := o.work.tally.asm ++ [note] } }
    if w.shadow then
      updPhys s p fun x => { x with work := some { work with scratch := memDiff s.mem.dram o.dram } }
    else
      flagTally (updPhys { s with mem := { s.mem with dram := o.dram, bad := o.bad } } p fun x => { x with work := some work }) w.lw { asm := [note] }

/-- The command leaves a k_part chain open (R153). -/
def chainOpen (c : Cmd) : Bool := decide (0x10 ≤ c.opcode ∧ c.opcode ≤ 0x13) && (meKPart c == 1 || meKPart c == 2)

/-- The queue takes the command off, counts it and signals its token (R71, R267). -/
def popCmd (s : State) (p : PWing) (qi : Nat) (be : Bool) (c : Cmd) : State :=
  updPhys s p fun x => { x with work := x.work.map fun w =>
    let tok := if cSigEn c then vUpd w.tok c.sigTok fun n => Nat.min 65535 (n + 1) else w.tok
    let new := writtenRegions s w.lw c
    -- a chain is of consecutive commands of the ME queue (R153)
    let w := if qi = 0 && !chainOpen c then { w with bank := none } else w
    if be then { w with tok := tok, be := vUpd w.be qi List.tail, beWritten := w.beWritten ++ new }
    else { w with tok := tok, lc := vUpd w.lc qi List.tail, prog := vUpd w.prog qi (· + 1), written := w.written ++ new
                  failing := w.failing.filter fun f => f.queue != qi } }

/-- A latency-critical COPY into an export area, outside a handover shadow, leaves an export to send (R484). It is marked replayed
when a spare, a late Wing or a catch-up made it. -/
def noteExport (s : State) (p : PWing) (w : Work) (c : Cmd) : State :=
  if c.opcode ≠ 0x08 ∨ w.shadow then s
  else match operand (issueOf s w 7 false 0 c) 2 with
    | .ok (some o) =>
      match if o.space = 1 then (planOf s).streams.find? (fun x => let a := x.areas.getD w.lw (0, 0); within o.addr (dExtent o.d) a.1 a.2) else none with
      | some x =>
        let again := (s.lw[w.lw]).late != 0 || (s.lw[w.lw]).replayed.contains w.beat || w.catchUp || w.loaded || (s.phys[p]).role == 1
        { s with net := { s.net with exports := s.net.exports ++
            [{ lw := w.lw, beat := w.beat, stream := x.stream, replayed := again, data := (memReads s.mem.dram o.addr (dExtent o.d)).take 65536 }] } }
      | none => s
    | _ => s

/-- A command has passed every check: its results are used. -/
def completeCmd (s : State) (p : PWing) (w : Work) (qi : Nat) (be : Bool) (c : Cmd) (e : Eng) : State :=
  let s := applyEng (markVerified s w c) p w e
  let s := if be then s else noteExport s p w c
  let s := if mailboxCopy (wingPlan s w.lw) c then runAssembler s p c else s
  let s := popCmd s p qi be c
  if be then completeStep s p else s

/-! ### Failed checks (R413, R419, R421) -/

/-- Sticky bits that an error sets although the command fails: a tag mismatch (R195) and the ownership filter (R87). -/
def failFlags (s : State) (e : Option EngErr) : State :=
  match e with
  | some .tag => { s with mem := { s.mem with kvStatus := orW s.mem.kvStatus 8 } }
  | some .ownership => { s with wng := { s.wng with status := orW s.wng.status 8 } }
  | _ => s

/-- The report of a failing command (R445). -/
def failReport (s : State) (w : Work) (idx : Nat) (c : Cmd) (f : CheckFail) (first again : List Byte) : Report :=
  { seq := 0, cause := f.cause, outcome := 0, lwing := w.lw, beat := w.beat, unit := f.unit, opcode := c.opcode, time := timeT s, cmdIndex := idx
    delta := w.delta, first := first, again := again, addr := if 5 ≤ f.cause ∧ f.cause ≤ 7 then f.block.getD 0 else 0 }

/-- A command fails a check: its summary is logged; a latency-critical one waits for its repeat, a best-effort one ends its
step with a report (R421). A step in flight is discarded either way (R274). -/
def failCmd (s : State) (p : PWing) (w : Work) (qi : Nat) (be : Bool) (idx : Nat) (c : Cmd) (f : CheckFail) : State :=
  let sum := summaryBytes qi idx w.beat c.opcode f false
  let s := discardStep (logSummary s p sum) p
  if be then prioritise (addReport s { failReport s w idx c f sum [] with outcome := 5, phys := p }) p
  else updPhys s p fun x => { x with work := x.work.map fun w =>
    { w with repeated := true, failing := w.failing ++ [{ queue := qi, be := be, index := idx, cmd := c, atT := timeT s, fail := f, summary := sum }] } }

/-- Link errors that the controllers met (R415). -/
def linkErrors (s : State) (hw : Hw) : State :=
  { s with
    mem := { s.mem with chCorr := hw.corr.foldl (fun v (c : Fin 32) => v.set c (incW v[c])) s.mem.chCorr }
    int := { s.int with
      eccCorr := satInc s.int.eccCorr hw.corr.length, eccUncorr := satInc s.int.eccUncorr hw.uncorr.length
      status := if hw.uncorr.isEmpty then s.int.status else orW s.int.status 0x400 } }

/-- A latency-critical start at cycle t later than slot + δ (R271, R539). In a Beat that begins with the loads of R424 the slots move by
T_load, as the checkpoints do. -/
def startsLate (s : State) (w : Work) (c : Cmd) (t : Nat) : Bool :=
  decide (c.slot + w.delta + (if w.loaded then (wingPlan s w.lw).tLoad else 0) < t)

/-- The progress fault of a queue whose next command starts too late. -/
def lateStart (s : State) (p : PWing) (w : Work) (qi idx : Nat) (c : Cmd) : State :=
  let done := (vGet? w.prog qi).getD 0
  progressFault s p qi (done + 1) done (c.slot + w.delta) idx

/-- The error of the command itself behind a failed check, for its sticky bits. -/
def cmdErr (s : State) (p : PWing) (w : Work) (qi : Nat) (be : Bool) (idx : Nat) (c : Cmd) : Option EngErr :=
  let i := issueOf s w qi be idx c
  match (List.range 8).findSome? (fun j => match operand i j with | .error x => some x | .ok _ => none) with
  | some x => some x
  | none => match opBody i (engOf s p w) with
    | .error x => some x
    | .ok _ => none

/-- The failed check that the hardware met: its own, or the CRC-32C of a block that an uncorrectable link error inverted (R415). -/
def hwFail (qi : Nat) (hw : Hw) : Option CheckFail :=
  hw.fail <|> hw.uncorr.head?.map fun a => engFail qi true (.crc (a / 512) true)

/-- The head of a queue is issued and completes, or a check of it fails. -/
def issueNow (p : PWing) (qi : Nat) (be : Bool) (idx : Nat) (c : Cmd) (w : Work) (hw : Hw) (s : State) : State :=
  let s := linkErrors s hw
  let s := violations (worldHits s (issueOf s w qi be idx c)).length s
  match hwFail qi hw with
  | some f => failCmd s p w qi be idx c f
  | none => match evalCmd s p w qi be idx c with
    | .error f => failCmd (failFlags s (cmdErr s p w qi be idx c)) p w qi be idx c f
    | .ok e => completeCmd s p w qi be c e

/-- An opcode that no queue, or not this queue, may hold (R257, R259): the sequencer meets it as the head of its queue. -/
def misfit (qi : Nat) (c : Cmd) : Bool := match opcodeKind c.opcode with
  | some kind => !kindFits kind qi
  | none => true

/-- One queue issues its head, if it is the command that the row names or one that may not stand there, and it runs to completion (R271). -/
def engineStep (p : PWing) (qi : Nat) (want : WingPlan → Cmd → Bool) (hw : Hw) (s : State) : State :=
  if !dieUp s then s
  else match (s.phys[p]).work with
    | none => s
    | some w =>
      let start := cyclesNow (advance s hw.dt) w - hw.cycles
      match queueHead s p w qi start with
      | none => s
      | some (be, idx, c) =>
        if !want (wingPlan s w.lw) c && !misfit qi c then s
        else if !be && startsLate s w c start then lateStart s p w qi idx c
        else
          issueNow p qi be idx c w hw (advance s hw.dt)

/-- A command of one opcode. -/
def opIs (o : Nat) : WingPlan → Cmd → Bool := fun _ c => c.opcode == o

/-! ### The repeat (R419, R420) -/

/-- What a repeat runs again: the command, or its chain from the first command on (R168). -/
def repeatCmds (w : Work) (f : Failing) : List (Nat × Cmd) :=
  (if 0x10 ≤ f.cmd.opcode ∧ f.cmd.opcode ≤ 0x13 ∧ 2 ≤ meKPart f.cmd then w.bank.elim [] fun b => b.cmds else []) ++ [(f.index, f.cmd)]

/-- WCC of a repeat (R419). -/
def repeatWcc (w : Work) (f : Failing) : Nat := ((repeatCmds w f).map fun x => x.2.wcc).sum

/-- The fields of the summary of a repeat that passes (R169, R250). -/
def noFailure (s : State) (w : Work) (index : Nat) (c : Cmd) : CheckFail :=
  { cause := 0, unit := 0, result := 0, passes := cmdPasses (wingPlan s w.lw) index c }

/-- The repeat: each command runs on what the one before it left in the bank, until one fails. Its summaries in order, and the outcome of
the last command that ran. -/
def repeatRun (s : State) (p : PWing) (qi : Nat) : Work → Nat × Cmd → List (Nat × Cmd) → List (List Byte) × Except CheckFail Eng
  | w, x, rest =>
    let sum := fun (f : CheckFail) => summaryBytes qi x.1 w.beat x.2.opcode f true
    match evalCmd s p w qi false x.1 x.2, rest with
    | .error g, _ => ([sum g], .error g)
    | .ok e, [] => ([sum (noFailure s w x.1 x.2)], .ok e)
    | .ok e, y :: ys =>
      let r := repeatRun s p qi { w with bank := e.bank } y ys
      (sum (noFailure s w x.1 x.2) :: r.1, r.2)

/-- A persistent fault is ascribed to its unit (R416). -/
def confirmFault (s : State) (p : PWing) (w : Work) (f : Failing) (g : CheckFail) (again : List Byte) : State :=
  faultAttrib s p f.queue f.fail g w.beat { failReport s w f.index f.cmd f.fail f.summary again with time := f.atT, phys := p }

/-- The repeat failed too, with its summaries: a persistent fault (R414, R416). -/
def repeatFailed (s : State) (p : PWing) (w : Work) (f : Failing) (g : CheckFail) (sums : List (List Byte)) : State :=
  confirmFault (sums.foldl (fun s b => logSummary s p b) s) p w f g (sums.getLastD [])

/-- The repeat passed: the command completes, and the fault was transient (R414, R420). -/
def repeatPassed (s : State) (p : PWing) (qi : Nat) (w : Work) (f : Failing) (sums : List (List Byte)) (e : Eng) : State :=
  let s := completeCmd (sums.foldl (fun s b => logSummary s p b) s) p w qi false f.cmd e
  countTransient (addReport s { failReport s w f.index f.cmd f.fail f.summary (sums.getLastD []) with time := f.atT, phys := p }) p

/-- A repeat that is admitted runs, its cycles counted. A failure that the row brings is one of the failing command's own units. -/
def repeatNow (p : PWing) (qi : Nat) (r : Repeat) (w : Work) (f : Failing) (cycles : Nat) (s : State) : State :=
  let w' := { w with delta := w.delta + cycles }
  let s := updPhys s p fun x => { x with work := some w' }
  match r with
  | .fail g _ _ => repeatFailed s p w f g [summaryBytes qi f.index w.beat f.cmd.opcode g true]
  | .pass _ _ => match repeatCmds w' f with
    | [] => s
    | x :: xs => match repeatRun s p qi w' x xs with
      | (sums, .error g) => repeatFailed s p w f g sums
      | (sums, .ok e) => repeatPassed s p qi w' f sums e

/-- Time and cycles of a repeat. -/
def repeatTime : Repeat → Nat × Nat
  | .pass d n => (d, n)
  | .fail _ d n => (d, n)

/-- The repeat of a failing command: not admitted, passed or failed. -/
def repeatStep (p : PWing) (qi : Nat) (r : Repeat) (s : State) : State :=
  if !dieUp s then s
  else match (s.phys[p]).work with
    | none => s
    | some w => match failingOn w qi with
      | none => s
      | some f =>
        if f.halted then s
        else if sigmaK (planOf s) < w.delta + repeatWcc w f then confirmFault s p w f f.fail f.summary
        else repeatNow p qi r w f (repeatTime r).2 (advance s (repeatTime r).1)

end Sys2Proof.Machine
end

