-- ==== Sys2Proof/Machine/Results.lean ====
section
/-! DEFINITION. What a drained Wing hands over for its work Beat: Carried versions and their check values, the KV allocator,
the tracker, and the result list that the sealing unit copies into its holding store (R32, R37-R39, R58, R186, R242, R247,
R426, R427). -/

namespace Sys2Proof.Machine

open Sys2Proof

/-! ### Carried versions -/

/-- Version b of a region becomes current with its check value (R39), and the oldest of the r + 2 that are kept goes (R37). -/
def makeCurrent (s : State) (p : PWing) (b : Nat) (r : Region) : State :=
  let v : Carried := { region := r.id, version := b + 1, check := rangeCheck (regionMem s p r) (versionAddr s r b) r.size }
  { s with mem := { s.mem with carried :=
      v :: s.mem.carried.filter fun x => x.region != r.id || (x.version != v.version && decide (v.version < x.version + places s)) } }

/-- Every region of logical Wing k takes version b: as written, or equal to version b − 1 where no Beat has written it (R265). -/
def commitRegions (s : State) (k : LWing) (p : PWing) (b : Nat) (written : List Nat) : State :=
  (ownRegions s k).foldl (fun s r => makeCurrent (if written.contains r.id then s else sameVersion s (some p) b r) p b r) s

/-- The Landing's changes to the allocator reach its regions, of which version b is current then (R179, R186). -/
def kvStore (s : State) (k : LWing) (w : Work) : State :=
  let plan := wingPlan s k
  let kv := kvLanding plan w.kv (w.beat + 1) (planOf s).r
  (kvRegions (planOf s) plan).foldl (fun s x => dramWrite s (versionAddr s x.2 w.beat) (memReads (kvMem kv x.1) 0 x.2.size)) s

/-! ### The result list (R242, R247) -/

/-- An entry of the result list: verdict word and score if it is written (R244). -/
def resultEntry (gal : Memory) (w : WingPlan) (slot : Nat) : Option (Nat × Nat) :=
  let x := fromLe (memReads gal (resultAddr w slot) 4)
  if bit x 12 then some (bits x 0 12, bits x 16 16) else none

/-- Objects of a table that closed and lie within V_k, in submission order. -/
def slottedObjs (objs : List ObjRec) (v : Nat) : List ObjRec := objs.filter fun o => !o.openPart && decide (o.slot < v)

/-- Reviews of logical Wing k whose verdicts are due in a work Beat, in order of their slots (R58). -/
def dueReviews (s : State) (k beat : Nat) : List Review :=
  s.sealer.reviews.filter fun r => r.lw == k && r.beat + r.dR == beat

/-- Event of a slot that is found unwritten (R247). -/
def missingEvent (s : State) (k beat slot : Nat) : State :=
  flagEvent { s with esc := { s.esc with status := orW s.esc.status 0x100 } } 0x10118 0x100 (leBytes 6 beat ++ leBytes 2 slot) 0xFF k

/-- What a result list of logical Wing k gives the sealing unit: the entry to hold, the slots found unwritten, those of reviews among
them, and the DEFER objects in submission order (R58, R59, R242, R247). -/
def readResults (s : State) (k : LWing) (gal : Memory) (w : Work) (replayed : Bool) : Held × List Nat × List Nat × List ObjRec :=
  let plan := wingPlan s k
  let v := plan.vShare.getD 0
  let q := plan.qShare.getD 0
  let posted := w.unassessed ++ (s.lw[k]).doomed
  let has := fun (id : Nat) => posted.any fun x => x.1 == id
  let objs := slottedObjs w.objs v
  let gone := objs.filter fun o => (resultEntry gal plan o.slot).isNone && !has o.id
  let due := (dueReviews s k w.beat).map fun r => (r.obj.id, r.slot, resultEntry gal plan r.slot)
  let lateRev := due.filter fun r => r.2.2.isNone && !has r.1
  let defers := (objs.filter fun o => !has o.id && (match resultEntry gal plan o.slot with | some e => bits e.1 0 4 == 2 | none => false))
  ({ lw := k, beat := w.beat, results := (List.range v).map (resultEntry gal plan)
     reviews := due.filterMap fun r => r.2.2.map fun e => (r.1, e.1, e.2)
     objs := w.objs, unassessed := posted ++ (gone.map fun o => (o.id, 5)) ++ (defers.drop q).map fun o => (o.id, 8)
     replayed := replayed, v := v },
   gone.map fun o => o.slot, lateRev.map fun r => r.2.1, defers)

/-- The result list of logical Wing k in the slice of p is marked empty (R242). -/
def emptyResults (s : State) (k : LWing) (p : PWing) : State :=
  let plan := wingPlan s k
  updPhys s p fun x =>
    { x with gallery := memWrites x.gallery plan.resultAt (List.replicate (4 * (plan.vShare.getD 0 + plan.qShare.getD 0)) 0) }

/-- The sealing unit copies a result list with the Wing's UNASSESSED list, reports the slots found unwritten, takes the DEFER objects
into the review slots and marks the list empty (R58, R59, R242, R247). -/
def copyResults (s : State) (k : LWing) (p : PWing) (w : Work) (replayed : Bool) : State :=
  let plan := wingPlan s k
  let (held, gone, lateRev, defers) := readResults s k (s.phys[p]).gallery w replayed
  let s := (gone ++ lateRev).foldl (fun s slot => missingEvent s k w.beat slot) s
  let s := { s with sealer := { s.sealer with
    held := s.sealer.held ++ [held]
    reviews := s.sealer.reviews ++ (defers.take (plan.qShare.getD 0)).zipIdx.map fun o =>
      { lw := k, beat := w.beat, slot := plan.vShare.getD 0 + o.2, obj := o.1, dR := (planOf s).dR } } }
  emptyResults s k p

/-! ### A drained Wing -/

/-- What a Wing that drained for its work Beat hands over: regions, allocator, tracker and results. -/
def commitWork (s : State) (k : LWing) (p : PWing) (w : Work) (replayed : Bool) : State :=
  let s := commitRegions (kvStore s k w) k p w.beat (w.written ++ (wingPlan s k).kvRegions)
  let s := copyResults s k p w replayed
  let finished := (finishedObjs w).map fun o => o.id
  updLw s k fun l =>
    { l with
      asm := w.asm, nextWork := w.beat + 1
      -- a reason posted for an object that finishes in a later Beat stays with it (R35, R185, R187)
      doomed := (l.doomed ++ w.unassessed).eraseDups.filter fun d => !finished.contains d.1
      cutObjs := l.cutObjs.filter fun x => x.1 != w.beat
      doomNext := if w.asmRuns = 0 then l.doomNext else none
      replayed := l.replayed.filter fun b => b != w.beat }

/-- The work Beat's records carry replayed (R424). -/
def isReplay (s : State) (k : LWing) (beat : Nat) : Bool := (s.lw[k]).replayed.contains beat

/-- Work of a Beat as the sequencer starts it (R254, R267). -/
def newWork (s : State) (k : LWing) (beat : Nat) (shadow : Bool) : Work :=
  let plan := wingPlan s k
  let l := s.lw[k]
  { beat := beat, lw := k, table := tableNo plan beat, shadow := shadow, firstC := s.c
    lc := indexQueues (tableOf plan beat).queues, kv := kvBegin plan (kvNow s k) beat, asm := l.asm, loaded := l.loads && !shadow }

/-- A late Wing may run two work Beats in Beat n (R427). -/
def catchUpFits (s : State) (k : LWing) (beat : Nat) (loaded : Bool) : Bool :=
  let p := planOf s
  let plan := wingPlan s k
  decide ((tableOf plan beat).finish + ceilDiv (p.guardNs * p.fPlan) 1000000000 + (tableOf plan (beat + 1)).finish +
    (if loaded then plan.tLoad else 0) ≤ lambdaK p)

/-- The Wing starts the work of the present Beat: the oldest work Beat that is not complete, on a Wing that runs a logical
Wing; the same work in shadow on a Wing in a handover (R71, R79, R424, R427). -/
def startWork (s : State) (p : PWing) : State :=
  let x := s.phys[p]
  let k := x.logical
  let beat := (s.lw[k]).nextWork
  if x.role = 0 ∨ x.role = 1 then
    if mapOf s k != some p || (s.lw[k]).lost || decide (s.esc.beat < beat) then s
    else
      let w := newWork s k beat false
      let cu := decide (beat < s.esc.beat) && catchUpFits s k beat w.loaded
      let s := updPhys s p fun x => { x with work := some { w with catchUp := cu } }
      startStep (updLw s k fun l => { l with loads := false }) p
  else if x.role = 4 then updPhys s p fun x => { x with work := some (newWork s k beat true) }
  else s

/-- Every latency-critical queue of the work is empty and no repeat is due. -/
def workDone (w : Work) : Bool := w.lc.all List.isEmpty && w.failing.isEmpty

/-- The drain between the two tables of a catch-up (R427): versions become current for the Wing alone, its results are copied,
and the second table starts. -/
def betweenTables (s : State) (p : PWing) : State :=
  match (s.phys[p]).work with
  | none => s
  | some w =>
    let k := w.lw
    let s := commitWork (discardStep s p) k p w (isReplay s k w.beat)
    let s := updLw s k fun l => { l with late := l.late - 1 }
    let s := updPhys s p fun x => { x with tileWritten := Vector.replicate 6 [] }
    updPhys s p fun x => { x with work := some (newWork s k (w.beat + 1) false) }

end Sys2Proof.Machine
end

