-- ==== Sys2Proof/Machine/Edge.lean ====
section
/-! DEFINITION. The Escapement: Beat edges, the digests of a closed capture interval, drains, the grace and the Landing guard
(R17-R35, R281, R282, R388, R402). -/

namespace Sys2Proof.Machine

open Sys2Proof

/-! ### Closing a capture interval (R281, R282) -/

/-- A link of a hash chain: records of interval i on channel ch. -/
def chainStep (prev : Digest) (i ch : Nat) (recs : List (List Byte)) : Digest :=
  sha3 (prev ++ leBytes 6 i ++ leBytes 1 ch ++ leBytes 4 recs.length ++ recs.flatten)

/-- A camera that is started contributes to the digest: one that the image names, and whose port has made an attempt (R281, R322). -/
def camStarted (s : State) (p : Nat) : Bool := (match s.img with
  | some i => (camEntries i).any fun c => c.port == p
  | none => false) && (vGet? s.cam.port p).any fun x => x.state != 0

/-- The record of an input edge in the auxiliary chain. -/
def edgeRecord (x : Nat × Bool × Nat × Word) : List Byte := leBytes 1 x.1 ++ [if x.2.1 then 1 else 0] ++ leBytes 8 x.2.2.1

/-- The bytes of records in fixed places of an area of n records (log entry 108). -/
def areaBytes (n place : Nat) (recs : List (List Byte)) : List Byte := padTo (ceilDiv (n * place) 512 * 512) ((recs.take n).flatMap (padTo place))

/-- The line-data area and the peer import rings of interval i, for the work of the next Beat (R365, R488). -/
def closeAreas (s : State) (i : Nat) : State :=
  let at' := fun (base n place : Nat) => base + i % ((planOf s).r + 3) * (ceilDiv (n * place) 512 * 512)
  let lines := (s.isp.ldArea.filter fun x => x.1 == i).map fun x => leBytes 2 x.2.1 ++ leBytes 2 x.2.2.length ++ x.2.2.flatMap (leBytes 2)
  let peers := fun (ch : Nat) => (s.net.imports.filter fun x => x.1 == i && x.2.1 == ch).map fun x => leBytes 4 x.2.2.length ++ x.2.2
  let s := match (planOf s).ldBase with
    | some b => unitWrite s (fun m => m.assembler) (at' b 16 2052) (areaBytes 16 2052 lines)
    | none => s
  (planOf s).importRings.foldl (fun s x => unitWrite s (fun m => m.olp) (at' x.2 64 1536) (areaBytes 64 1536 (peers x.1))) s

/-- Capture interval i closes: the chains take its records, and its input digest is formed. An input edge belongs to it if its time
stamp is earlier than that of the Beat edge (R387). -/
def closeInterval (s : State) (i : Nat) : State :=
  let z := s.sealer
  let chain : Vector Digest 16 := Vector.ofFn fun p : Fin 16 =>
    if camStarted s p then chainStep z.chain[p] i p z.lines[p] else List.replicate 32 0
  let boundary := leBytes 8 (refCount s).toNat ++ leBytes 8 (timeT s)
  let now := timeT s
  let mine := s.iio.fifo.filter fun x => decide (x.2.2.1 < now)
  let aux := chainStep z.aux i 0xFF (boundary :: mine.map edgeRecord ++ z.msgs)
  let digest := (sha3 (leBytes 6 i ++ aux ++ chain.toList.flatten)).take 16
  let keep := (planOf s).r + 3
  { s with
    sealer := { z with
      chain := chain, aux := aux, lines := Vector.replicate 16 [], msgs := []
      -- a review verdict carries the digest of a Beat up to 16 Beats older (R57, R283)
      inputs := (i, digest) :: z.inputs.filter fun x => decide (i < x.1 + keep + 16) }
    iio := { s.iio with
      edges := (s.iio.edges.filter fun x => decide (i < x.1 + keep)) ++ mine.map fun x => (i, x)
      fifo := s.iio.fifo.filter fun x => decide (now ≤ x.2.2.1) }
    isp := { s.isp with ldArea := s.isp.ldArea.filter fun x => decide (i < x.1 + keep) }
    net := { s.net with imports := s.net.imports.filter fun x => decide (i < x.1 + keep) } }

/-! ### The edge (R20-R24, R34) -/

/-- Counts per second over the last Beat (R402), toward zero (log entry 31). -/
def speedOf (now before : Word) (ns : Nat) : Word :=
  if ns = 0 then 0 else BitVec.ofInt 32 (Int.tdiv (diff32 now before * 1000000000) (ns : Int))

/-- A Wing with work that is not done at the edge has overrun; after three edges in a row it is a progress fault (R34, R539). -/
def overrunAt (s : State) (p : PWing) : State :=
  match (s.phys[p]).work with
  | none => updPhys s p fun x => { x with missed := 0 }
  | some w =>
    if workDone w && !w.catchUp then updPhys s p fun x => { x with missed := 0 }
    else
      let s := flagEvent { s with esc := { s.esc with status := orW s.esc.status 1 } } 0x10118 1 [] p w.lw
      let s := updPhys s p fun x => { x with missed := x.missed + 1 }
      if 3 ≤ (s.phys[p]).missed then
        let left := (w.lc.toList.map List.length).sum
        progressFault s p 9 left 0 (cyclesNow s w) 0xFFFFFFFF
      else s

/-- The edge of the next Beat: the boundary is latched, the capture interval closes, and the Escapement waits for the drains. -/
def issueEdge (s : State) : State :=
  let e := s.esc
  let n := if e.fresh then 0 else e.beat + 1
  let s := if e.fresh then s else closeAreas (closeInterval s e.beat) e.beat
  let enc := s.enc.map fun x => { x with speed := if e.fresh then x.speed else speedOf x.count x.atEdge (s.c - e.edgeC), atEdge := x.count }
  let s := { s with
    enc := enc
    iio := { s.iio with pulseEnd := s.c + 1000 }
    esc := { e with
      beat := n, fresh := false, edgeC := s.c, edgeT := timeT s, edgeCount := refCount s, target := refCount s + e.nb
      reached := false, phase := .drain } }
  allP.foldl overrunAt s

/-- Beats are issued: the Escapement runs a Beat. -/
def beating (s : State) : Bool := dieUp s && s.sec.phase == 6 && s.esc.phase == .run

/-- The governing count has reached the target since the edge (R20, R21). -/
def targetReached (s : State) : Bool := s.esc.reached

/-- BEAT_EDGE_TIME (R17): in time-locked mode the period P has passed. -/
def execBeatEdgeTime (s : State) : Host.Outcome State Fault Refusal :=
  if beating s && !encLocked s then ok (issueEdge (reach s (s.esc.edgeC + s.esc.pMin.toNat))) else ok s

/-- BEAT_EDGE_ENCODER (R20): the governing count reaches its target with at least P_min passed. -/
def execBeatEdgeEncoder (dt : Nat) (s : State) : Host.Outcome State Fault Refusal :=
  if beating s && encLocked s && targetReached s && decide (s.esc.edgeC + s.esc.pMin.toNat ≤ s.c + dt) then ok (issueEdge (advance s dt)) else ok s

/-- BEAT_EDGE_PMAX (R20, R21): P_max has passed before the count reached its target. -/
def execBeatEdgePmax (s : State) : Host.Outcome State Fault Refusal :=
  if beating s && encLocked s && !targetReached s then ok (issueEdge (reach s (s.esc.edgeC + s.esc.pMax.toNat))) else ok s

/-- SPEED_HOLD (R20, R41): the count reached its target early, and the edge is held to P_min. -/
def execSpeedHold (s : State) : Host.Outcome State Fault Refusal :=
  if beating s && encLocked s && targetReached s && decide (s.c < s.esc.edgeC + s.esc.pMin.toNat) then
    let s := reach s (s.esc.edgeC + s.esc.pMin.toNat)
    let s := flagEvent { s with esc := { s.esc with status := orW s.esc.status 4 } } 0x10118 4
    ok (issueEdge s)
  else ok s

/-! ### Drains (R32, R34, R35) -/

/-- WING_DRAINED (R32, R427): a Wing sequencer reports drained after the edge, within the grace; within a Beat, a late Wing drains
between the two tables of a catch-up. -/
def execWingDrained (p : PWing) (dt : Nat) (s : State) : Host.Outcome State Fault Refusal :=
  if !dieUp s then ok s
  else match (s.phys[p]).work with
    | none => ok s
    | some w =>
      if !workDone w then ok s
      else if s.esc.phase = .drain then
        if !w.catchUp && !w.drained && decide (s.c + dt ≤ s.esc.edgeC + graceNs (planOf s)) then
          ok (updPhys (advance s dt) p fun x => { x with work := some { w with drained := true } })
        else ok s
      else if s.esc.phase = .run && w.catchUp then ok (betweenTables (advance s dt) p)
      else ok s

/-- Grace for one Wing: it is drained, or its work is abandoned. -/
def graceWing (s : State) (p : PWing) : State :=
  match (s.phys[p]).work with
  | none => s
  | some w =>
    if w.drained then s
    else if workDone w && !w.catchUp then updPhys s p fun x => { x with work := some { w with drained := true } }
    else abandonWing s p

/-- GRACE_EXPIRY (R35): each Wing that has not drained is abandoned. -/
def execGraceExpiry (s : State) : Host.Outcome State Fault Refusal :=
  if dieUp s && s.esc.phase == .drain then ok (allP.foldl graceWing (reach s (s.esc.edgeC + graceNs (planOf s)))) else ok s

/-- Every Wing with work has drained. -/
def allDrained (s : State) : Bool := s.phys.all fun x => match x.work with
  | some w => w.drained
  | none => true

/-- LANDING_GUARD_EXPIRY (R31): the sequencers issue the first command of the Beat. -/
def execLandingGuardExpiry (s : State) : Host.Outcome State Fault Refusal :=
  if dieUp s && s.esc.phase == .guard then
    let s := reach s (s.esc.landingC + (planOf s).guardNs)
    ok (allP.foldl startWork { s with esc := { s.esc with phase := .run } })
  else ok s

end Sys2Proof.Machine
end

