-- ==== Sys2Proof/Machine/Sealing.lean ====
section
/-! DEFINITION. The sealing unit: parts and their merges, the disposition map, fire windows and the calendar's postings, verdict
capacity, reviews, records and the backlog (R43-R62, R283, R357, R390-R394, R472, R481). -/

namespace Sys2Proof.Machine

open Sys2Proof

/-! ### Reasons and verdicts (R53, R54) -/

/-- The UNASSESSED reasons in the order of R53. -/
def reasonOrder : List Nat := [0x06, 0x0A, 0x05, 0x07, 0x04, 0x01, 0x02, 0x0B, 0x09, 0x03, 0x08]

/-- The sealed reason among those that apply. -/
def firstReason (rs : List Nat) : Option Nat := reasonOrder.find? rs.contains

/-- Order of the codes in a merge: UNASSESSED, REJECT, DEFER, ACCEPT. -/
def mergedCode (codes : List Nat) : Nat := if codes.contains 3 then 3 else if codes.contains 1 then 1 else if codes.contains 2 then 2 else 0

/-- The detail that a merge selects among the parts of its code. -/
def mergedDetail (least : Bool) (code : Nat) (details : List Nat) : Nat :=
  if code = 3 then (firstReason details).getD (details.headD 0)
  else match details with
    | [] => 0
    | d :: ds => if least then ds.foldl Nat.min d else ds.foldl Nat.max d

/-- The part on the lowest logical Wing. R54 leaves open which of two parts on it counts: here the first in the list
(DESIGN CHOICE, log entry 81). -/
def lowestPart : List Part → Option Part
  | [] => none
  | p :: ps => match lowestPart ps with
    | none => some p
    | some q => if p.obj.lwing ≤ q.obj.lwing then some p else some q

def minPos (a b : Word) : Word := if diff32 b a < 0 then b else a
def maxPos (a b : Word) : Word := if 0 < diff32 b a then b else a

/-- The merged object of parts: the verdict and the record fields of R54. -/
def mergeParts (least : Bool) (ps : List Part) : Option Part :=
  match lowestPart ps with
  | none => none
  | some low =>
    let code := mergedCode (ps.map fun p => p.code)
    let same := ps.filter fun p => p.code == code
    let detail := mergedDetail least code (same.map fun p => p.detail)
    let score := match lowestPart (same.filter fun p => p.detail == detail) with
      | some p => p.score
      | none => 0
    let o := ps.foldl (fun (o : ObjRec) (p : Part) =>
      { o with lead := minPos o.lead p.obj.lead, trail := maxPos o.trail p.obj.trail, left := min o.left p.obj.left
               right := max o.right p.obj.right, flags := o.flags ||| p.obj.flags, views := o.views ||| p.obj.views }) low.obj
    some { low with obj := o, code := code, detail := detail, score := score, replayed := ps.any fun p => p.replayed }

/-! ### The parts of a Beat (R357) -/

/-- The objects of a held Beat that lie beyond the first V_k (R49): by slot, and where work was dropped by their place among those that
are sealed for it, since an object that had not finished has no slot. -/
def excessObjs (h : Held) : List ObjRec :=
  let closed := h.objs.filter fun o => !o.openPart
  if h.reason.isSome then closed.drop h.v else closed.filter fun o => decide (h.v ≤ o.slot ∧ o.slot ≠ 0xFFFFFFFF)

/-- The verdict of a held object (R47, R49, R246). -/
def heldPart (h : Held) (o : ObjRec) : Part :=
  let excess := (excessObjs h).contains o
  let posted := (h.unassessed.filter fun x => x.1 == o.id).map fun x => x.2
  let rs := (h.reason.toList ++ posted) ++ (if excess then [4] else [])
  match firstReason rs with
  | some r => { obj := o, code := 3, detail := r, score := 0, beat := h.beat, replayed := h.replayed, excess := excess }
  -- R53 puts 0x06, 0x0A, 0x05 and 0x07 before the capacity reason 0x04
  | none => match (h.results.getD o.slot none) with
    | some e => { obj := o, code := bits e.1 0 4, detail := bits e.1 4 8, score := e.2, beat := h.beat, replayed := h.replayed }
    | none => { obj := o, code := 3, detail := 5, score := 0, beat := h.beat, replayed := h.replayed }

/-- Two parts on adjacent logical Wings flag their shared border and overlap in lines. -/
def partners (a b : ObjRec) : Bool :=
  let adj := fun (x y : ObjRec) => x.lwing + 1 == y.lwing && bit x.flags 6 && bit y.flags 5
  a.stream == b.stream && (adj a b || adj b a) && decide (0 ≤ diff32 b.trail a.lead ∧ 0 ≤ diff32 a.trail b.lead)

/-- Objects reachable from a set through partners. -/
def reach' (all' : List ObjRec) : Nat → List ObjRec → List ObjRec
  | 0, xs => xs
  | n + 1, xs =>
    let new := all'.filter fun o => !xs.contains o && xs.any (partners o)
    if new.isEmpty then xs else reach' all' n (xs ++ new)

/-- Groups of parts: each with its closed parts and whether a partner is still open. -/
def partGroups (opens : List ObjRec) : Nat → List Part → List (List Part × Bool)
  | 0, _ => []
  | _ + 1, [] => []
  | n + 1, p :: ps =>
    let all' := (p :: ps).map (fun x => x.obj) ++ opens
    let g := reach' all' all'.length [p.obj]
    ((p :: ps).filter (fun x => g.contains x.obj), opens.any g.contains) :: partGroups opens n (ps.filter fun x => !g.contains x.obj)

/-! ### Records to post -/

/-- A record before it is posted. -/
structure SealItem where
  obj    : ObjRec
  code   : Nat
  detail : Nat
  score  : Nat
  replayed : Bool
  beat   : Nat
  review : Bool := false
  /-- Beyond V_k: it takes the record room that is left. -/
  beyond   : Bool := false

def itemOf (p : Part) (beat : Nat) : SealItem :=
  { obj := p.obj, code := p.code, detail := p.detail, score := p.score, replayed := p.replayed, beat := beat }

/-- Objects of a logical Wing whose checked result for Beat b is not complete at its sealing Landing (R47): those that the work which was
cut off had finished. -/
def lateObjs (s : State) (k : LWing) (b : Nat) : List ObjRec := ((s.lw[k]).cutObjs.filter fun x => x.1 == b).map fun x => x.2

/-- Beat b of logical Wing k has no result in time: it is held with reason 0x0A (R47). -/
def holdLate (s : State) (k : LWing) (b : Nat) : State :=
  let s := holdReason s k b 0x0A (lateObjs s k b)
  let s := updLw s k fun l => { l with cutObjs := l.cutObjs.filter fun x => x.1 != b }
  let s := { s with esc := { s.esc with status := orW s.esc.status 0x40 } }
  dueRetract s k b b 3

/-- Every logical Wing without a result for Beat b is held with reason 0x0A, unless it is lost (R47). -/
def markLate (s : State) (b : Nat) : State :=
  (usedLw s).foldl (fun (s : State) (k : LWing) =>
    if (s.lw[k]).lost || s.sealer.held.any (fun h => h.lw == k.val && h.beat == b) then s else holdLate s k b) s

/-- The held results of Beat b. -/
def heldOf (s : State) (b : Nat) : List Held := s.sealer.held.filter fun h => h.beat == b

/-- The primary records of Beat b: groups that are complete are sealed, and closed parts with an open partner wait (R357). -/
def primaryItems (s : State) (b : Nat) : List SealItem × State :=
  let hs := heldOf s b
  let opens := hs.flatMap fun h => h.objs.filter fun o => o.openPart
  let parts := s.sealer.parts ++ hs.flatMap fun h => (h.objs.filter fun o => !o.openPart).map (heldPart h)
  let gs := partGroups opens parts.length parts
  let done := (gs.filter fun g => !g.2).filterMap fun g => (mergeParts (match s.img with | some i => i.disp.least | none => false) g.1).map fun m => (m, g.1)
  let items := done.map fun d =>
    { itemOf d.1 b with beyond := d.2.any fun p => p.excess }
  let reviews := s.sealer.reviews.filterMap fun r =>
    match done.find? fun d => d.2.any fun p => p.obj.id == r.obj.id && p.beat == r.beat with
    | some d => if d.1.code = 2 then some { r with sealed := some (d.1.obj, b) } else none
    | none => some r
  (items, { s with sealer := { s.sealer with parts := (gs.filter fun g => g.2).flatMap fun g => g.1, reviews := reviews } })

/-- The review verdict of a part from the held results of its review's work Beat (R60, R247). A Beat that a lost Wing did not reach has no
results, and its reason is 0x06 (R53, R78). -/
def reviewVerdict (lost : Bool) (h : Option Held) (r : Review) : Nat × Nat × Nat × Bool :=
  match h with
  | none => (3, if lost then 0x06 else 0x0A, 0, false)
  | some h =>
    match firstReason (h.reason.toList ++ (h.unassessed.filter fun x => x.1 == r.obj.id).map fun x => x.2) with
    | some x => (3, x, 0, h.replayed)
    | none => match h.reviews.find? fun x => x.1 == r.obj.id with
      | some x => if bits x.2.1 0 4 < 2 then (bits x.2.1 0 4, bits x.2.1 4 8, x.2.2, h.replayed) else (3, 5, 0, h.replayed)
      | none => (3, 5, 0, h.replayed)

/-- Reviews due in work Beat b take their verdicts. With D_r above 1 the review is what work Beat b + D_r writes: the spec does not say
whether an abandoned Beat among those before it abandons the review, and here it does not (DESIGN CHOICE, log entry 82). -/
def settleReviews (s : State) (b : Nat) : State :=
  { s with sealer := { s.sealer with reviews := s.sealer.reviews.map fun r =>
    if r.beat + r.dR = b then
      let lost := (vGet? s.lw r.lw).any fun l => l.lost && decide (l.lostFrom ≤ b)
      { r with verdict := some (reviewVerdict lost (s.sealer.held.find? fun h => h.lw == r.lw && h.beat == b) r) }
    else r } }

/-- The review records of DEFER records of Beat b − D_r, one for each (R58). -/
def reviewItems (s : State) (b : Nat) : List SealItem × State :=
  let due := s.sealer.reviews.filter fun r => match r.sealed with
    | some x => x.2 + r.dR == b
    | none => false
  let objs := (due.filterMap fun r => r.sealed).eraseDups
  let items := objs.filterMap fun x =>
    let ps := (due.filter fun r => r.sealed == some x).map fun r =>
      let v := r.verdict.getD (3, 0x0A, 0, false)
      ({ obj := r.obj, code := v.1, detail := v.2.1, score := v.2.2.1, beat := x.2, replayed := v.2.2.2 } : Part)
    (mergeParts (match s.img with | some i => i.disp.least | none => false) ps).map fun m => { itemOf { m with obj := x.1 } x.2 with review := true }
  (items, { s with sealer := { s.sealer with reviews := s.sealer.reviews.filter fun r => !due.contains r } })

/-! ### Disposition and fire windows (R55, R56, R390-R393) -/

/-- Window of a member for an object (R392); in a plan on the time base, dist, a and e are in µs. -/
def fireWindow (timeBase : Bool) (m : Member) (p : Profile) (o : ObjRec) : Word × Word :=
  let u : Int := if timeBase then 1000 else 1
  let fo := o.lead + BitVec.ofInt 32 ((m.dist + p.a) * u)
  let fc := if p.fixed then fo + BitVec.ofInt 32 (p.e * u) else maxPos (fo + 1) (o.trail + BitVec.ofInt 32 ((m.dist + p.e) * u))
  (fo, fc)

/-- The channels of the calendar: below 64 direct outputs, or valves numbered 256 × link + valve. -/
def chan1024 (n : Nat) : Option (Fin 1024) := if h : n < 1024 then some ⟨n, h⟩ else none

/-- Channels that a member selects (R393). -/
def memberSelects (m : Member) (p : Profile) (o : ObjRec) : List (Fin 1024) :=
  if m.kind = 1 then
    let c := (o.left + o.right) / 2
    if (m.xLo : Int) ≤ c ∧ c ≤ m.xHi then (chan1024 m.chan).toList else []
  else if m.kind = 2 then
    if p.full then (List.range (m.nvM1 + 1)).filterMap fun i => chan1024 (256 * m.chan + m.v0 + i)
    else
      let lo := ((o.left - p.margin - m.xLo) * 65536) / (m.wV : Int)
      let hi := ((o.right + p.margin - m.xLo) * 65536) / (m.wV : Int)
      (List.range (m.nvM1 + 1)).filterMap fun (i : Nat) => if lo ≤ (i : Int) ∧ (i : Int) ≤ hi then chan1024 (256 * m.chan + m.v0 + i) else none
  else []

/-- What a record fires: an entry for each used member of its set. The calendar arms an entry at most T_arm after it receives it (R62);
here exactly T_arm after the Landing's C (DESIGN CHOICE, log entry 83). -/
def firings (s : State) (x : SealItem) : List EjEntry :=
  match s.img with
  | none => []
  | some i =>
    let (kind, prof) := disposition i.disp x.code x.detail
    let ms := if kind = 1 then primarySet i.disp else if kind = 2 then secondarySet i.disp else []
    let p := profileOf i.disp prof
    (ms.filter fun m => m.kind != 0).map fun m =>
      let w := fireWindow i.plan.encChannel.isNone m p x.obj
      { object := x.obj.id, valve := m.kind == 2, chans := memberSelects m p x.obj, fOpen := w.1, fClose := w.2
        onMin := m.onMin, onMax := m.onMax, offMin := m.offMin, armC := s.c + (if m.kind = 2 then 4000 else 1000) }

/-- One firing is posted, and whether it was missed (R61, R393, R394). -/
def postFiring (s : State) (e : EjEntry) : State × Bool :=
  if e.chans.isEmpty then ({ s with ejc := { s.ejc with outside := incW s.ejc.outside, status := orW s.ejc.status 4 } }, false)
  else if 0 ≤ diff32 (refCount s) e.fOpen then
    let s := { s with esc := { s.esc with status := orW s.esc.status 0x10 } }
    (raiseAlarm s 0x0004 0xFF 0xFF (leBytes 4 e.object ++ leBytes 4 e.fOpen.toNat), true)
  else if 65536 ≤ s.ejc.entries.length then
    let s := { s with ejc := { s.ejc with full := incW s.ejc.full, status := orW s.ejc.status 1 } }
    (raiseAlarm s 0x000D 0xFF 0xFF (leBytes 4 e.object), false)
  else
    let n := s.ejc.entries.length + 1
    ({ s with ejc := { s.ejc with entries := s.ejc.entries ++ [e], peak := Nat.max s.ejc.peak n } }, false)

/-! ### Posting (R44, R49, R283, R472, R481) -/

/-- Program and weights digests in force for a Beat. -/
def digestsFor (s : State) (beat : Nat) : Digest × Digest := match s.sealer.digests.find? fun d => decide (d.1 ≤ beat) with
  | some d => d.2
  | none => ([], [])

/-- Input digest of the capture interval before a Beat (R282). -/
def inputFor (s : State) (beat : Nat) : List Byte := match s.sealer.inputs.find? fun x => x.1 + 1 == beat with
  | some x => x.2
  | none => List.replicate 16 0

/-- The seal flags: suspect if the Beat lies in a known suspect range, and review (R283, R433). -/
def sealFlags (s : State) (lw beat : Nat) (review : Bool) : Nat :=
  (if s.int.suspects.any fun x => x.1 == lw && decide (x.2.1 ≤ beat ∧ beat ≤ x.2.2) then 1 else 0) + (if review then 2 else 0)

/-- The verdict word (R50). -/
def verdictWord (code detail : Nat) (replayed supersedes missed summary : Bool) : Nat :=
  code + detail * 16 + (if replayed then 0x1000 else 0) + (if supersedes then 0x2000 else 0) + (if missed then 0x4000 else 0) +
  (if summary then 0x8000 else 0)

/-- UNASSESSED verdicts are counted under their sealed reason (R29). -/
def countUa (s : State) (reason n : Nat) : State :=
  if reason = 0 then s else { s with esc := { s.esc with uaCnt := vUpd s.esc.uaCnt reason fun w => satInc w n } }

/-- A record joins the records of the Landing. -/
def addRecord (s : State) (r : VRec) : State := { s with sealer := { s.sealer with posting := s.sealer.posting ++ [r] } }

/-- Order of submission between records (R44): by Beat, logical Wing and slot, a review after a primary record. R355 orders the objects
of one logical Wing only; the order between logical Wings, between Beats and of a review beside a primary record is the model's choice
(DESIGN CHOICE, log entry 84). -/
def submitKey (x : SealItem) : List Nat := [x.beat, x.obj.lwing, x.obj.slot, if x.review then 1 else 0]

def lexLt : List Nat → List Nat → Bool
  | a :: as, b :: bs => decide (a < b) || (a == b && lexLt as bs)
  | _, _ => false

/-- Firings of the records of a Landing with the place of each record in a list. A DEFER record has none (R58), and an object beyond the
record room those of reason 0x04 (R49). -/
def allFirings (s : State) (xs : List SealItem) (rest : List SealItem) : List (Nat × SealItem × EjEntry) :=
  (xs.zipIdx.flatMap fun x => if x.1.code = 2 then [] else (firings s x.1).map fun e => (x.2, x.1, e)) ++
  rest.flatMap fun x => (firings s { x with code := 3, detail := 4 }).map fun e => (xs.length, x, e)

/-- Firings in ascending fire count, ties in submission order and then in the order of the members of a set (R44). -/
def firingOrder (s : State) (fs : List (Nat × SealItem × EjEntry)) : List (Nat × SealItem × EjEntry) :=
  let ref := refCount s
  let key := fun (x : (Nat × SealItem × EjEntry) × Nat) => diff32 x.1.2.2.fOpen ref
  let lt := fun (a b : (Nat × SealItem × EjEntry) × Nat) =>
    decide (key a < key b) || (key a == key b && lexLt (submitKey a.1.2.1 ++ [a.2]) (submitKey b.1.2.1 ++ [b.2]))
  (sortBy lt fs.zipIdx).map fun x => x.1

/-- Every firing of a Landing is posted: the state, and the places of the records with a missed firing. -/
def postFirings (s : State) (fs : List (Nat × SealItem × EjEntry)) : State × List Nat :=
  fs.foldl (fun (acc : State × List Nat) f =>
    let r := postFiring acc.1 f.2.2
    (r.1, if r.2 then f.1 :: acc.2 else acc.2)) (s, [])

/-- A record is posted with its seal. -/
def postItem (s : State) (x : SealItem) (missed : Bool) : State :=
  let s := if x.code = 3 then countUa s x.detail 1 else s
  let d := digestsFor s x.beat
  addRecord s
    { id := x.obj.id, verdict := verdictWord x.code x.detail x.replayed x.review missed false, score := x.score, lead := x.obj.lead.toNat
      trail := x.obj.trail.toNat, left := twos 16 x.obj.left, right := twos 16 x.obj.right, stream := x.obj.stream, oflags := x.obj.flags
      beat := beatNo x.beat, lwing := x.obj.lwing, sflags := sealFlags s x.obj.lwing x.beat x.review, prog := d.1.take 8, wgt := d.2.take 8
      input := inputFor s x.beat }

/-- The count by which a record takes its place: its least fire count, or its trail without a firing (log entry 32). -/
def placeOf (s : State) (x : SealItem) : Int :=
  let ref := refCount s
  let fs := if x.code = 2 then [] else ((firings s x).filter fun e => !e.chans.isEmpty).map fun e => diff32 e.fOpen ref
  match fs with
  | [] => diff32 x.obj.trail ref
  | f :: rest => rest.foldl min f

/-- Posting order of the records (R44). -/
def postingOrder (s : State) (xs : List SealItem) : List SealItem :=
  let lt := fun (a b : Int × SealItem) => decide (a.1 < b.1) || (a.1 == b.1 && lexLt (submitKey a.2) (submitKey b.2))
  (sortBy lt (xs.map fun x => (placeOf s x, x))).map fun x => x.2

/-- The summary record of the objects beyond the record room (R49). It carries missed if a firing of one of them was missed, which R61
does not settle (DESIGN CHOICE, log entry 85). -/
def postSummary (s : State) (b : Nat) (xs : List SealItem) (missed : Bool) : State :=
  match xs.head?, xs.getLast? with
  | some a, some z =>
    let s := countUa s 4 xs.length
    let d := digestsFor s b
    addRecord s
      { id := a.obj.id, verdict := verdictWord 3 4 false false missed true, lead := z.obj.id, trail := xs.length, beat := beatNo b, lwing := a.obj.lwing
        sflags := sealFlags s a.obj.lwing b false, prog := d.1.take 8, wgt := d.2.take 8, input := inputFor s b }
  | _, _ => s

/-- Excess objects with a record of their own, and those that share the summary record (R48, R49): at most 16,384 records are sealed at
one Landing, the summary among them. Where V + Q of the plan leaves no room at all, R49 still asks for the summary record and it is the one
beyond (DESIGN CHOICE, log entry 86). -/
def recordRoom (others : Nat) (beyond : List SealItem) : List SealItem × List SealItem :=
  if others + beyond.length ≤ 16384 then (beyond, []) else (beyond.take (16383 - others), beyond.drop (16383 - others))

/-- Records enter the verdict backlog; those that find it full are lost (R481). -/
def enqueueRecords (s : State) (n : Nat) : State :=
  let rs := s.sealer.posting
  let cap := match s.img with
    | some i => i.net.backlog
    | none => 16384
  let room := cap - s.net.backlog.length
  let xs := (rs.zipIdx.map fun x => (n, x.2, rs.length, x.1)).take room
  let lost := rs.length - room
  let s := { s with net := { s.net with backlog := s.net.backlog ++ xs, verdLost := satInc s.net.verdLost lost } }
  if lost = 0 then s else raiseAlarm { s with net := { s.net with status := orW s.net.status 8 } } 0x0010 0xFF 0xFF (leBytes 4 lost)

/-- The sealing unit seals Beat b at Landing n (R43, R44). -/
def sealBeat (s : State) (n b : Nat) : State :=
  let s := markLate s b
  let (primary, s) := primaryItems s b
  let s := settleReviews s b
  let (reviews, s) := reviewItems s b
  -- which logical Wings' excess objects take the shared room first is open in R49: Beat, logical Wing, slot (DESIGN CHOICE, log entry 86)
  let beyond := sortBy (fun x y => lexLt (submitKey x) (submitKey y)) (primary.filter fun x => x.beyond)
  let others := primary.filter (fun x => !x.beyond) ++ reviews
  let (keep, rest) := recordRoom others.length beyond
  let s := match beyond.head? with
    | some x => raiseAlarm { s with esc := { s.esc with status := orW s.esc.status 0x20 } } 0x0003 0xFF 0xFF (leBytes 4 x.obj.id ++ leBytes 4 beyond.length)
    | none => s
  let s := if (heldOf s b).any fun h => h.unassessed.any fun x => x.2 == 8 then { s with esc := { s.esc with status := orW s.esc.status 0x80 } } else s
  let complete := fun (k : Nat) => (heldOf s b).any fun h => h.lw == k && h.reason.isNone
  let s := { s with sealer := { s.sealer with posting := [], landing := n } }
  let own := postingOrder s (others ++ keep)
  let (s, missed) := postFirings s (firingOrder s (allFirings s own rest))
  let s := own.zipIdx.foldl (fun s x => postItem s x.1 (missed.contains x.2)) s
  let s := postSummary s b rest (missed.contains own.length)
  let s := calibrate s b complete
  let s := enqueueRecords s n
  { s with sealer := { s.sealer with
      sealed := some b, held := s.sealer.held.filter fun h => decide (b < h.beat)
      digests := match s.sealer.digests.find? fun d => decide (d.1 ≤ b - 16) with
        | some d => d :: s.sealer.digests.filter fun x => decide (b - 16 < x.1)
        | none => s.sealer.digests } }

end Sys2Proof.Machine
end

