-- ==== Sys2Proof/Machine/SelfTest.lean ====
section
/-! DEFINITION. Repeats, hang checks, Wing reset escalation, built-in self-test and fused repair (R419-R422, R437-R443,
R454-R456, R539-R542). -/

namespace Sys2Proof.Machine

open Sys2Proof

/-- COMMAND_REPEAT (R419, R420): the failing command or chain is repeated at once on the same engine if it is admitted. -/
def execCommandRepeat (p : PWing) (q : Queue) (r : Repeat) (s : State) : Host.Outcome State Fault Refusal := ok (repeatStep p (queueIdx q) r s)

/-! ### Hang checks (R539, R540) -/

/-- C at a number of cycles after the first issue of the Beat's work. -/
def cycleC (s : State) (w : Work) (cycles : Nat) : Nat := w.firstC + nsOf s cycles

/-- LATEST_START_MISS (R539): a queue's next latency-critical command has not started by slot + δ. -/
def execLatestStartMiss (p : PWing) (q : Queue) (s : State) : Host.Outcome State Fault Refusal :=
  if !dieUp s then ok s
  else match (s.phys[p]).work with
    | none => ok s
    | some w => match ((vGet? w.lc (queueIdx q)).getD []).head?, failingOn w (queueIdx q) with
      | some x, none =>
        let late := x.2.slot + w.delta + (if w.loaded then (wingPlan s w.lw).tLoad else 0)
        ok (lateStart (reach s (cycleC s w (late + 1))) p w (queueIdx q) x.1 x.2)
      | _, _ => ok s

/-- The queue's head waits only on an assembler COPY that runs and has not completed (R539). -/
def waitsAssembler (s : State) (w : Work) (qi : Nat) : Bool :=
  match ((vGet? w.lc qi).getD []).head? with
  | some x => !waitMet w x.2 && [7, 8].any fun f => match headLc w f with
      | some y => mailboxCopy (wingPlan s w.lw) y.2 && cSigEn y.2 && y.2.sigTok == x.2.waitTok
      | none => false
  | none => false

/-- PROGRESS_CHECKPOINT_MISS (R540): a queue has not completed n_j commands by c_j + δ + ω. A miss that an assembler COPY alone
causes is the Assembler's, whose response is a compute-die reset. -/
def execProgressCheckpointMiss (p : PWing) (q : Queue) (j : Nat) (s : State) : Host.Outcome State Fault Refusal :=
  if !dieUp s then ok s
  else match (s.phys[p]).work with
    | none => ok s
    | some w =>
      let qi := queueIdx q
      let plan := wingPlan s w.lw
      match ((tableOf plan w.beat).checks.filter fun c => c.1 == qi)[j]? with
      | none => ok s
      | some (_, nj, cj) =>
        let done := (vGet? w.prog qi).getD 0
        if nj ≤ done then ok s
        else
          let deadline := cj + w.delta + (planOf s).omega + (if w.loaded then plan.tLoad else 0)
          let s := reach s (cycleC s w deadline)
          if waitsAssembler s w qi then ok (dieReset { s with pwr := { s.pwr with prog := incW s.pwr.prog } } 0x05)
          else
            let idx := match ((vGet? w.lc qi).getD []).head? with
              | some x => x.1
              | none => 0xFFFFFFFF
            ok (progressFault s p qi nj done deadline idx)

/-! ### Wing reset escalation (R428, R542) -/

/-- SOFT_RESET_COMPLETE (R428, R542): within 10 µs of its start, and the diagnostic test begins. -/
def execSoftResetComplete (p : PWing) (s : State) : Host.Outcome State Fault Refusal :=
  match (s.phys[p]).softReset with
  | some t =>
    if dieUp s && !(s.phys[p]).clamping && decide (s.c ≤ t + 10000) then
      ok (updPhys s p fun x => { x with softReset := none, bist := some { step := 2, until' := 5, diag := true } })
    else ok s
  | none => ok s

/-- SOFT_RESET_TIMEOUT (R542): the Annex closes the clamps and opens the power switch. -/
def execSoftResetTimeout (p : PWing) (s : State) : Host.Outcome State Fault Refusal :=
  match (s.phys[p]).softReset with
  | some t =>
    if dieUp s && !(s.phys[p]).clamping then ok (updPhys (reach s (t + 10000)) p fun x => { x with clamping := true })
    else ok s
  | none => ok s

/-- ISOLATION_ACK (R428, R542): the Wing is power-gated, loses its soft repairs and is marked out at the next Landing. -/
def execIsolationAck (p : PWing) (s : State) : Host.Outcome State Fault Refusal :=
  if dieUp s && (s.phys[p]).clamping then
    let s := updPhys s p fun x =>
      { x with softReset := none, clamping := false, gated := true, nextRole := some 6, rowsUsed := 0, colsUsed := 0, repairs := 0 }
    ok (addReport s { seq := 0, cause := (s.phys[p]).faultCause, outcome := 8, phys := p, beat := beatField s, unit := 9, time := timeT s })
  else ok s

/-- ISOLATION_ACK_TIMEOUT (R542): no acknowledgement by t + 15 µs is a compute-die reset with cause 0x0B. -/
def execIsolationAckTimeout (p : PWing) (s : State) : Host.Outcome State Fault Refusal :=
  match (s.phys[p]).softReset with
  | some t => if dieUp s && (s.phys[p]).clamping then ok (dieReset (reach s (t + 15000)) 0x0B) else ok s
  | none => ok s

/-! ### Built-in self-test (R438-R443) -/

/-- A test ends with a result; a start bit that asked for it reads 0 again (R454, R456). -/
def endTest (s : State) (p : PWing) (result : Nat) : State :=
  let s := updPhys s p fun x => { x with bist := none, bistResult := result, tested := true }
  if s.tst.bistFor = p.val then { s with tst := { s.tst with bistStart := false } } else s

/-- A step fails: its result code and cause, if the result is one that the step can give. -/
def bistFailure (step : Nat) : BistResult → Option (Nat × Nat)
  | .checker => if step = 2 then some (5, 0x0C) else none
  | .memory => if step = 3 ∨ step = 4 ∨ step = 6 then some (3, 0x0B) else none
  | .logic => if step = 5 then some (4, 0x0B) else none
  | _ => none

/-- A step succeeds: the spare rows and column groups that soft repair took. -/
def bistSuccess (step : Nat) : BistResult → Option (Nat × Nat)
  | .pass => some (0, 0)
  | .repaired r c => if step = 3 ∨ step = 4 then some (r, c) else none
  | _ => none

/-- A Wing whose test failed: its report and flag, and role 6 at the next Landing if the test decides a role. -/
def failTest (s : State) (p : PWing) (b : Bist) (result cause : Nat) : State :=
  let decides := b.diag || b.until' == 6
  let s := endTest { s with int := { s.int with status := orW s.int.status 0x100 } } p result
  let s := if decides then updPhys s p fun x => { x with nextRole := some 6 } else s
  addReport s { seq := 0, cause := cause, outcome := if decides then 8 else 9, phys := p, beat := beatField s, unit := 14, time := timeT s }

/-- A Wing whose test passed: a first fence or a background test gives role 2 at the next Landing, a second fence role 6. -/
def passTest (s : State) (p : PWing) (b : Bist) : State :=
  let s := endTest s p (if b.repaired then 2 else 1)
  if b.until' = 6 then
    updPhys s p fun x => { x with nextRole := some 2, lastPass := s.esc.beat }
  else if b.diag then updPhys s p fun x => { x with nextRole := some (if x.fences ≤ 1 then 2 else 6) }
  else s

/-- The next step of a test, or its end. -/
def nextStep (s : State) (p : PWing) (b : Bist) : State :=
  if b.abort && decide (b.step < 6) then updPhys s p fun x => { x with bist := some { b with step := 6 } }
  else if b.abort then prioritise (updPhys (endTest s p 6) p fun x => { x with nextRole := some 2 }) p
  else if b.until' ≤ b.step then passTest s p b
  else updPhys s p fun x => { x with bist := some { b with step := b.step + 1 } }

/-- BIST_STEP_COMPLETE (R438): a test step ends. A void step runs again (R440). -/
def execBistStepComplete (p : PWing) (r : BistResult) (s : State) : Host.Outcome State Fault Refusal :=
  match (s.phys[p]).bist with
  | none => ok s
  | some b =>
    if !running s then ok s
    else match bistFailure b.step r, bistSuccess b.step r with
      | some f, _ => ok (failTest s p b f.1 f.2)
      | none, some (rows, cols) =>
        let rep := decide (0 < rows + cols)
        let s := updPhys s p fun x =>
          { x with rowsUsed := Nat.min 255 (x.rowsUsed + rows), colsUsed := Nat.min 255 (x.colsUsed + cols), repairs := x.repairs + rows + cols }
        let s := if rep then { s with int := { s.int with status := orW s.int.status 0x200 } } else s
        ok (nextStep s p { b with repaired := b.repaired || rep })
      | none, none => ok s

/-- A write of start to TST_BIST_CTRL asks for a test of a Wing (R441). A ready spare enters role 3 at the next Landing (R75), or at once while
no Beats are issued. -/
def requestTest (s : State) (p : PWing) : State :=
  if s.tst.bistStart then s
  else
    let x := s.phys[p]
    let hold := s.sec.phase == 7
    let s := { s with tst := { s.tst with bistWing := p, bistFor := p, bistStart := true } }
    let refuse := { (updPhys s p fun x => { x with bistResult := 7 }) with tst := { s.tst with bistStart := false } }
    let run := fun (first last : Nat) (role : Nat) => updPhys s p fun x => { x with role := role, bist := some { step := first, until' := last } }
    if x.bist.isSome ∨ x.softReset.isSome ∨ x.nextRole.isSome then refuse
    else if hold then run 2 5 x.role
    else if x.role = 3 ∨ x.role = 4 then refuse
    else if x.role = 2 then
      (if (planOf s).noSpare then run 2 5 2
       else if s.esc.phase = .off then run 1 6 3 else updPhys s p fun x => { x with nextRole := some 3 })
    else if x.role = 0 ∨ x.role = 1 then (if (planOf s).noSpare then refuse else prioritise s p)
    else run 2 5 x.role

/-! ### Fused repair (R442, R455) -/

/-- Free entries of the fused repair area, over all Wings the least. -/
def fuseFree (s : State) : Nat := (s.fuse.repairUsed.toList.map fun u => 512 - u).foldl Nat.min 512

/-- A write of burn to TST_FUSE_CTRL: the first condition of R442 that fails, or the burn starts. -/
def requestBurn (s : State) (mvIo18 mvA : Nat) : State :=
  if s.tst.fuseState = 1 then s
  else
    let no := fun (r : Nat) => { s with tst := { s.tst with fuseState := 3, fuseReason := r } }
    if ¬ (s.sec.phase = 7 ∨ s.sec.phase = 2) then no 1
    else if ¬ (1750 ≤ mvIo18 ∧ mvIo18 ≤ 1850 ∧ 735 ≤ mvA ∧ mvA ≤ 765) then no 2
    else if ¬ (0 ≤ s.therm.tj ∧ s.therm.tj ≤ 680) then no 3
    else if allP.any fun p => decide (512 < s.fuse.repairUsed[p] + (s.phys[p]).repairs) then no 4
    else { s with tst := { s.tst with fuseState := 1, fuseReason := 0 } }

/-- Entries programmed of each Wing: all its soft repairs, or after a failed read-back a number that the manual does not give
(log entry 2). -/
def burnWing (good : Bool) (s : State) (p : PWing) : State :=
  let n := (s.phys[p]).repairs
  let (v, s) := if good then (n, s) else (let r := fresh s; (r.1 % (n + 1), r.2))
  updPhys { s with fuse := { s.fuse with repairUsed := s.fuse.repairUsed.set p (s.fuse.repairUsed[p] + v) } } p fun x => { x with repairs := n - v }

/-- FUSE_BURN_COMPLETE (R442): every entry was read back, or a failed read-back stops the burn with reason 5. -/
def execFuseBurnComplete (good : Bool) (s : State) : Host.Outcome State Fault Refusal :=
  if s.tst.fuseState = 1 then
    let s := allP.foldl (burnWing good) s
    ok { s with tst := { s.tst with fuseState := if good then 2 else 3, fuseReason := if good then 0 else 5 } }
  else ok s

end Sys2Proof.Machine
end

