-- ==== Sys2Proof/Machine/Landing.lean ====
section
/-! DEFINITION. The Landing: drained work becomes current, handovers and substitutions, roles, weight-copy rounds, changeover and
adapter promotion, sealing, and the start of a rotation (R32, R76-R80, R285-R287, R421-R433, R437, R531, R547). -/

namespace Sys2Proof.Machine

open Sys2Proof

/-! ### Loads into a Gallery slice (R286, R424, R430) -/

/-- DRAM bytes copied into the slice of p. The check of each block travels with it (R69): a block that is whole and matches takes a good
check, and one that takes data of a bad DRAM block a bad one. -/
def loadSlice (s : State) (p : PWing) (dst src n : Nat) : State :=
  let bad := (blocksOf dst n).filter fun b => s.mem.bad.any fun d => overlaps (dst + (512 * d - src)) 512 (512 * b) 512 && overlaps (512 * d) 512 src n
  updPhys s p fun x =>
    { x with gallery := memWrites x.gallery dst (memReads s.mem.dram src n)
             galBad := bad ++ x.galBad.filter fun b => !within (512 * b) 512 dst n && !bad.contains b }

/-- The weight copies of the image. -/
def loadWeights (s : State) (p : PWing) : State := match s.img with
  | some i => i.segments.foldl (fun s g => loadSlice s p g.gal g.master g.len) s
  | none => s

/-- Both adapter banks of logical Wing k. -/
def loadBanks (s : State) (p : PWing) (k : Nat) : State :=
  let w := wingPlan s k
  if w.adptSize = 0 then s
  else [0, 1].foldl (fun s b => loadSlice s p (w.adptGal + b * w.adptStep) (w.adptMaster + b * w.adptStep) w.adptSize) s

/-- The Gallery-resident Carried versions w − 1 of logical Wing k, from their mirrors. -/
def loadCarried (s : State) (p : PWing) (k w : Nat) : State :=
  (ownRegions s k).foldl (fun (s : State) (r : Region) => match r.mirror with
    | some m => if r.gallery then loadSlice s p (versionAddr s r ((w : Int) - 1)) (versionAddr s { r with base := m } ((w : Int) - 1)) r.size else s
    | none => s) s

/-- A Wing takes on logical Wing k with work Beat w next. -/
def loadWing (s : State) (p : PWing) (k w : Nat) : State := loadBanks (loadCarried s p k w) p k

/-! ### Drained work (R32, R426) -/

/-- A Wing's work of the Beat that closed: its best-effort rest is discarded, and it is committed. A shadow waits for its
comparison. -/
def drainWing (s : State) (p : PWing) : State :=
  match (s.phys[p]).work with
  | none => updPhys s p fun x => { x with tileWritten := Vector.replicate 6 [] }
  | some w =>
    if w.shadow then s
    else
      let s := discardStep s p
      let s := commitWork s w.lw p w (isReplay s w.lw w.beat)
      updPhys s p fun x => { x with work := none, tileWritten := Vector.replicate 6 [] }

/-- The versions of an abandoned work Beat become current as equal to the ones before (R35, R39). -/
def commitAbandoned (s : State) : State :=
  s.esc.abandoned.foldl (fun (s : State) (k : LWing) => match mapOf s k with
    | some p => (ownRegions s k).foldl (fun s r => makeCurrent s p ((s.lw[k]).nextWork - 1) r) s
    | none => s) s

/-- KV registers of a logical Wing at Landing n (R209-R213). -/
def kvRegisters (n : Nat) (s : State) (k : LWing) : State :=
  if (s.lw[k]).lost then s
  else
    let plan := wingPlan s k
    let kv := kvNow s k
    let ready := readyPages plan kv n
    let low := plan.kvLow
    let fell := decide (ready < low ∧ low ≤ s.mem.kvReady[k])
    let s := { s with mem := { s.mem with
      kvReady := s.mem.kvReady.set k ready, kvMin := s.mem.kvMin.set k (Nat.min ready s.mem.kvMin[k])
      kvActive := s.mem.kvActive.set k (kvSeqs plan kv).length } }
    if fell then flagEvent { s with mem := { s.mem with kvStatus := orW s.mem.kvStatus 16 } } 0x90804 16 [] 0xFF k else s

/-! ### Handover (R79) -/

/-- The shadow q of logical Wing k ends, in a role: its result list is empty again (R242). -/
def endShadow (s : State) (q : PWing) (role : Nat) (k : LWing) : State :=
  updPhys (emptyResults s k q) q fun x =>
    { x with role := role, logical := if role = 0 then k else 0, work := none, tileWritten := Vector.replicate 6 [] }

/-- Check value of version b of a region as a Wing's work leaves it, over a DRAM (R39, R265). -/
def workCheck (s : State) (gal dram : Memory) (w : Work) (r : Region) : Word :=
  let v : Int := if w.written.contains r.id then (w.beat : Int) else (w.beat : Int) - 1
  rangeCheck (if r.gallery then gal else dram) (versionAddr s r v) r.size

/-- p and q of a handover agree on the Beat that closed (R79): on the result list with the UNASSESSED list and the object table, on the
check values of every Carried region, and on the KV allocator and the tracker, which are Carried too (R179, R353). -/
def handoverAgrees (s : State) : Bool :=
  match s.wng.handover with
  | none => true
  | some h => match (s.phys[h.p]).work, (s.phys[h.q]).work with
    | some a, some b =>
      decide (readResults s h.k (s.phys[h.p]).gallery a false = readResults s h.k (s.phys[h.q]).gallery b false) &&
      (ownRegions s h.k).all (fun r =>
        workCheck s (s.phys[h.p]).gallery s.mem.dram a r == workCheck s (s.phys[h.q]).gallery (overlay s.mem.dram b.scratch) b r) &&
      a.kv == b.kv && a.asm == b.asm
    | _, _ => true

/-- What q flagged in the Beat beyond what p had: it counts when q's results are used (R212, R251, R252). -/
def shadowTally (p q : Tally) : Tally :=
  { q with nanRows := q.nanRows - p.nanRows, refused := q.refused - p.refused, alarms := q.alarms.filter fun a => !p.alarms.contains a, asm := q.asm.drop p.asm.length }

/-- A Wing enters the background test (R437, R438). -/
def startTest (s : State) (p : PWing) : State :=
  updPhys s p fun x => { x with role := 3, logical := 0, nextRole := none, bist := some { step := 1, until' := 6 } }

/-- A spare for which a test was asked enters it, unless a substitution took it or needs it: then the request becomes priority (R75,
R441). -/
def startAsked (s : State) (p : PWing) : State :=
  if (s.phys[p]).nextRole ≠ some 3 then s
  else if (s.phys[p]).role = 2 ∧ waiting s = 0 then startTest s p
  else prioritise (updPhys s p fun x => { x with nextRole := none }) p

/-- The handover that ran in the Beat that closed is settled at Landing n; equal says whether the results agree. The table of R79 has no row
for p's work that was abandoned without a fault: the handover is dropped, handover_abort is set and q is a spare again
(DESIGN CHOICE, log entry 87). It gives no precedence where both p and another logical Wing confirm persistent faults: q serves p's row first
(DESIGN CHOICE, log entry 88). -/
def settleHandover (s : State) (n : Nat) (equal : Bool) : State :=
  match s.wng.handover with
  | none => s
  | some h =>
    let s' := { s with wng := { s.wng with handover := none } }
    let aborted := { s' with wng := { s'.wng with status := orW s'.wng.status 4 } }
    match (s.phys[h.q]).work with
    | none => endShadow aborted h.q 2 h.k
    | some w =>
      match (s.lw[h.k]).pending with
      | some pd =>
        -- p confirmed a persistent fault: q's results are used, replayed
        let s := { s' with mem := { s'.mem with dram := overlay s'.mem.dram w.scratch } }
        let s := flagTally s h.k (shadowTally pd.tally w.tally)
        let s := commitWork s h.k h.q w true
        let s := endShadow s h.q 0 h.k
        let s := updLw s h.k fun l => { l with pending := none }
        setMap { s with wng := { s.wng with status := orW s.wng.status 1 } } h.k (some h.q) n
      | none =>
      if (usedLw s).any fun j => (s.lw[j]).pending.isSome then endShadow aborted h.q 2 h.k
      else if s.esc.abandoned.contains h.k then endShadow aborted h.q 2 h.k
      else if equal then
        let s := endShadow s' h.q 0 h.k
        startTest (setMap s h.k (some h.q) n) h.p
      else
        fenceWing s h.q { seq := 0, cause := 0x0A, outcome := 10, beat := w.beat, unit := 9, time := timeT s }

/-! ### Roles and substitutions (R423, R424, R428, R438) -/

/-- Roles that tests decided take effect (R428, R438); a shadow that stopped is a spare again (R75, R79). -/
def updateRole (s : State) (p : PWing) : State :=
  match (s.phys[p]).nextRole with
  | none => s
  | some r =>
    if r = 3 then s else
    let fenced := (s.phys[p]).role == 5
    let s := updPhys s p fun x => { x with role := r, logical := 0, nextRole := none }
    if r = 2 ∧ fenced then loadWeights s p else s

/-- A work Beat that a replacement cannot reach any more (R424, R47). -/
def skipBeat (s : State) (k : LWing) (p : PWing) (b : Nat) : State :=
  let s := rollBack s k (some p) b
  let s := (ownRegions s k).foldl (fun s r => makeCurrent s p b r) s
  let s := doomInterval s k 0x0A 0 (lateObjs s k b)
  updLw (holdLate s k b) k fun l => { l with nextWork := b + 1 }

/-- Spare q takes logical Wing k at Landing n, in role Late (R423, R424). -/
def substitute (s : State) (n : Nat) (k : LWing) (q : PWing) (pd : Pending) : State :=
  let r := (planOf s).r
  let w := (s.lw[k]).nextWork
  let s := loadWing s q k w
  let s := (List.range (n - r - w)).foldl (fun s j => skipBeat s k q (w + j)) s
  let s := updLw s k fun l =>
    { l with pending := none, loads := true, late := n - l.nextWork, replayed := l.replayed ++ [pd.inProgress] }
  let late := (s.lw[k]).late
  let s := updPhys s q fun x => { x with role := if late = 0 then 0 else 1, logical := k }
  setMap { s with wng := { s.wng with status := orW s.wng.status 1 } } k (some q) n

/-- Substitutions that wait, in ascending time of the confirming repeat, ties to the lowest logical index (R78). -/
def pendingOrder (s : State) : List (LWing × Pending) :=
  sortBy (fun a b => decide (a.2.time < b.2.time) || (a.2.time == b.2.time && decide (a.1.val < b.1.val)))
    ((usedLw s).filterMap fun k => (s.lw[k]).pending.map fun p => (k, p))

/-- One waiting substitution: a ready spare takes it; else a Wing in test is aborted for it; else the logical Wing is lost. -/
def settlePending (n : Nat) (acc : State × List PWing) (x : LWing × Pending) : State × List PWing :=
  let (s, called) := acc
  match allP.find? fun q => (s.phys[q]).role == 2 with
  | some q => (substitute s n x.1 q x.2, called)
  | none => match allP.find? fun q => (s.phys[q]).role == 3 && !called.contains q with
    | some q => (updPhys s q fun y => { y with bist := y.bist.map fun b => { b with abort := true } }, called ++ [q])
    | none =>
      let p := (mapOf s x.1).elim 0xFF fun p => p.val
      let done := ((s.lw[x.1]).cutObjs.filter fun y => y.1 == x.2.inProgress).map fun y => y.2
      (setMap (loseWing s x.1 p x.2.inProgress done x.2.asm) x.1 none n, called)

/-- Lateness of each logical Wing at Landing n, and the return of a Wing that has caught up to the Active role (R424, R427). -/
def updateLate (n : Nat) (s : State) (k : LWing) : State :=
  let l := s.lw[k]
  if l.lost then (if (mapOf s k).isSome then setMap s k none n else s)
  else if l.pending.isSome then s
  else
    let s := updLw s k fun l => { l with late := n - l.nextWork }
    match mapOf s k with
    | some p => if (s.phys[p]).role = 1 ∧ (s.lw[k]).late = 0 then updPhys s p fun x => { x with role := 0 } else s
    | none => s

/-- No logical Wing is late and no substitution waits. -/
def allOnTime (s : State) : Bool := (usedLw s).all fun k => (s.lw[k]).lost || ((s.lw[k]).late == 0 && (s.lw[k]).pending.isNone)

/-! ### Carried reset (R417) -/

/-- Version b of a region takes its INIT bytes, in its home and its mirror. -/
def restartRegion (s : State) (p : PWing) (b : Int) (r : Region) : State :=
  let bs := initBytes s r
  let s := match r.mirror with
    | some m => dramWrite s (versionAddr s { r with base := m } b) bs
    | none => s
  if r.gallery then updPhys s p fun x => { x with gallery := memWrites x.gallery (versionAddr s r b) bs } else dramWrite s (versionAddr s r b) bs

/-- A Carried reset of logical Wing k. -/
def carriedReset (s : State) (k : LWing) : State :=
  if !(s.lw[k]).carriedReset || (s.lw[k]).lost then s
  else match mapOf s k with
    | none => s
    | some p =>
      let l := s.lw[k]
      let b := l.nextWork - 1
      let comps := (openComps l.asm).map (compObj k)
      let seqs := ((kvSeqs (wingPlan s k) (kvNow s k)).filter fun r => !comps.any fun o => o.id == r.2.object).map fun r => ({ id := r.2.object, lwing := k.val } : ObjRec)
      let s := (ownRegions s k).foldl (fun s r => makeCurrent (restartRegion s p b r) p b r) s
      let s := holdReason s k b 5 (comps ++ seqs)
      let s := updLw s k fun l => { l with carriedReset := false, asm := { nextId := l.asm.nextId } }
      dueRetract { s with int := { s.int with status := orW s.int.status 0x10 } } k b b 2

/-! ### Weight copies (R430-R433) -/

/-- The segments, of at most 1 MiB, of the bank that a promoted set fills for logical Wing k, with their digests (R286, R430). -/
def bankSegments (s : State) (k : LWing) : List Segment :=
  let w := wingPlan s k
  let off := s.wng.adpt.bank * w.adptStep
  let set := padTo w.adptSize (s.wng.adpt.promSet.drop (bankOffset (planOf s) k))
  (List.range (ceilDiv w.adptSize 0x100000)).map fun j =>
    let bs := (set.drop (0x100000 * j)).take 0x100000
    { gal := w.adptGal + off + 0x100000 * j, master := w.adptMaster + off + 0x100000 * j, len := bs.length, digest := sha3 bs }

/-- Segments of physical Wing p: those of the image, and the bank of a promoted adapter set of the logical Wing it runs. -/
def segmentsOf (s : State) (p : PWing) : List Segment :=
  let base := match s.img with
    | some i => i.segments
    | none => []
  let x := s.phys[p]
  if (x.role = 0 ∨ x.role = 1 ∨ x.role = 4) ∧ s.wng.adpt.promoted then base ++ bankSegments s x.logical else base

/-- Wings that hash their segments (R431). -/
def scrubbed (s : State) : List PWing := allP.filter fun p => [0, 1, 2, 4].contains (s.phys[p]).role

/-- A segment that does not match: its reload is due, and a range of a logical Wing becomes suspect (R432, R433). -/
def mismatch (s : State) (n : Nat) (p : PWing) (j : Nat) (g : Segment) : State :=
  let x := s.phys[p]
  let ahead := (s.int.reloads.filter fun y => y.1 == p).length
  let s := { s with int := { s.int with copyMm := incW s.int.copyMm, reloads := s.int.reloads ++ [(p, j)] } }
  if x.role = 2 then s
  else
    let b1 := ((s.int.passed.find? fun y => y.1 == p && y.2.1 == j).elim 0 fun y => y.2.2)
    -- four reloads are made at a Landing, so those ahead put the reload off (R432)
    let b2 := n + ahead / 4 - 1
    let k := x.logical
    let s := { s with int := { s.int with
      status := orW s.int.status 0x60, suspFrom := b1, suspTo := b2, suspWing := BitVec.ofNat 32 (k.val + 16 * p.val)
      suspects := (k.val, b1, b2) :: s.int.suspects } }
    let s := raiseAlarm s 0x000F p k (leBytes 6 b1 ++ leBytes 6 b2)
    let s := addReport s { seq := 0, cause := 0x09, outcome := 6, phys := p, lwing := k, beat := b2, unit := 9, time := timeT s, addr := g.gal }
    dueRetract s k b1 b2 4

/-- One segment at the end of a round. -/
def judgeSegment (n start : Nat) (unread : List (PWing × Nat)) (s : State) (x : PWing × Nat × Segment) : State :=
  let (p, j, g) := x
  if unread.contains (p, j) then { s with int := { s.int with scrubLate := incW s.int.scrubLate, status := orW s.int.status 0x1000 } }
  else if sha3 (memReads (s.phys[p]).gallery g.gal g.len) = g.digest then
    { s with int := { s.int with passed := (p, j, start) :: s.int.passed.filter fun y => !(y.1 == p && y.2.1 == j) } }
  else mismatch s n p j g

/-- A comparison round ends and the next one starts (R431). -/
def compareRound (s : State) (n : Nat) (unread : List (PWing × Nat)) : State :=
  if n % 1024 ≠ 0 then s
  else
    let s := match s.int.round with
      | none => s
      | some start => ((scrubbed s).flatMap fun p => (segmentsOf s p).zipIdx.map fun (g : Segment × Nat) => (p, g.2, g.1)).foldl (judgeSegment n start unread) s
    { s with int := { s.int with round := some n } }

/-- At most four segments are reloaded per Wing at one Landing (R432). -/
def reloadSegments (s : State) (p : PWing) : State :=
  let mine := (s.int.reloads.filter fun x => x.1 == p).take 4
  let s := mine.foldl (fun (s : State) (x : PWing × Nat) => match (segmentsOf s p)[x.2]? with
    | some g => loadSlice s p g.gal g.master g.len
    | none => s) s
  { s with int := { s.int with reloads := s.int.reloads.filter fun x => !mine.contains x } }

/-! ### Changeover and promotion (R285-R288, R531) -/

/-- The weights digest of an image: SHA3-256 over its WGT section followed by a set (R285). -/
def weightsDigest (i : Image) (set : List Byte) : Digest :=
  sha3 (sectBytes i 1 ++ set)

/-- The ADPT section of an image. -/
def adptSection (i : Image) : List Byte := sectBytes i 10

/-- Digests of Beat b onward. -/
def pushDigests (s : State) (b : Nat) (prog wgt : Digest) : State :=
  { s with sealer := { s.sealer with digests := (b, prog, wgt) :: s.sealer.digests } }

/-- At Landing n + 1 + r of a changeover that came into force at n, the former areas are released and the staged slot is the active one
(R531). -/
def releaseFormer (s : State) (n : Nat) : State :=
  match s.sec.actDone with
  | some m =>
    if m + 1 + (planOf s).r ≤ n then
      let other : Fin 2 := 1 - s.nvm.active
      { s with
        sec := { s.sec with actState := 2, actReason := 0, actDone := none }
        nvm := { s.nvm with
          slots := (s.nvm.slots.set s.nvm.active { s.nvm.slots[s.nvm.active] with state := 2 }).set other { s.nvm.slots[other] with state := 3 }
          active := other } }
    else s
  | none => s

/-- The new image is in force for work Beats n onward (R531). -/
def takeChangeover (s : State) (n : Nat) (i : Image) : State :=
  let s := { s with
    img := some i, imgNew := none
    sec := { s.sec with actDone := some n, preloaded := false, imgSvn := imgSvn i, prog := progDigest i }
    wng := { s.wng with adpt := { s.wng.adpt with state := 0, bank := 0, promoted := false, reason := 0, submit := false, staged := false } } }
  -- the weight copies of the new image lie in its alternate areas, and its ADPT fills bank 0
  let s := allP.foldl loadWeights s
  let s := (usedLw s).foldl (fun (s : State) (k : LWing) => match mapOf s k with
    | some p => loadBanks s p k
    | none => s) s
  pushDigests s n (progDigest i) (weightsDigest i (adptSection i))

/-- A changeover is refused with a reason (R531). -/
def refuseChangeover (s : State) (r : Nat) : State :=
  { s with sec := { s.sec with actState := 3, actReason := r, preloaded := false }, imgNew := none }

/-- A changeover comes into force or is refused at its target Landing, and is released at Landing n + 1 + r (R531). -/
def changeoverLanding (s : State) (n : Nat) : State :=
  let s := releaseFormer s n
  if s.sec.actState = 1 ∧ s.sec.actAt = n ∧ s.sec.actDone = none then
    match s.imgNew with
    | none => refuseChangeover s 0x10
    | some i =>
      if !s.sec.preloaded then refuseChangeover s 0x10
      else if !allOnTime s then refuseChangeover s 0x0F
      else takeChangeover s n i
  else s

/-- A promotion comes into force or is refused at its target Landing, and is released at Landing n + 1 + r (R287, R288, R426). -/
def adapterLanding (s : State) (n : Nat) : State :=
  let a := s.wng.adpt
  let free := a.done + 1 + (planOf s).r
  if (a.state = 2 ∧ free ≤ n) ∨ (a.state = 3 ∧ a.done ≠ 0 ∧ free = n) then { s with wng := { s.wng with adpt := { a with state := 0, reason := 0 } } }
  else if a.state = 1 ∧ a.target ≤ n then
    if !a.staged then { s with wng := { s.wng with adpt := { a with state := 3, reason := 5, submit := false } } }
    else if !allOnTime s then s
    else
      let s := { s with wng := { s.wng with adpt := { a with state := 2, bank := 1 - a.bank, promoted := true, promSet := a.stagedSet, done := n, submit := false, reason := 0 } } }
      let s := pushDigests s n s.sec.prog a.stagedWgt
      otherEvent s (leBytes 6 n)
  else s

/-! ### Rotation (R437) -/

/-- The Wing that a rotation moves: one with priority, else the one that has gone longest since its last pass. -/
def rotationPick (s : State) (n : Nat) : Option PWing :=
  let active := fun (p : PWing) => (s.phys[p]).role == 0
  match s.wng.priority.find? active with
  | some p => some p
  | none =>
    if s.wng.lastHandover + fieldW s.tst.rotCfg 0 24 ≤ n then
      (sortBy (fun a b => decide ((s.phys[a]).lastPass < (s.phys[b]).lastPass) || ((s.phys[a]).lastPass == (s.phys[b]).lastPass && decide (a.val < b.val)))
        (allP.filter active)).head?
    else none

/-- A rotation handover may start at Landing n (R79, R437). -/
def startRotation (s : State) (n : Nat) : State :=
  if (planOf s).noSpare || !allOnTime s || s.wng.handover.isSome || s.pwr.state == 2 then s
  else
    let ready := allP.filter fun q => (s.phys[q]).role == 2
    match s.wng.priority.find? fun q => ready.contains q with
    | some q => startTest { s with wng := { s.wng with priority := s.wng.priority.filter fun x => x != q } } q
    | none => match rotationPick s n with
      | none => s
      | some p => match ready.find? fun q => !(s.phys[q]).tested with
        | some q => startTest s q
        | none => match ready.head? with
          | none => s
          | some q =>
            let k := (s.phys[p]).logical
            let s := loadWing s q k (s.lw[k]).nextWork
            let s := updPhys s q fun x => { x with role := 4, logical := k }
            { s with wng := { s.wng with
                handover := some { k := k, p := p, q := q, n := n }, lastHandover := n
                priority := s.wng.priority.filter fun x => x != p } }

/-! ### Idle (R547) -/

/-- The power state changes, with its event (R553). -/
def setPower (s : State) (new reason : Nat) : State :=
  let old := s.pwr.state
  logEvent { s with pwr := { s.pwr with state := new } } { code := 0x0202, arg := [BitVec.ofNat 8 old, BitVec.ofNat 8 new, BitVec.ofNat 8 reason] }

/-- Entry to Idle at its target Landing: ports stop accepting, and the Escapement stops after Landing n + 2 + r. The Landing after
Idle ends it (R548). -/
def idleLanding (s : State) (n : Nat) : State :=
  match s.pwr.idleAt with
  | none => s
  | some m =>
    if n = m then
      setPower { s with
        cam := { s.cam with port := s.cam.port.map fun p => { p with accepting := false, line := none } }
        -- a line still in progress belongs to interval n, which has none
        isp := { s.isp with cam := s.isp.cam.map fun c => { c with fifo := c.fifo.filter fun l => l.eligible } } } 1 0
    else if n = m + 2 + (planOf s).r then
      let s := setPower (allP.foldl discardStep s) 2 0
      { s with esc := { s.esc with phase := .off }, net := { s.net with idleC := s.c } }
    else if s.pwr.state = 4 then setPower { s with pwr := { s.pwr with idleAt := none } } 0 0
    else s

/-! ### The Landing (R32) -/

/-- Open components at the Landing (R369). -/
def trackCounts (s : State) (k : LWing) : State :=
  if (s.lw[k]).lost then s else { s with isp := { s.isp with oaTrack := s.isp.oaTrack.set k ((openComps (s.lw[k]).asm).length) } }

/-- The steps of Landing n after the drains. The compared results of a handover differ if the two Wings left different values, or if an
error of q's own that no other check met changed one (`equal` false). -/
def landingSteps (s : State) (n : Nat) (equal : Bool) (unread : List (PWing × Nat)) : State :=
  let r := (planOf s).r
  let equal := equal && handoverAgrees s
  let s := commitAbandoned (allP.foldl drainWing s)
  let s := settleHandover s n equal
  let s := allP.foldl updateRole s
  let s := ((pendingOrder s).foldl (settlePending n) (s, [])).1
  let s := (usedLw s).foldl (updateLate n) s
  let s := (usedLw s).foldl (kvRegisters n) ((usedLw s).foldl carriedReset s)
  let s := adapterLanding (changeoverLanding (landingTables s n) n) n
  let s := allP.foldl reloadSegments (compareRound s n unread)
  let s := if 1 + r ≤ n then sealBeat s n (n - 1 - r) else s
  let s := landingPorts (reportCuts s n)
  let s := (usedLw s).foldl trackCounts s
  let s := startRotation (idleLanding (allP.foldl startAsked s) n) n
  { s with esc := { s.esc with abandoned := [] }
           net := { s.net with marks := if s.boot.peers.isEmpty then s.net.marks else s.net.marks ++ [n] } }

/-- LANDING_COMPLETE (R32): every Wing is drained or abandoned, and the steps of the Landing run. -/
def execLandingComplete (equal : Bool) (unread : List (PWing × Nat)) (s : State) : Host.Outcome State Fault Refusal :=
  if dieUp s && s.esc.phase == .drain && allDrained s then
    let s := { s with esc := { s.esc with phase := .guard, landingC := s.c } }
    ok (landingSteps s s.esc.beat equal unread)
  else ok s

end Sys2Proof.Machine
end

