-- ==== Sys2Proof/Machine/Adapters.lean ====
section
/-! DEFINITION. Adapter candidates and promotion requests (R285-R291). -/

namespace Sys2Proof.Machine

open Sys2Proof

/-- The compute die's registers do not act: it is in reset or in Standby, or phase 4 is not complete after one of them (R574). -/
def dieBlocked (s : State) : Bool :=
  s.pwr.dieSince.isSome || s.pwr.state == 3 || (s.start.dieOnly && decide (1 ≤ s.sec.phase ∧ s.sec.phase ≤ 4))

/-- A write of an action bit of an RWS field (R12, R571): it acts from the secure world, and is a violation from the other. A
register of the compute die does not act while R574 holds. -/
def actionWrite (s : State) (a : Acc) (die : Bool) (f : State → State) : State :=
  if !running s then s else if die && dieBlocked s then s else if a.secure then f s else violation s

/-- A promotion is not idle (R287): it stages, or its former bank is not released. -/
def promotionBusy (s : State) : Bool :=
  s.wng.adpt.state == 1 || s.wng.adpt.state == 2 || (s.wng.adpt.done != 0 && decide (s.esc.beat < s.wng.adpt.done + 1 + (planOf s).r))

def digestWords (d : Digest) : Vector Word 8 := Vector.ofFn fun j : Fin 8 => BitVec.ofNat 32 (leAt d (4 * j) 4)

def updAdpt (s : State) (f : Adapter → Adapter) : State := { s with wng := { s.wng with adpt := f s.wng.adpt } }

/-- Reason for which a request is refused, the first of R288 that applies. -/
def submitReason (s : State) : Option Nat :=
  let a := s.wng.adpt
  if !(planOf s).promotion then some 1
  else if a.set.isNone || decide (a.dig ≠ a.cand) then some 2
  else if landingOf s (join48 a.tgtLo a.tgtHi) < s.esc.beat + 2 then some 3
  else if promotionBusy s then some 4
  else none

/-- A write of submit (R287, R288, R290). -/
def submitCore (s : State) : State :=
  if s.wng.adpt.submit then s
  else match submitReason s with
    | some r => updAdpt s fun a => { a with state := 3, reason := r }
    | none => updAdpt s fun a => { a with submit := true, target := landingOf s (join48 a.tgtLo a.tgtHi), state := 1, reason := 0, staged := false, stagedSet := a.set.getD [], stagedWgt := a.wgt }

/-- A write of cancel (R288, R290). -/
def cancelCore (s : State) : State :=
  if s.wng.adpt.state = 1 then updAdpt s fun a => { a with state := 3, reason := 6, submit := false, staged := false } else s

/-- SUBMIT (R287). -/
def execSubmit (a : Acc) (s : State) : Host.Outcome State Fault Refusal := ok (actionWrite s a true submitCore)

/-- ADAPTER_CANCEL (R290). -/
def execAdapterCancel (a : Acc) (s : State) : Host.Outcome State Fault Refusal := ok (actionWrite s a true cancelCore)

/-- The inactive bank of logical Wing k takes its part of the set, in its master and its Gallery copy. -/
def stageBank (s : State) (k : LWing) : State :=
  let w := wingPlan s k
  let b := 1 - s.wng.adpt.bank
  let bs := padTo w.adptSize (s.wng.adpt.stagedSet.drop (bankOffset (planOf s) k))
  let s := dramWrite s (w.adptMaster + b * w.adptStep) bs
  match mapOf s k with
  | some p => loadSlice s p (w.adptGal + b * w.adptStep) (w.adptMaster + b * w.adptStep) w.adptSize
  | none => s

/-- ADAPTER_STAGING_DONE (R287): the candidate is in every inactive bank, if it verified. -/
def execAdapterStagingDone (verified : Bool) (s : State) : Host.Outcome State Fault Refusal :=
  if dieUp s && s.wng.adpt.state == 1 && verified then
    ok (updAdpt ((usedLw s).foldl stageBank s) fun a => { a with staged := true })
  else ok s

/-- ADAPTER_CANDIDATE (R285): after n_ck steps of the training job its candidate region is read and its digests computed. -/
def execAdapterCandidate (s : State) : Host.Outcome State Fault Refusal :=
  match s.img with
  | none => ok s
  | some i =>
    if dieUp s && s.sec.phase == 6 && decide (i.plan.nCk ≤ s.wng.adpt.steps) then
      let set := memReads s.mem.dram i.plan.candBase i.plan.candSize
      ok (updAdpt s fun a => { a with steps := 0, set := some set, cand := digestWords (sha3 set), wgt := weightsDigest i set })
    else ok s

end Sys2Proof.Machine
end

