-- ==== Sys2Proof/Machine/Supply.lean ====
section
/-! DEFINITION. Supply monitors, the VDD_W setpoint and the temperature (R434-R436, R592, R593, R600). -/

namespace Sys2Proof.Machine

open Sys2Proof

/-- VDD_W or VDD_G, whose dips stretch WCLK (R434). -/
def wingRail : Rail → Bool
  | .vddW | .vddG => true
  | _ => false

/-- Every Wing stretches its WCLK periods (R434). -/
def stretching (s : State) : Bool := s.supply.low.any fun r => wingRail r.1

/-- An event that concerns a rail. -/
def railEvent (s : State) (r : Rail) (mv : Nat) : State :=
  logEvent s { code := 0x0302, unit := 13, rail := some (railCode r, mv), arg := [BitVec.ofNat 8 (railCode r)] }

/-- SUPPLY_WARNING (R434): a rail falls below its warning level. On a rail other than VDD_W and VDD_G it only logs. -/
def execSupplyWarning (r : Rail) (mv : Nat) (s : State) : Host.Outcome State Fault Refusal :=
  if s.supply.low.any fun x => x.1 == r then ok s
  else
    let s := { s with supply := { s.supply with low := s.supply.low ++ [(r, s.c)] } }
    ok (if running s && !wingRail r then railEvent s r mv else s)

/-- A rail is back in range. -/
def clearRail (s : State) (r : Rail) : State :=
  { s with supply := { s.supply with low := s.supply.low.filter fun x => x.1 != r, down := s.supply.down.filter fun x => x != r } }

/-- The records of a dip that recovered before the reset level (R435): INT_DROOP registers, flag and report. -/
def dipReport (s : State) (r : Rail) (leastMv usecs cycles : Nat) : State :=
  let s := { s with int := { s.int with
    droopCnt := incW s.int.droopCnt, status := orW s.int.status 0x80
    droopMin := Nat.min s.int.droopMin (Nat.min 0xFFFF leastMv)
    droopLast := BitVec.ofNat 32 (Nat.min 0xFFFF leastMv + (Nat.min 0xFFFF usecs <<< 16)) } }
  addReport s { seq := 0, cause := 0x0D, outcome := 9, beat := beatField s, unit := 13, time := timeT s, rail := railCode r, mv := leastMv
                extra := leBytes 4 usecs ++ leBytes 4 cycles }

/-- SUPPLY_RECOVER (R434, R435): the rail recovers, and stretching ends 200 ns later. -/
def execSupplyRecover (r : Rail) (leastMv usecs cycles : Nat) (s : State) : Host.Outcome State Fault Refusal :=
  if s.supply.low.any fun x => x.1 == r then
    let dip := wingRail r && !s.supply.down.contains r
    let s := advance (clearRail s r) 200
    ok (if running s && dip then dipReport s r leastMv usecs cycles else s)
  else ok s

/-- SUPPLY_RESET_LEVEL (R533): VDD_W or VDD_G resets the compute die, any other rail the device. -/
def execSupplyResetLevel (r : Rail) (s : State) : Host.Outcome State Fault Refusal :=
  let s := { s with supply := { s.supply with
    down := if s.supply.down.contains r then s.supply.down else s.supply.down ++ [r]
    low := if s.supply.low.any (fun x => x.1 == r) then s.supply.low else s.supply.low ++ [(r, s.c)] } }
  if s.pwr.held then ok s
  else if wingRail r then ok (dieReset s 0x03)
  else
    let s := resetState s 0x03
    ok { s with pwr := { s.pwr with held := true } }

/-- AVS_SETPOINT_CHANGE (R592, R593): a setpoint from 600 to 800 mV. Without a valid response after three tries an event is
written and no further change is made until the next device reset. -/
def execAvsSetpointChange (mv : Nat) (answered : Bool) (s : State) : Host.Outcome State Fault Refusal :=
  if running s && !s.supply.stopped && decide (600 ≤ mv ∧ mv ≤ 800) then
    if answered then ok { s with supply := { s.supply with setpoint := mv, change := some (s.supply.setpoint, s.c) } }
    else ok (otherEvent { s with supply := { s.supply with stopped := true } } (leBytes 4 mv))
  else ok s

/-- AVS_SETPOINT_COMPLETE (R592): the monitor's nominal value is the new setpoint. -/
def execAvsSetpointComplete (s : State) : Host.Outcome State Fault Refusal :=
  ok { s with supply := { s.supply with change := none } }

/-- Grade maximum and minimum of Tj in units of 0.125 degrees (R2). -/
def tjMax (s : State) : Int := if s.fuse.gradeI then 840 else 800
def tjMin (s : State) : Int := if s.fuse.gradeI then -320 else 0

/-- An event for a temperature, with the reading in its arg. -/
def tjEvent (s : State) : State := if running s then otherEvent s (leBytes 2 (twos 16 s.therm.tj)) else s

/-- THERMAL_HIGH (R600): SYS_THERM_N is driven low and an event is written. -/
def execThermalHigh (tj : Int) (s : State) : Host.Outcome State Fault Refusal :=
  if tjMax s ≤ tj then ok (tjEvent { s with therm := { s.therm with tj := tj }, pins := { s.pins with thermLow := true } })
  else ok s

/-- THERMAL_TRIP (R600): a device reset with cause 0x06, held until the sensors cool. -/
def execThermalTrip (tj : Int) (s : State) : Host.Outcome State Fault Refusal :=
  if tjMax s + 80 ≤ tj then
    let s := resetState { s with therm := { s.therm with tj := tj }, pins := { s.pins with thermLow := true } } 0x06
    ok { s with pwr := { s.pwr with held := true, hot := true } }
  else ok s

/-- THERMAL_RECOVER (R600): SYS_THERM_N is released, and a device that a trip held starts at phase 0. -/
def execThermalRecover (tj : Int) (s : State) : Host.Outcome State Fault Refusal :=
  if tj ≤ tjMax s - 40 then
    let s := { s with therm := { s.therm with tj := tj }, pins := { s.pins with thermLow := false }, pwr := { s.pwr with hot := false } }
    ok (if s.pwr.held && mayBoot s then boot s else s)
  else ok s

/-- THERMAL_LOW (R600): an event; work continues. -/
def execThermalLow (tj : Int) (s : State) : Host.Outcome State Fault Refusal :=
  if tj < tjMin s then ok (tjEvent { s with therm := { s.therm with tj := tj } }) else ok s

end Sys2Proof.Machine
end

