-- ==== Sys2Proof/Machine/Ethernet.lean ====
section
/-! DEFINITION. The Ethernet ports, gPTP and the Regulator (R458-R467, R474, R490, R503, R533). -/

namespace Sys2Proof.Machine

open Sys2Proof

/-- Updates an Ethernet port. -/
def updEth (s : State) (e : EthPort) (f : EthSt → EthSt) : State := { s with net := { s.net with port := s.net.port.set e (f s.net.port[e]) } }

/-- A frame is discarded and counted in NET_RX_BAD_e. -/
def rxBad (s : State) (e : EthPort) : State := updEth s e fun p => { p with rxBad := incW p.rxBad }

/-- The D8 sends a frame that is no OLP datagram (log entry 9). -/
def sendEth (s : State) (e : EthPort) (kind seqId : Nat) : State :=
  { s with net := { s.net with frames := s.net.frames ++ [(e.val, kind, seqId)] } }

/-- The port is in use and its link is up. -/
def portLive (s : State) (e : EthPort) : Bool := (s.net.port[e]).cfg.enabled && (s.net.port[e]).link && !s.pwr.ethReset[e]

/-! ### Transmit time stamps (R467) -/

/-- A stamp enters the queue of the port, or is lost when 16 entries are there. -/
def addStamp (s : State) (e : EthPort) (x : TxStamp) : State :=
  let p := s.net.port[e]
  if p.stamps.length < 16 then updEth s e fun p => { p with stamps := p.stamps ++ [x] }
  else
    let s := updEth s e fun p => { p with txtsLost := incW p.txtsLost, lostTs := if x.host.isSome then p.lostTs ++ [x] else p.lostTs }
    { s with net := { s.net with status := orW s.net.status (2 ^ e.val) } }

/-- gPTP entries at the front of the queue feed their follow-up messages: kinds 0 Sync, 2 Pdelay_Req, 3 Pdelay_Resp. -/
def drainGptp (s : State) (e : EthPort) : State :=
  let xs := (s.net.port[e]).stamps
  let front := xs.takeWhile fun x => x.host.isNone
  let s := updEth s e fun p => { p with stamps := xs.drop front.length }
  front.foldl (fun (s : State) (x : TxStamp) =>
    if x.kind = 0 then sendEth s e 4 x.ident else if x.kind = 3 then sendEth s e 5 x.ident else s) s

/-- TS_REPORT (R467, R477): the oldest OLP entry of the queue, or a lost one with status 1, is reported to its requester. The manual gives no
T for a lost one: a free value (log entry 2). -/
def execTsReport (e : EthPort) (s : State) : Host.Outcome State Fault Refusal :=
  if !running s then ok s
  else
    let s := drainGptp s e
    let report := fun (s : State) (x : TxStamp) (status : Nat) =>
      sendDg s 0x08 (match x.host with | some h => 1 + h.val | none => 0) (leBytes 1 e ++ leBytes 1 status ++ leBytes 2 x.ident ++ leBytes 8 x.time)
    if s.sec.phase = 7 then ok s
    else match (s.net.port[e]).stamps, (s.net.port[e]).lostTs with
      | x :: xs, _ => ok (report (updEth s e fun p => { p with stamps := xs }) x 0)
      | [], x :: xs =>
        let (v, s) := fresh s
        ok (report (updEth s e fun p => { p with lostTs := xs }) { x with time := v % 2 ^ 64 } 1)
      | [], [] => ok s

/-! ### The Regulator (R463-R466) -/

/-- n / d rounded to nearest, ties away from zero; d is positive. -/
def roundAway (n : Int) (d : Nat) : Int := if 0 ≤ n then (2 * n + d) / (2 * d : Int) else -((-(2 * n) + d) / (2 * d : Int))

/-- A sync interval in ns: 2^logSyncInterval s, for -7 to 0. -/
def syncInterval (s : State) : Nat := 1000000000 / 2 ^ (-s.boot.logSync).toNat

/-- c_k and O_k take the current C and T, so that T does not jump when a changes (R463). -/
def rebase (s : State) : State := { s with reg := { s.reg with ck := s.c, o := timeT s } }

/-- The D8 has been declared ready since the last device reset (R465). -/
def everReady (s : State) : Bool := s.sec.phase == 6 || s.start.dieOnly || (s.sec.phase == 7 && s.start.heldFromService)

/-- The rate for an offset in ns and a rateRatio less 1 in units of 2^-41 (log entry 33). -/
def adjustOf (s : State) (theta y : Int) : Int :=
  let tau := 2 ^ s.boot.kp * syncInterval s
  clampI (-109951162) 109951162 (roundAway (y * tau - theta * 2 ^ 41) (2 * tau))

/-- SYNC_RX (R465, R466): an accepted Sync and Follow_Up on the slave port. -/
def execSyncRx (e : EthPort) (theta y : Int) (s : State) : Host.Outcome State Fault Refusal :=
  if running s && portLive s e && (s.net.port[e]).cfg.gptp && (s.net.port[e]).ptp == 1 then
    let step := !everReady s && (s.reg.state == 0 || s.reg.state == 3)
    let s := rebase s
    ok { s with reg := { s.reg with
      o := if step then s.reg.o - theta else s.reg.o
      a := adjustOf s theta y, state := 1, far := decide (1000000 < theta.natAbs), slave := e.val
      theta := clampI (-2147483648) 2147483647 theta, syncC := s.c } }
  else ok s

/-- SYNC_RECEIPT_TIMEOUT (R466): no Sync within 3 sync intervals while locked. -/
def execSyncReceiptTimeout (s : State) : Host.Outcome State Fault Refusal :=
  if running s && s.reg.state == 1 then
    let s := reach s (s.reg.syncC + 3 * syncInterval s)
    ok (raiseAlarm { s with reg := { s.reg with state := 2 }, net := { s.net with status := orW s.net.status 4 } } 0x0011)
  else ok s

/-- BMCA gives a port its state: 0 disabled, 1 slave, 2 master, 3 passive (R461, R490). There is one slave port at a time; with no
slave port, a D8 that may be grandmaster selects itself and runs at its own rate (R466). -/
def applyBmca (s : State) (e : EthPort) (st : Fin 4) : State :=
  if !(s.net.port[e]).cfg.gptp then s
  else
    let other : EthPort := 1 - e
    let s := updEth s e fun p => { p with ptp := st }
    let s := if st = 1 ∧ (s.net.port[other]).ptp = 1 then updEth s other fun p => { p with ptp := 3 } else s
    if st = 2 ∧ (s.net.port[other]).ptp ≠ 1 ∧ s.boot.priority1 < 255 then
      let s := rebase s
      { s with reg := { s.reg with a := 0, state := 3, far := false } }
    else s

/-- ANNOUNCE_RECEIPT_TIMEOUT (R461): BMCA runs again. -/
def execAnnounceReceiptTimeout (e : EthPort) (state : Fin 4) (s : State) : Host.Outcome State Fault Refusal :=
  ok (if running s && portLive s e then applyBmca s e state else s)

/-- GPTP_TX_INTERVAL (R461, R467): 0 Pdelay_Req, or as master 1 Announce and 2 Sync. Event messages leave a time stamp. -/
def execGptpTxInterval (e : EthPort) (msg : Fin 3) (seqId : Nat) (s : State) : Host.Outcome State Fault Refusal :=
  if running s && portLive s e && (s.net.port[e]).cfg.gptp && (msg == 0 || (s.net.port[e]).ptp == 2) then
    let s := sendEth s e msg (seqId % 65536)
    ok (if msg = 1 then s else addStamp s e { ident := seqId % 65536, kind := if msg = 0 then 2 else 0, time := timeT s })
  else ok s

/-! ### Alarms to the ports (R474) -/

/-- The 48 bytes of an alarm entry. -/
def alarmBytes (a : AlarmEntry) : List Byte :=
  leBytes 2 a.code ++ leBytes 1 a.phys ++ leBytes 1 a.lwing ++ leBytes 4 a.count ++ leBytes 8 a.first ++ leBytes 8 a.last ++ leBytes 6 a.beat ++
    leBytes 2 0 ++ padTo 16 a.arg

/-- The D8 may send more than management, hold and image messages (R460). -/
def mayTalk (s : State) : Bool := running s && s.sec.phase != 7

/-- Up to 28 pending entries are sent and freed, while an enabled port has its link up. -/
def sendAlarms (s : State) : State :=
  let xs := s.net.alarms.take 28
  if xs.isEmpty || !anyLink s || !mayTalk s then s
  else sendDg { s with net := { s.net with alarms := s.net.alarms.drop 28 } } 0x04 0 (xs.flatMap alarmBytes)

/-- ALARM_SEND (R474). -/
def execAlarmSend (s : State) : Host.Outcome State Fault Refusal := ok (sendAlarms s)

/-! ### Links -/

/-- The rate that an interface may report (R458): SGMII 1 Gbit/s, 2500BASE-X 2.5, USXGMII any, 10GBASE-R 10. -/
def rateOk (iface : Nat) (rate : Fin 4) : Bool :=
  if iface = 0 then rate == 0 else if iface = 1 then rate == 1 else if iface = 2 then true else rate == 3

/-- ETH_LINK_UP (R458, R474, R503): the link comes up at its rate, and pending alarms go; a port that failed its check stays down until one
passes. A rate that the interface does not have leaves the port down with cause "rate". -/
def execEthLinkUp (e : EthPort) (rate : Fin 4) (s : State) : Host.Outcome State Fault Refusal :=
  if running s && (s.net.port[e]).cfg.enabled && !(s.net.port[e]).link then
    if rateOk (s.net.port[e]).cfg.iface rate then
      let s := updEth s e fun p => { p with link := !p.pcsDown, rate := rate.val }
      ok (sendAlarms { s with pwr := { s.pwr with ethReset := s.pwr.ethReset.set e false } })
    else ok (updEth s e fun p => { p with cause := 2 })
  else ok s

/-- ETH_LINK_DOWN (R474, R490): causes 1 signal, 2 rate, 3 in-band negotiation. -/
def execEthLinkDown (e : EthPort) (cause : Fin 4) (s : State) : Host.Outcome State Fault Refusal :=
  if running s && (s.net.port[e]).link then ok (updEth s e fun p => { p with link := false, cause := cause.val, ptp := 0 }) else ok s

/-- ETH_PCS_CHECK (R503): the check of an enabled port; a failure keeps the port down until a later check passes. The result goes to the
event recorder. -/
def execEthPcsCheck (e : EthPort) (good : Bool) (s : State) : Host.Outcome State Fault Refusal :=
  let p := s.net.port[e]
  if running s && p.cfg.enabled && (p.link || p.pcsDown) then
    let s := updEth s e fun p => { p with link := good, checked := good, pcsDown := !good, ptp := if good then p.ptp else 0 }
    let s := linkEvent s (0xC0 + e.val) good
    ok (if good && !p.link then sendAlarms s else s)
  else ok s

/-- BLOCK_LOCK_LOSS (R533, R534): block lock lost for 1 s with a signal present resets the port; one in reset only leaves an event. -/
def execBlockLockLoss (e : EthPort) (s : State) : Host.Outcome State Fault Refusal :=
  if !running s || !(s.net.port[e]).cfg.enabled then ok s
  else if s.pwr.ethReset[e] then ok (otherEvent s [5, 0x0F, BitVec.ofNat 8 e.val])
  else
    let g := (s.pwr.genEth[e] + 1) % 16
    let s := { s with pwr := { s.pwr with ethReset := s.pwr.ethReset.set e true, genEth := s.pwr.genEth.set e g } }
    let s := updEth s e fun p => { p with link := false, ptp := 0, stamps := [], lostTs := [] }
    ok (resetEvent s 5 e.val 0x0F g)

end Sys2Proof.Machine
end

