-- ==== Sys2Proof/Machine/Io.lean ====
section
/-! DEFINITION. Industrial inputs and outputs, the ejector calendar and the valve links (R385-R388, R393-R399, R405-R411). -/

namespace Sys2Proof.Machine

open Sys2Proof

/-! ### Inputs (R387) -/

/-- A capture interval is open: Beats have been issued since the last reset (R24). -/
def intervalOpen (s : State) : Bool := running s && s.sec.phase == 6 && s.pwr.dieSince.isNone && !s.esc.fresh

/-- A recorded edge enters the FIFO, or finds it full. -/
def recordEdge (s : State) (n : Chan) (level : Bool) : State :=
  if s.iio.fifo.length < 4096 then { s with iio := { s.iio with fifo := s.iio.fifo ++ [(n.val, level, timeT s, refCount s)] } }
  else raiseAlarm { s with iio := { s.iio with lost := incW s.iio.lost, status := orW s.iio.status 1 } } 0x000C n

/-- INPUT_EDGE (R387): the filtered level of an input changes. -/
def execInputEdge (n : Chan) (level : Bool) (dt : Nat) (s : State) : Host.Outcome State Fault Refusal :=
  let s := advance s dt
  if running s && (s.iio.cfg[n]).dir == 1 && s.iio.level[n] != level then
    let s := { s with iio := { s.iio with level := s.iio.level.set n level, edge := s.iio.edge.set n (incW s.iio.edge[n]) } }
    ok (if (s.iio.cfg[n]).record && intervalOpen s then recordEdge s n level else s)
  else ok s

/-! ### Channels of the calendar (R396) -/

def ejGet (s : State) (valve : Bool) (n : Fin 1024) : EjChan :=
  if valve then s.ejc.valve[n] else (vGet? s.ejc.direct n).getD {}

def ejPut (s : State) (valve : Bool) (n : Fin 1024) (x : EjChan) : State :=
  if valve then { s with ejc := { s.ejc with valve := s.ejc.valve.set n x } }
  else { s with ejc := { s.ejc with direct := vUpd s.ejc.direct n fun _ => x } }

/-- A limit in µs as nanoseconds; for a valve, in whole frames of 2 µs. -/
def limitNs (valve : Bool) (us : Nat) : Nat := if valve then ceilDiv us 2 * 2000 else us * 1000

/-- One transition of a channel at C = c: the channel after it, and whether t_on_max cut it off; none if it stays. -/
def ejNext (x : EjChan) (valve : Bool) (c : Nat) : Option (EjChan × Bool) :=
  match x.state with
  | .off => if x.request || x.pulse then some ({ x with state := .on, since := c, pulse := false }, false) else none
  | .on =>
    if !x.request && decide (x.since + limitNs valve x.onMin ≤ c) then some ({ x with state := .holdoff, since := c }, false)
    else if x.onMax ≠ 0 ∧ x.since + limitNs valve x.onMax ≤ c then some ({ x with state := .forced, since := c }, true)
    else none
  | .forced => if x.request then none else some ({ x with state := .holdoff, since := c }, false)
  | .holdoff => if x.since + limitNs valve x.offMin ≤ c then some ({ x with state := .off, since := c }, false) else none

/-- Transitions of a channel until it stays, at most n of them; the cut-offs counted. -/
def ejSettle : Nat → EjChan → Bool → Nat → Nat → EjChan × Nat
  | 0, x, _, _, cuts => (x, cuts)
  | n + 1, x, valve, c, cuts => match ejNext x valve c with
    | some (y, cut) => ejSettle n y valve c (if cut then cuts + 1 else cuts)
    | none => (x, cuts)

/-- Open entries of a channel that is on have had it on (R396). -/
def markOn (s : State) (valve : Bool) (n : Fin 1024) : State :=
  if (ejGet s valve n).state = .on then
    { s with ejc := { s.ejc with entries := s.ejc.entries.map fun e =>
        if e.valve == valve && e.opened && e.chans.contains n && !e.was.contains n then { e with was := n :: e.was } else e } }
  else s

/-- A channel is evaluated now. -/
def evalChan (s : State) (valve : Bool) (n : Fin 1024) : State :=
  let (x, cuts) := ejSettle 4 (ejGet s valve n) valve s.c 0
  let s := ejPut s valve n x
  let s := if cuts = 0 then s else { s with ejc := { s.ejc with limit := satInc s.ejc.limit cuts, status := orW s.ejc.status 2 } }
  markOn s valve n

/-! ### Entries (R62, R395) -/

/-- What an entry does at the present count. -/
inductive EntryStep where
  /-- It is not armed yet; whether its fire count has been reached. -/
  | unarmed (late : Bool)
  | retire
  | window (isOpen : Bool)
  deriving DecidableEq, Repr

def entryStep (s : State) (e : EjEntry) : EntryStep :=
  if s.c < e.armC then .unarmed (decide (0 ≤ diff32 (refCount s) e.fOpen))
  else if 0 ≤ diff32 (refCount s) e.fClose then .retire
  else .window (decide (0 ≤ diff32 (refCount s) e.fOpen))

/-- A retiring entry leaves a pending pulse on each channel that it never had on. -/
def pulseFor (s : State) (e : EjEntry) : State :=
  let s := (e.chans.filter fun n => !e.was.contains n).foldl (fun (s : State) (n : Fin 1024) =>
    ejPut s e.valve n { ejGet s e.valve n with pulse := true, onMin := e.onMin, onMax := e.onMax, offMin := e.offMin }) s
  { s with ejc := { s.ejc with fired := (s.ejc.fired + 1) % 2 ^ 64 } }

/-- An entry's step: it stays, with its window open or closed, or retires. -/
def stepEntry (acc : State × List EjEntry) (e : EjEntry) : State × List EjEntry :=
  let (s, kept) := acc
  match entryStep s e with
  | .unarmed late => (if late then { s with ejc := { s.ejc with status := orW s.ejc.status 16 } } else s, kept ++ [e])
  | .retire => (pulseFor s e, kept)
  | .window o => (s, kept ++ [{ e with opened := o }])

/-- The requests of every channel: some open entry names it. -/
def setRequests (s : State) : State :=
  let want := fun (valve : Bool) (n : Nat) => s.ejc.entries.find? fun e => e.valve == valve && e.opened && e.chans.any fun c => c.val == n
  let put := fun (valve : Bool) (n : Nat) (x : EjChan) => match want valve n with
    | some e => { x with request := true, onMin := e.onMin, onMax := e.onMax, offMin := e.offMin }
    | none => { x with request := false }
  { s with ejc := { s.ejc with
      direct := Vector.ofFn fun n : Fin 64 => put false n s.ejc.direct[n]
      valve := Vector.ofFn fun n : Fin 1024 => put true n s.ejc.valve[n] } }

/-- The direct outputs, as channels. -/
def directChans : List (Fin 1024) := (List.finRange 64).map fun n => ⟨n.val, Nat.lt_trans n.isLt (by decide)⟩

/-- The calendar meets the present count; direct outputs follow at once, valves at their next frame. -/
def evalCalendar (s : State) : State :=
  if refFault s then s
  else
    let (s, kept) := s.ejc.entries.foldl stepEntry (s, [])
    let s := setRequests { s with ejc := { s.ejc with entries := kept } }
    directChans.foldl (fun s n => evalChan s false n) ((List.finRange 1024).foldl (fun s n => markOn s true n) s)

/-- The calendar is active (R399). -/
def calendarActive (s : State) : Bool := running s && (s.sec.phase == 5 || s.sec.phase == 6 || s.start.dieOnly) && s.sec.phase != 7

/-- CALENDAR_WINDOW (R395): the reference count crosses an f_open or f_close. -/
def execCalendarWindow (dt : Nat) (s : State) : Host.Outcome State Fault Refusal :=
  let s := advance s dt
  ok (if calendarActive s then evalCalendar s else s)

/-- The C at which the limits alone change a channel (R396). -/
def ejDeadline (x : EjChan) (valve : Bool) : Option Nat :=
  match x.state with
  | .on =>
    let a := x.since + limitNs valve x.onMin
    let b := x.since + limitNs valve x.onMax
    if x.request then (if x.onMax = 0 then none else some b) else if x.onMax = 0 then some a else some (Nat.min a b)
  | .holdoff => some (x.since + limitNs valve x.offMin)
  | _ => none

/-- CHANNEL_LIMIT_EXPIRY (R396): t_on_min, t_on_max or t_off_min of a channel has passed. -/
def execChannelLimitExpiry (valve : Bool) (n : Fin 1024) (s : State) : Host.Outcome State Fault Refusal :=
  match ejDeadline (ejGet s valve n) valve with
  | some t => if calendarActive s then ok (evalChan (reach s t) valve n) else ok s
  | none => ok s

/-! ### Valve links (R397, R399, R409) -/

/-- The D8 runs its calendar: the links in use send their valves. Otherwise every link sends all_off. -/
def frameLinks (s : State) : List (Fin 4) := if calendarActive s then (List.finRange 4).filter fun l => bit s.ejc.cfg.toNat (3 + l) else List.finRange 4

/-- Bits of a value, most significant first. -/
def msbBits (n v : Nat) : List Bool := (List.range n).map fun j => v.testBit (n - 1 - j)

/-- The 288 bits of a frame: header, valve states and CRC-16. -/
def frameBits (k : Nat) (allOff : Bool) (valves : List Bool) : List Bool :=
  let body := msbBits 16 (0xA000 + k % 16 * 256 + (if allOff then 128 else 0)) ++ (if allOff then List.replicate 256 false else valves)
  body ++ msbBits 16 (crc16 body).toNat

/-- The valves of a link. -/
def linkChans (l : Fin 4) : List (Fin 1024) := (List.finRange 256).map fun v => ⟨256 * l.val + v.val, by omega⟩

/-- One link sends its frame. -/
def sendFrame (k : Nat) (s : State) (l : Fin 4) : State :=
  let s := if calendarActive s then (linkChans l).foldl (fun s n => evalChan s true n) s else s
  let valves := (linkChans l).map fun n => decide ((s.ejc.valve[n]).state = .on)
  { s with ejc := { s.ejc with sent := s.ejc.sent ++ [(k, l.val, frameBits k (!calendarActive s) valves)] } }

/-- Nanoseconds to the next frame: T is a multiple of 2,000 and that frame has not been sent. -/
def toFrame (s : State) : Nat :=
  let t := timeT s
  if t % 2000 = 0 ∧ s.ejc.frame ≠ t / 2000 then 0 else 2000 - t % 2000

/-- VALVE_FRAME (R397): every 2,000 ns each link sends a frame. -/
def execValveFrame (s : State) : Host.Outcome State Fault Refusal :=
  if running s then
    let k := (timeT s + toFrame s) / 2000
    let s := advance s (toFrame s)
    ok ((frameLinks s).foldl (sendFrame k) { s with ejc := { s.ejc with frame := k } })
  else ok s

/-! ### Outputs (R388, R399) -/

/-- A status function (R388). -/
def statusFn (s : State) (f : Nat) : Bool :=
  if f = 0 then s.iio.ready
  else if f = 1 then decide (s.c < s.iio.alarmEnd)
  else if f = 2 then s.sec.phase == 7 && s.start.heldFromService
  else if f = 3 then decide (s.c < s.iio.pulseEnd)
  else match vGet? s.enc (f - 4) with
    | some x => x.fault
    | none => false

/-- The level driven on IIOn_OUT. -/
def outLevel (s : State) (n : Chan) : Bool :=
  let c := s.iio.cfg[n]
  if !running s || c.dir != 2 then false
  else if s.sec.phase = 7 then c.outSrc == 2 && s.start.heldFromService && statusFn s c.statusFn
  else if c.outSrc = 0 then decide ((s.ejc.direct[n]).state = .on)
  else if c.outSrc = 1 then s.iio.host.getLsbD n
  else statusFn s c.statusFn

/-- STATUS_PULSE_EXPIRY (R388): the 100 ms of an alarm or the 1 µs of a Beat pulse ends. -/
def execStatusPulseExpiry (n : Chan) (s : State) : Host.Outcome State Fault Refusal :=
  let c := s.iio.cfg[n]
  if running s && c.dir == 2 && c.outSrc == 2 then
    ok (if c.statusFn = 1 then reach s s.iio.alarmEnd else if c.statusFn = 3 then reach s s.iio.pulseEnd else s)
  else ok s

end Sys2Proof.Machine
end

