-- ==== Sys2Proof/Machine/Start.lean ====
section
/-! DEFINITION. The start phases: bring-up gate, start-up test, image load, broadcast with INIT, and ready (R73, R74, R495, R503-R519,
R536, R580-R584). -/

namespace Sys2Proof.Machine

open Sys2Proof

/-! ### The bring-up gate (R503, R504, R578) -/

/-- Rates of R504 in the order of step-down, as codes of MEM_DRAM_CFG, from the highest that the configuration allows. -/
def rateSteps (b : BootCfg) : List Nat :=
  (if b.lpddr5x then [5, 4, 3, 2] else [3, 2, 1]).filter fun c => decide (rateOf c ≤ b.maxRate)

/-- MEM_DRAM_CFG once the gate has passed (R578). -/
def dramWord (b : BootCfg) (g : GateResult) (rate : Nat) : Word :=
  BitVec.ofNat 32 ((if b.lpddr5x then 1 else 0) + (rate <<< 1) + (Nat.min 3 g.dramFails <<< 4) + (if g.ranks2 then 64 else 0) + ((g.gib % 512) <<< 8))

/-- BRINGUP_GATE_PASS (R503, R504): the UCIe and DRAM checks complete, after the step-downs that failed checks required. -/
def execBringupGatePass (g : GateResult) (s : State) : Host.Outcome State Fault Refusal :=
  if running s && s.sec.phase == 1 then
    match g.ucieFail with
    | some m => ok (enterHold (linkEvent s (0x40 + m.val) false) 0x0C 0xFF (0x40 + m.val))
    | none => match (rateSteps s.boot)[g.dramFails]? with
      | none => ok (enterHold (linkEvent s (0x80 + g.dramChan.val) false) 0x08 0xFF (0x80 + g.dramChan.val))
      | some rate =>
        let s := ([0x40, 0x41] ++ (List.range 32).map fun c => 0x80 + c).foldl (linkEvent · · true) s
        ok { s with
          mem := { s.mem with dramCfg := dramWord s.boot g rate }
          sec := { s.sec with phase := 2 }, start := { s.start with ucieDram := true } }
  else ok s

/-! ### The start-up test (R506) -/

/-- The conditions of R442 on voltages and temperature. -/
def burnLimits (s : State) (mvIo18 mvA : Nat) : Bool :=
  range 1750 1850 mvIo18 && range 735 765 mvA && decide (0 ≤ s.therm.tj ∧ s.therm.tj ≤ 680)

/-- Soft repairs of a Wing: burned if R442 allows it, else they stay soft. -/
def repairWing (s : State) (p : PWing) (rows cols : Nat) (burn : Bool) : State :=
  let n := rows + cols
  let s := updPhys s p fun x => { x with rowsUsed := Nat.min 255 rows, colsUsed := Nat.min 255 cols, repairs := n, bistResult := 2 }
  let s := { s with int := { s.int with status := orW s.int.status 0x200 } }
  if burn && decide (s.fuse.repairUsed[p] + n ≤ 512) then
    updPhys { s with fuse := { s.fuse with repairUsed := s.fuse.repairUsed.set p (s.fuse.repairUsed[p] + n) } } p fun x => { x with repairs := 0 }
  else s

/-- A Wing joins the fused defect list, or finds it full (64 entries). -/
def addDefect (s : State) (p : PWing) : State :=
  if s.fuse.defects.contains p.val ∨ 64 ≤ s.fuse.defects.length then s else { s with fuse := { s.fuse with defects := s.fuse.defects ++ [p.val] } }

/-- What the start-up test of a Wing finds: nothing, repairs, or a defect, which is listed (R506). -/
def testResult (t : StartTest) (s : State) (p : PWing) : State :=
  let out := fun (s : State) (r : Nat) => updPhys (addDefect s p) p fun x => { x with role := 6, bistResult := r }
  match t.wings.getD p .pass with
  | .pass => updPhys s p fun x => { x with bistResult := 1 }
  | .repaired rows cols => repairWing s p rows cols (t.fuseOk && burnLimits s t.mvIo18 t.mvA)
  | .checker => out s 5
  | .memory => out s 3
  | .logic => out s 4

/-- A Wing in the defect list is marked out. -/
def markDefective (s : State) (p : PWing) : State :=
  if s.fuse.defects.contains p.val then updPhys s p fun x => { x with role := 6 } else s

/-- The result of one Wing applied: a Wing that fails, or that the fused defect list holds, is marked out. -/
def testWing (t : StartTest) (s : State) (p : PWing) : State :=
  if (s.phys[p]).role = 7 then s else markDefective (testResult t s p) p

/-- A Wing fails the test. -/
def wingFails (t : StartTest) (p : PWing) : Bool := match t.wings.getD p .pass with
  | .checker | .memory | .logic => true
  | _ => false

/-- STARTUP_TEST_COMPLETE (R506): the results of every Wing and of DRAM are applied. -/
def execStartupTestComplete (t : StartTest) (s : State) : Host.Outcome State Fault Refusal :=
  if running s && s.sec.phase == 2 then
    let bad := allP.filter fun p => (s.phys[p]).role != 7 && wingFails t p
    let s' := allP.foldl (testWing t) s
    if 256 < t.pages then ok (enterHold s' 0x08)
    else match bad.find? fun p => !s'.fuse.defects.contains p.val with
      | some p => ok (enterHold s' 0x0D 0xFF p)
      | none =>
        if !t.fuseOk then ok (enterHold s' 0x0D)
        else ok { s' with mem := { s'.mem with remap := BitVec.ofNat 32 t.pages }, sec := { s'.sec with phase := 3 } }
  else ok s

/-! ### The image loader (R508, R515) -/

/-- The image of the active slot, if the directory names one that is verified or active. -/
def activeImage (s : State) : Option Image :=
  let slot := s.nvm.slots[s.nvm.active]
  if s.nvm.dirValid && (slot.state == 2 || slot.state == 3) then slot.img else none

/-- IMAGE_LOAD_COMPLETE (R515): the active slot was streamed once; its checks run in order. -/
def execImageLoadComplete (s : State) : Host.Outcome State Fault Refusal :=
  if running s && s.sec.phase == 3 then
    match activeImage s with
    | none => ok (enterHold s 0x01)
    | some i =>
      let s := { s with sec := { s.sec with prog := progDigest i } }
      match loadFail s (slotCap s s.nvm.active) i with
      | some c => ok (enterHold s c.reason c.sect 0xFF c.offset)
      | none =>
        ok { s with
          img := some i, mem := placeImage s.mem i
          sec := { s.sec with phase := 4, imgSvn := imgSvn i }, start := { s.start with pass := 0, missing := [] } }
  else ok s

/-! ### Broadcast (R516) -/

/-- BROADCAST_PASS_END (R516): the receivers report their missing chunks; after 8 passes an incomplete one is marked out until
the next device reset. -/
def execBroadcastPassEnd (missing : List (PWing × List Nat)) (s : State) : Host.Outcome State Fault Refusal :=
  if running s && s.sec.phase == 4 then
    let left := missing.filter fun x => (availWings s).contains x.1 && !x.2.isEmpty
    let pass := s.start.pass + 1
    let s := { s with start := { s.start with pass := pass, missing := left } }
    if pass < 8 ∨ left = [] then ok s
    else
      let gone := left.map fun x => x.1
      let s := gone.foldl (fun (s : State) (p : PWing) => updPhys s p fun x => { x with role := 6 }) s
      let s := { s with start := { s.start with missing := [], dropped := s.start.dropped ++ gone } }
      let p := planOf s
      if wingCountOk p.l p.noSpare (availWings s).length then ok s
      else ok (enterHold s 0x07 0xFF (gone.head?.elim 0xFF fun p => p.val))
  else ok s

/-! ### Registers loaded at start (R25, R26, R81, R208, R277, R321, R366, R401, R405, R409, R455, R584) -/

def speedCode (v : Nat) : Nat := (camSpeeds.idxOf v) + 1

/-- CAM_PORT_CFG of an entry (R321). -/
def camWord (c : CamEntry) : Word :=
  BitVec.ofNat 32 (1 + ((c.laneBase % 32) <<< 1) + ((c.laneCount % 8) <<< 6) + ((speedCode c.speed % 16) <<< 9) + (if c.required then 8192 else 0) +
    (if c.hsUplink then 16384 else 0) + (if c.lockGroup < 8 then c.lockGroup <<< 15 else 0x40000))

/-- ISP_CAM_CFG of an entry (R366). -/
def ispWord (e : IspEntry) : Word :=
  BitVec.ofNat 32 (1 + ((e.pipe % 8) <<< 1) + ((e.input % 2) <<< 4) + (if e.calEn then 32 else 0) + (if e.locked then 64 else 0) +
    (((e.streams.length - 1) % 4) <<< 7))

/-- ESC_BEAT_CFG of a plan (R25). -/
def escWord (p : Plan) : Word :=
  BitVec.ofNat 32 (p.mode % 2 + ((p.encChannel.elim 0 fun e => e.val) <<< 1) + ((p.r % 4) <<< 3) + ((p.grace % 64) <<< 5) + ((p.guardNs % 65536) <<< 16))

/-- Valve link l is used by a member of DISP (R409). -/
def linkUsed (d : Disp) (l : Nat) : Bool := (primarySet d ++ secondarySet d).any fun m => m.kind == 2 && m.chan == l

/-- EJC_CFG (R409). -/
def ejcWord (i : Image) : Word :=
  let base := match i.plan.encChannel with
    | some e => e.val <<< 1
    | none => 1
  BitVec.ofNat 32 (base + ((List.range 4).map fun l => if linkUsed i.disp l then 2 ^ (3 + l) else 0).sum)

/-- The jobs whose seed the D8 draws at start (R276), in the order of the table. -/
def drawnJobs (p : Plan) : List Nat := (p.jobs.filter fun j => j.seed == 0).map fun j => j.id

/-- The seed of a job (R276, R277): the one of PLAN, or where that is 0 a nonzero one of the random source; ctr is the first draw. -/
def jobSeed (p : Plan) (ctr j : Nat) : Dword := match p.jobs.find? fun x => x.id == j with
  | some x => if x.seed = 0 then BitVec.ofNat 64 (1 + (Config.random64 (ctr + (drawnJobs p).idxOf j)).toNat % (2 ^ 64 - 1)) else BitVec.ofNat 64 x.seed
  | none => 0

/-- The configuration of the compute die's blocks. -/
def loadDieRegs (i : Image) (s : State) : State :=
  let p := i.plan
  let seed : Vector Dword 256 := Vector.ofFn fun j : Fin 256 => jobSeed p s.freeCtr j
  let isp : Vector IspCam 16 := Vector.ofFn fun c : Fin 16 => match i.isps.find? fun e => e.port == c.val with
    | some e => { (s.isp.cam[c]) with cfg := ispWord e, active := e.tables, shadow := e.tables, former := e.tables }
    | none => s.isp.cam[c]
  { s with
    freeCtr := s.freeCtr + (drawnJobs p).length
    wng := { s.wng with
      cfg := BitVec.ofNat 32 (p.l % 16 + (if p.noSpare then 16 else 0) + ((availWings s).length <<< 8)), seeds := seed, mapBeat := 0 }
    mem := { s.mem with kvPool := BitVec.ofNat 32 ((p.wings.take p.l).map fun w => w.pageCount).sum }
    tst := { s.tst with rotCfg := BitVec.ofNat 32 (p.rotPeriod % 2 ^ 24) }
    isp := { s.isp with cam := isp }
    esc := { s.esc with
      cfg := escWord p, nb := BitVec.ofNat 32 (p.nB % 2 ^ 24), pMin := BitVec.ofNat 32 p.pMin, pMax := BitVec.ofNat 32 p.pMax
      beat := 0, fresh := true, phase := .off } }

/-- The configuration of the Annex's blocks, applied once after a device reset; the filters start settled (R376, R386). -/
def loadAnnexRegs (i : Image) (ab : Byte) (inputs : Dword) (s : State) : State :=
  let p := i.plan
  let port : Vector CamPort 16 := Vector.ofFn fun c : Fin 16 => match camOf i c with
    | some e => { (s.cam.port[c]) with cfg := camWord e }
    | none => s.cam.port[c]
  let enc : Vector Enc 4 := Vector.ofFn fun e : Fin 4 =>
    { cfg := p.enc.getD e {}, fwd := true, a := bit ab.toNat (2 * e), b := bit ab.toNat (2 * e + 1) }
  let iio : Vector IioCfg 64 := Vector.ofFn fun n : Fin 64 => iioCfg p n
  let level : Vector Bool 64 := Vector.ofFn fun n : Fin 64 =>
    (iioCfg p n).dir == 1 && (bit inputs.toNat n != (iioCfg p n).invert)
  -- the fixed or starting peaking code of each lane (R298, R302)
  let lane : Vector LaneSt 32 := Vector.ofFn fun l : Fin 32 => match (camEntries i).find? fun e => (camLanes e).contains l.val with
    | some e => { (s.cam.lane[l]) with peak := e.peak }
    | none => s.cam.lane[l]
  { s with
    cam := { s.cam with port := port, lane := lane }, enc := enc, iio := { s.iio with cfg := iio, level := level }
    ejc := { s.ejc with cfg := ejcWord i }, net := { s.net with shares := netShares s i } }

/-! ### INIT (R517, R580-R583) -/

/-- REC_CFG as a word, and the fields that a word sets; a written 0 of rate or burst is stored as 1 (R563). -/
def recCfgWord (r : Recorder) : Word := BitVec.ofNat 32 ((if r.mode then 1 else 0) + (r.rate <<< 8) + (r.burst <<< 16))
def setRecCfg (r : Recorder) (v : Word) : Recorder :=
  { r with mode := bit v.toNat 0, rate := Nat.max 1 (bits v.toNat 8 8), burst := Nat.max 1 (bits v.toNat 16 8) }

/-- REC_CROWN_CFG as a word. -/
def crownCfgWord (r : Recorder) : Word := BitVec.ofNat 32 ((if r.crownWrite then 1 else 0) + (if r.crownReset then 2 else 0))
def setCrownCfg (r : Recorder) (v : Word) : Recorder := { r with crownWrite := bit v.toNat 0, crownReset := bit v.toNat 1 }

/-- Replaces the low or high word of a 64-bit value. -/
def setHalf (d : Dword) (hi : Bool) (v : Word) : Dword :=
  if hi then BitVec.ofNat 64 (d.toNat % 2 ^ 32 + v.toNat * 2 ^ 32) else BitVec.ofNat 64 (d.toNat / 2 ^ 32 * 2 ^ 32 + v.toNat)

def halfOf (d : Dword) (hi : Bool) : Word := BitVec.ofNat 32 (if hi then d.toNat / 2 ^ 32 else d.toNat % 2 ^ 32)

/-- Bit of SEC_REG_LOCK of a register that INIT may lock (R583). -/
def lockBit (addr : Nat) : Option Nat :=
  if addr = 0xB0000 then some 0 else if addr = 0xB0040 then some 1 else if addr = 0x60410 then some 2 else if addr = 0x60414 then some 3 else none

/-- A word with the mask's bits taken from the entry's value (R580). -/
def initMix (w : InitWrite) (old : Word) : Word := (old &&& ~~~w.mask) ||| (w.value &&& w.mask)

/-- The value part of an entry of INIT: the mask's bits of a register take the value's (R580). -/
def initValue (s : State) (w : InitWrite) : State :=
  if w.addr = 0xB0000 then { s with recd := setRecCfg s.recd (initMix w (recCfgWord s.recd)) }
  else if w.addr = 0xB0040 then { s with recd := setCrownCfg s.recd (initMix w (crownCfgWord s.recd)) }
  else if w.addr = 0x60410 then { s with iio := { s.iio with host := setHalf s.iio.host false (initMix w (halfOf s.iio.host false)) } }
  else if w.addr = 0x60414 then { s with iio := { s.iio with host := setHalf s.iio.host true (initMix w (halfOf s.iio.host true)) } }
  else s

/-- The lock part of an entry of INIT (R583). -/
def initLock (s : State) (w : InitWrite) : State := match lockBit w.addr with
  | some b => if w.lock then { s with sec := { s.sec with regLock := s.sec.regLock ||| 2 ^ b } } else s
  | none => s

/-- One entry of the INIT list. -/
def initWrite (s : State) (w : InitWrite) : State := initLock (initValue s w) w

/-- The initial version −1 of a region is current, with its check value (R39, R517). -/
def initialRegion (p : PWing) (s : State) (r : Region) : State :=
  let s := restartRegion s p (-1) r
  let v : Carried := { region := r.id, version := 0, check := rangeCheck (regionMem s p r) (versionAddr s r (-1)) r.size }
  { s with mem := { s.mem with carried := v :: s.mem.carried.filter fun x => x.region != r.id } }

/-- Logical Wing k starts on physical Wing p (R74). -/
def placeWing (s : State) (x : Nat × PWing) : State :=
  let (k', p) := x
  if h : k' < 8 then
    let k : LWing := ⟨k', h⟩
    let s := updPhys s p fun y => { y with role := 0, logical := k }
    let s := setMap s k (some p) 0
    let s := updLw s k fun _ => {}
    loadBanks ((ownRegions s k).foldl (initialRegion p) s) p k
  else s

/-- Every available Wing holds the weight copies; logical Wing k takes the k-th lowest available index, and the rest are spares. -/
def placeWings (s : State) : State :=
  let avail := availWings s
  let s := avail.foldl (fun (s : State) (p : PWing) => loadWeights (updPhys s p fun x => { x with role := 2, logical := 0 }) p) s
  ((List.range (lCount s)).zip avail).foldl placeWing s

/-! ### The end of phase 4 and ready -/

/-- Every camera port that is up accepts lines (R536). -/
def acceptLines (s : State) : State :=
  (List.finRange 16).foldl (fun (s : State) (p : Port) =>
    if (s.cam.port[p]).state = 4 then
      updIsp (updPort s p fun x => { x with accepting := true, line := none }) p fun c =>
        { c with frameOpen := false, frameLines := 0, longSeen := false, restart := Vector.replicate 4 true }
    else s) s

/-- The ports that Standby stopped may make new attempts (R549). -/
def reviveCameras (s : State) : State :=
  { s with cam := { s.cam with port := s.cam.port.map fun p => if bit p.cfg.toNat 0 then { p with state := 0, stage := .idle, attempts := 0 } else p } }

/-- The D8 is ready: the edge of Beat 0 is issued (R23, R495). -/
def becomeReady (s : State) : State :=
  issueEdge { s with sec := { s.sec with phase := 6 }, iio := { s.iio with ready := true }, start := { s.start with dieOnly := false } }

/-- Phase 4 ends after a compute-die reset: Beat 0 follows at once (R536, R549). -/
def resumeDie (s : State) : State :=
  let standby := s.pwr.state == 3
  let s := if standby then setPower (reviveCameras s) 0 0 else if s.pwr.state != 0 then setPower (acceptLines s) 0 0 else acceptLines s
  becomeReady s

/-- BROADCAST_COMPLETE (R516, R517, R519, R583): every sequencer's digest matches; INIT is applied, and the map and the registers
are locked. -/
def execBroadcastComplete (matching : Byte) (ab : Byte) (inputs : Dword) (s : State) : Host.Outcome State Fault Refusal :=
  match s.img with
  | none => ok s
  | some i =>
    if running s && s.sec.phase == 4 && decide (1 ≤ s.start.pass) && s.start.missing.isEmpty && (availWings s).all (fun p => bit matching.toNat p) then
      let s := placeWings (loadDieRegs i s)
      let s := pushDigests s 0 (progDigest i) (weightsDigest i (adptSection i))
      let s := if s.sec.mapLocked then s
        else
          let s := (initWrites i).foldl initWrite (loadAnnexRegs i ab inputs s)
          { s with sec := { s.sec with mapLocked := true, map := some i.secmap } }
      if s.start.dieOnly then ok (resumeDie s) else ok { s with sec := { s.sec with phase := 5 } }
    else ok s

/-- Required ports are up and every enabled Ethernet port has passed (R495). -/
def readyMet (s : State) : Bool :=
  (s.cam.port.all fun p => !(bit p.cfg.toNat 0 && bit p.cfg.toNat 13) || p.state == 3 || p.state == 4) &&
  s.net.port.all fun p => !p.cfg.enabled || p.checked

/-- READY (R495): the D8 is declared ready and the edge of Beat 0 is issued. -/
def execReady (s : State) : Host.Outcome State Fault Refusal :=
  if running s && s.sec.phase == 5 && s.pwr.dieSince.isNone && readyMet s then ok (becomeReady s) else ok s

end Sys2Proof.Machine
end

