-- ==== Sys2Proof/Machine/PowerStates.lean ====
section
/-! DEFINITION. Idle and Standby (R545-R550, R564, R565), and the writes that ask for tests, burns, port actions and table commits. -/

namespace Sys2Proof.Machine

open Sys2Proof

/-! ### Power requests -/

/-- A refused request: its reason is kept, and the state does not change. -/
def powerRefuse (s : State) (r : Nat) : State := setPower { s with pwr := { s.pwr with reason := r } } s.pwr.state r

/-- A changeover is in progress (R531). -/
def changeoverBusy (s : State) : Bool := s.sec.actState == 1 || s.sec.actDone.isSome

/-- A request for Idle (R546). -/
def requestIdle (s : State) : State :=
  let n := landingOf s (join48 s.pwr.tgtLo s.pwr.tgtHi)
  if s.pwr.state ≠ 0 ∨ s.sec.phase ≠ 6 ∨ s.pwr.dieSince.isSome then powerRefuse s 1
  else if n < s.esc.beat + 2 then powerRefuse s 2
  else if promotionBusy s || changeoverBusy s || !allOnTime s then powerRefuse s 3
  else { s with pwr := { s.pwr with idleAt := some n, reason := 0 } }

/-- A request for Run (R548, R549): it acts in Idle and in Standby. -/
def requestRun (s : State) : State :=
  if s.pwr.state = 2 then issueEdge (acceptLines (setPower s 4 0))
  else if s.pwr.state = 3 then dieReset s 0x0D
  else s

/-- A camera port stops for Standby: its enable stays as it is (R319, R549). -/
def standbyPort (s : State) (p : Port) : State :=
  let x := s.cam.port[p]
  if x.state = 0 then s
  else
    let s := if portUp x || x.state == 1 then portDown s p 11 0x0E else s
    updPort s p fun x => { x with state := 6, cause := 11, stopReq := false, relinkReq := false, stage := .idle }

/-- What the compute die loses when it is power-gated (R543, R544, R574); its generations wait for the reset at exit. -/
def standbyLoss (s : State) : State :=
  let t := dieMemory (dieIsp (dieWings s))
  { t with
    phys := Vector.ofFn fun p : Fin 8 => { (t.phys[p]) with gen := (s.phys[p]).gen }
    pwr := { t.pwr with genPipe := s.pwr.genPipe } }

/-- A request for Standby (R549). -/
def requestStandby (s : State) : State :=
  if s.pwr.state = 2 then
    let s := standbyLoss (setPower ((List.finRange 16).foldl standbyPort s) 3 0)
    { s with iio := { s.iio with ready := false }, pwr := { s.pwr with reason := 0, idleAt := none } }
  else powerRefuse s 1

/-- IDLE_REQUEST (R546). -/
def execIdleRequest (a : Acc) (s : State) : Host.Outcome State Fault Refusal :=
  ok (actionWrite s a false fun s => requestIdle { s with pwr := { s.pwr with req := 1 } })

/-- RUN_REQUEST (R548, R549). -/
def execRunRequest (a : Acc) (s : State) : Host.Outcome State Fault Refusal :=
  ok (actionWrite s a false fun s => requestRun { s with pwr := { s.pwr with req := 0 } })

/-- STANDBY_REQUEST (R549). -/
def execStandbyRequest (a : Acc) (s : State) : Host.Outcome State Fault Refusal :=
  ok (actionWrite s a false fun s => requestStandby { s with pwr := { s.pwr with req := 2 } })

/-! ### Requests of other blocks -/

/-- BIST_START (R441, R454). -/
def execBistStart (a : Acc) (wing : Fin 8) (s : State) : Host.Outcome State Fault Refusal := ok (actionWrite s a true fun s => requestTest s wing)

/-- FUSE_BURN (R442, R455), with the two voltages that the device measures. -/
def execFuseBurn (a : Acc) (mvIo18 mvA : Nat) (s : State) : Host.Outcome State Fault Refusal :=
  ok (actionWrite s a true fun s => requestBurn s mvIo18 mvA)

/-- RELINK (R318, R323). -/
def execRelink (a : Acc) (p : Port) (s : State) : Host.Outcome State Fault Refusal := ok (actionWrite s a false fun s => relinkPort s p)

/-- STOP (R318, R323). -/
def execStop (a : Acc) (p : Port) (s : State) : Host.Outcome State Fault Refusal := ok (actionWrite s a false fun s => stopPort s p)

/-- COMMIT_MAIN (R343, R369). -/
def execCommitMain (a : Acc) (s : State) : Host.Outcome State Fault Refusal := ok (actionWrite s a true commitMainCore)

/-- COMMIT_GAIN (R342, R369). -/
def execCommitGain (a : Acc) (s : State) : Host.Outcome State Fault Refusal := ok (actionWrite s a true commitGainCore)

/-- ISP_TBL_DATA (R369): WO, so either world may write it. -/
def execIspTblData (_a : Acc) (v : Word) (s : State) : Host.Outcome State Fault Refusal :=
  ok (if running s && !dieBlocked s then tblWrite s v else s)

end Sys2Proof.Machine
end

