-- ==== Sys2Proof/Machine/Images.lean ====
section
/-! DEFINITION. Staging an image, activation and changeover (R514, R525-R532). -/

namespace Sys2Proof.Machine

open Sys2Proof

def updSec (s : State) (f : Security → Security) : State := { s with sec := f s.sec }

/-- The inactive slot. -/
def otherSlot (s : State) : Fin 2 := 1 - s.nvm.active

def setSlot (s : State) (j : Fin 2) (x : Slot) : State := { s with nvm := { s.nvm with slots := s.nvm.slots.set j x } }

/-! ### Receiving (R525-R527) -/

/-- A write of arm (R525): staging in progress is discarded. -/
def armCore (xfer : Half) (s : State) : State :=
  updSec s fun x => { x with xferId := xfer, armedId := xfer, stage := 1, stageReason := 0, recv := [], offer := none, passEnd := none, chgOk := false }

/-- ARM (R525). -/
def execArm (a : Acc) (xfer : Half) (s : State) : Host.Outcome State Fault Refusal := ok (actionWrite s a false (armCore xfer))

/-- A write of abort (R532): staging ends and the slot stays partial. -/
def abortCore (s : State) : State :=
  if 1 ≤ s.sec.stage ∧ s.sec.stage ≤ 3 then updSec s fun x => { x with stage := 0, recv := [], offer := none, passEnd := none } else s

/-- ABORT (R532). -/
def execAbort (a : Acc) (s : State) : Host.Outcome State Fault Refusal := ok (actionWrite s a false abortCore)

def refuseStaging (s : State) (r : Nat) : State := updSec s fun x => { x with stage := 5, stageReason := r, offer := none, passEnd := none }

/-- An IMG_OFFER (R526): an armed D8 checks the offer, marks the slot partial and receives. -/
def offerCore (xfer : Half) (nChunk : Word) (len : Dword) (digest : Digest) (s : State) : State :=
  if running s && s.sec.stage == 1 && s.sec.armedId == xfer then
    if nChunk.toNat ≠ ceilDiv len.toNat 1280 ∨ slotCap s (otherSlot s) < len.toNat then refuseStaging s 5
    else
      let s := setSlot s (otherSlot s) { state := 1, img := none, data := [] }
      updSec s fun x =>
        { x with stage := if nChunk = 0 then 3 else 2, offer := some { nChunk := nChunk.toNat, len := len.toNat, digest := digest }
                 recv := [], chunkC := s.c }
  else s

/-- IMG_OFFER (R526). -/
def execImgOffer (xfer : Half) (nChunk : Word) (len : Dword) (digest : Digest) (s : State) : Host.Outcome State Fault Refusal :=
  ok (offerCore xfer nChunk len digest s)

/-- Bytes that chunk i of an offer carries. -/
def chunkLen (o : Offer) (i : Nat) : Nat := if i + 1 < o.nChunk then 1280 else o.len - 1280 * i

/-- Adds a number to an ascending list. -/
def insertAsc (n : Nat) : List Nat → List Nat
  | [] => [n]
  | x :: xs => if n < x then n :: x :: xs else if n = x then x :: xs else x :: insertAsc n xs

/-- The byte at place a of what a slot received. -/
def slotByte (x : Slot) (a : Nat) : Option Byte := (x.data.find? fun c => c.1 = a / 1280).bind fun c => c.2[a % 1280]?

/-- The slot received these bytes from place a on. -/
def slotHolds (x : Slot) (a : Nat) (bs : List Byte) : Bool := bs.zipIdx.all fun b => slotByte x (a + b.2) == some b.1

/-- The slot holds the bytes of this image: header, section table and sections, as R509 and R510 lay them out (log entry 72). -/
def slotMatches (x : Slot) (img : Image) : Bool :=
  slotHolds x 0 img.header && slotHolds x 32 img.table.flatten &&
    (img.table.zip img.bytes).all fun t => slotHolds x (sectEntry t.1).offset t.2

/-- An IMG_DATA (R526): a chunk is written into the slot and marked; a repeated one is written again. -/
def dataCore (xfer : Half) (chunk : Nat) (data : List Byte) (s : State) : State :=
  match s.sec.offer with
  | none => s
  | some o =>
    if running s && s.sec.stage == 2 && s.sec.armedId == xfer && decide (chunk < o.nChunk ∧ data.length = chunkLen o chunk) then
      let recv := insertAsc chunk s.sec.recv
      let s := setSlot s (otherSlot s) { s.nvm.slots[otherSlot s] with data := (chunk, data) :: s.nvm.slots[otherSlot s].data.filter fun c => c.1 != chunk }
      updSec s fun x => { x with recv := recv, chunkC := s.c, stage := if recv.length = o.nChunk then 3 else 2 }
    else s

/-- IMG_DATA (R526). -/
def execImgData (xfer : Half) (chunk : Nat) (data : List Byte) (s : State) : Host.Outcome State Fault Refusal := ok (dataCore xfer chunk data s)

/-- An IMG_PASS_END (R527): the wait before the IMG_NACK begins. -/
def passEndCore (xfer : Half) (s : State) : State :=
  if running s && s.sec.stage == 2 && s.sec.armedId == xfer then updSec s fun x => { x with passEnd := some s.c } else s

/-- IMG_PASS_END (R527). -/
def execImgPassEnd (xfer : Half) (s : State) : Host.Outcome State Fault Refusal := ok (passEndCore xfer s)

/-- Missing ranges (first, count) below n, for an ascending list of what was received, from position i on. -/
def missingRanges (n : Nat) : Nat → List Nat → List (Nat × Nat)
  | i, [] => if i < n then [(i, n - i)] else []
  | i, x :: xs => if i < x then (i, x - i) :: missingRanges n (x + 1) xs else missingRanges n (x + 1) xs

/-- IMG_NACK (R526, R527): (dev_id mod 64) ms after the pass end, the first 168 missing ranges. -/
def execImgNack (s : State) : Host.Outcome State Fault Refusal :=
  match s.sec.passEnd, s.sec.offer with
  | some t, some o =>
    if running s && s.sec.stage == 2 then
      let s := reach s (t + devId s % 64 * 1000000)
      let rs := (missingRanges o.nChunk 0 s.sec.recv).take 168
      let s := updSec s fun x => { x with passEnd := none }
      ok (sendDg s 0x33 0 (leBytes 2 s.sec.armedId.toNat ++ leBytes 2 rs.length ++ leBytes 4 s.sec.recv.length ++
        rs.flatMap fun r => leBytes 4 r.1 ++ leBytes 4 r.2))
    else ok s
  | _, _ => ok s

/-- STAGING_TIMEOUT (R527): no chunk for 60 s while chunks are missing. -/
def execStagingTimeout (s : State) : Host.Outcome State Fault Refusal :=
  if running s && s.sec.stage == 2 then ok (refuseStaging (reach s (s.sec.chunkC + 60000000000)) 0x10) else ok s

/-! ### Verification (R528, R530) -/

/-- Plans equal in what a changeover keeps (R530). What is locked from start on stays too: ESC_BEAT_CFG (R25) and the line capacities
that size the rings (R341, log entry 78). -/
def plansMatch (a b : Plan) : Bool :=
  a.l == b.l && a.noSpare == b.noSpare && a.r == b.r && a.mode == b.mode && decide (a.encChannel = b.encChannel) && a.pMin == b.pMin &&
  a.pMax == b.pMax && a.nB == b.nB && a.grace == b.grace && a.guardNs == b.guardNs &&
  decide (a.enc = b.enc) && decide (a.iio = b.iio) && a.kvBase == b.kvBase && decide (a.classes = b.classes) && decide (a.regions = b.regions) &&
  decide (a.lineCap = b.lineCap) &&
  (a.jobs.map fun j => (j.id, j.galShare, j.dramShare, j.tsShare)) == (b.jobs.map fun j => (j.id, j.galShare, j.dramShare, j.tsShare)) &&
  (a.wings.map fun w => (w.slotFirst, w.slotCount, w.pageBase, w.pageCount, w.rho, w.kvLow, w.kvRegions)) ==
  (b.wings.map fun w => (w.slotFirst, w.slotCount, w.pageBase, w.pageCount, w.rho, w.kvLow, w.kvRegions))

/-- The staged image may enter by changeover (R530). -/
def changeoverOk (s : State) (i : Image) : Bool := match s.img with
  | none => false
  | some cur => s.sec.phase == 6 && decide (i.plan.predecessor = s.sec.prog) && plansMatch cur.plan i.plan && decide (camEntries cur = camEntries i) &&
      decide (cur.isps = i.isps) && decide (cur.secmap = i.secmap) && decide (cur.net = i.net) && i.altAreas

/-- STAGING_VERIFY_DONE (R528): the slot was read back, and the checks of R515 are applied to it. -/
def execStagingVerifyDone (img : Image) (s : State) : Host.Outcome State Fault Refusal :=
  if running s && s.sec.stage == 3 && slotMatches s.nvm.slots[otherSlot s] img then
    let s := match loadFail s (slotCap s (otherSlot s)) img with
      | none => updSec (setSlot s (otherSlot s) { s.nvm.slots[otherSlot s] with state := 2, img := some img }) fun x => { x with stage := 4, stageReason := 0, chgOk := changeoverOk s img }
      | some c => updSec (setSlot s (otherSlot s) {}) fun x => { x with stage := 5, stageReason := c.reason, chgOk := false }
    ok (sendDg s 0x34 0 (leBytes 2 s.sec.armedId.toNat ++ leBytes 1 s.sec.stage ++ leBytes 1 s.sec.stageReason ++ leBytes 4 s.sec.recv.length ++
      progDigest img))
  else ok s

/-! ### Activation (R514, R529, R531, R532) -/

/-- A write of commit to SEC_SVN_CTRL (R514). -/
def commitCore (s : State) : State :=
  if s.sec.phase = 6 ∧ s.fuse.svn < s.sec.imgSvn then { s with fuse := { s.fuse with svn := s.sec.imgSvn } } else s

/-- COMMIT (R514). -/
def execCommit (a : Acc) (s : State) : Host.Outcome State Fault Refusal := ok (actionWrite s a false commitCore)

/-- ACTIVATION_DEVICE_RESET (R529, mode 1): the D8 starts from the active slot. -/
def execActivationDeviceReset (a : Acc) (s : State) : Host.Outcome State Fault Refusal := ok (actionWrite s a false fun s => deviceReset s 0x09)

/-- The other slot becomes active in the directory. -/
def switchSlot (s : State) : State :=
  let old := s.nvm.slots[s.nvm.active]
  let new := s.nvm.slots[otherSlot s]
  let s' := setSlot (setSlot s s.nvm.active { old with state := if old.state = 3 then 2 else old.state }) (otherSlot s)
    { new with state := if new.state = 2 then 3 else new.state }
  { s' with nvm := { s'.nvm with active := otherSlot s } }

/-- ACTIVATION_SWITCH_SLOT (R529, mode 2). -/
def execActivationSwitchSlot (a : Acc) (s : State) : Host.Outcome State Fault Refusal :=
  ok (actionWrite s a false fun s => deviceReset (switchSlot s) 0x09)

/-- A write of go with mode 3 (R531): preloading, or refused with reason 0x0F. -/
def changeoverCore (s : State) : State :=
  if changeoverBusy s then updSec s fun x => { x with actReason := 0x0F, actState := if x.actState = 1 then 1 else 3 }
  else if s.sec.stage = 4 ∧ s.sec.chgOk ∧ s.esc.beat + 2 ≤ landingOf s (join48 s.sec.actTgtLo s.sec.actTgtHi) ∧ promotionBusy s = false ∧ s.sec.phase = 6 then
    { updSec s fun x => { x with actState := 1, actAt := landingOf s (join48 x.actTgtLo x.actTgtHi), actReason := 0, preloaded := false } with imgNew := (s.nvm.slots[otherSlot s]).img }
  else updSec s fun x => { x with actState := 3, actReason := 0x0F }

/-- CHANGEOVER (R531). -/
def execChangeover (a : Acc) (s : State) : Host.Outcome State Fault Refusal := ok (actionWrite s a false changeoverCore)

/-- A write of cancel to SEC_ACT_CTRL (R532): a preloading changeover is refused. -/
def actCancelCore (s : State) : State :=
  if s.sec.actState = 1 ∧ s.sec.actDone.isNone then { updSec s fun x => { x with actState := 3, actReason := 0x0F, preloaded := false } with imgNew := none } else s

/-- CANCEL (R532). -/
def execCancel (a : Acc) (s : State) : Host.Outcome State Fault Refusal := ok (actionWrite s a false actCancelCore)

/-- CHANGEOVER_PRELOAD_DONE (R531): the new parts lie in the alternate areas, and the weight copies were broadcast. -/
def execChangeoverPreloadDone (s : State) : Host.Outcome State Fault Refusal :=
  match s.imgNew with
  | none => ok s
  | some i =>
    if dieUp s && s.sec.actState == 1 then
      let s := { s with mem := placeImage s.mem i }
      let s := (availWings s).foldl (fun (s : State) (p : PWing) => i.segments.foldl (fun s g => loadSlice s p g.gal g.master g.len) s) s
      ok (updSec s fun x => { x with preloaded := true })
    else ok s

end Sys2Proof.Machine
end

