-- ==== Sys2Proof/Machine/Mailbox.lean ====
section
/-! DEFINITION. The secure mailbox: certificates, attestation, sessions and key slots (R513, R520-R524, R532). The manual names what an
operation takes and gives; its byte order in the buffer is in log entry 30. -/

namespace Sys2Proof.Machine

open Sys2Proof

/-! ### Identity (R6, R520, R521) -/

/-- ID_PART (R6). -/
def idPart (s : State) : Word :=
  BitVec.ofNat 32 (0x010000D8 + (((List.range 8).filter fun p => bit s.fuse.goodWings p).length <<< 20) + (if s.fuse.gradeI then 65536 else 0))

/-- Seeds of the identity and attestation keys. -/
def idSeed (s : State) : Digest := sha3 (ascii "OPCN-ID" ++ s.fuse.secret)
def akSeed (s : State) : Digest := sha3 (ascii "OPCN-AK" ++ s.fuse.secret ++ (firmware s).digest ++ leBytes 4 (firmware s).version)

/-- The statement that the identity key signs at each start. -/
def attestStatement (s : State) : List Byte :=
  let body := Config.mlDsaPublic (akSeed s) ++ padTo 32 (firmware s).digest ++ leBytes 4 (firmware s).version ++ leBytes 4 s.net.gen
  body ++ Config.mlDsaSign (idSeed s) "" body

/-- SEC_KEYSLOT bits of a slot (R532). -/
def keyWord (k : KeySlot) : Nat :=
  (if k.written then 1 else 0) + (if k.alg then 2 else 0) + ((k.usage % 16) <<< 2) + (if k.revoked then 64 else 0)

/-- A slot record, for the keys field of a report. -/
def keyRecord (k : KeySlot) : List Byte := padTo 32 k.hash ++ leBytes 4 (keyWord k)

/-- The 224-byte report (R521). -/
def attestReport (s : State) (nonce : List Byte) : List Byte :=
  let inForce := s.img.isSome && decide (4 ≤ s.sec.phase ∧ s.sec.phase ≤ 6)
  let d := if inForce then digestsFor s s.esc.beat else ([], [])
  padTo 32 nonce ++ leBytes 8 (devId s) ++ leBytes 4 (idPart s).toNat ++ leBytes 4 s.net.gen ++ leBytes 6 (beatField s) ++ leBytes 1 s.sec.phase ++
    leBytes 1 ((if s.sec.mapLocked then 1 else 0) + (if s.wng.adpt.promoted then 2 else 0)) ++ leBytes 8 (timeT s) ++ padTo 32 (firmware s).digest ++
    padTo 32 d.1 ++ padTo 32 d.2 ++ sha3 (s.fuse.keys.toList.flatMap keyRecord) ++ leBytes 1 s.fuse.svn ++ leBytes 1 s.sec.imgSvn ++
    leBytes 1 (if s.sec.phase = 7 then s.sec.reason else 0) ++ List.replicate 29 0

/-! ### The buffer -/

/-- Input of the operation: mailbox length bytes from word 0. -/
def mboxIn (s : State) : List Byte := memReads s.sec.mboxBuf 0 (Nat.min 8192 s.sec.mboxLen)

/-- An operation ends with a status and its output (R532). -/
def mboxDone (s : State) (op status : Nat) (out : List Byte := []) : State :=
  updSec s fun x => { x with mboxOp := op, mboxStatus := status, mboxBuf := memWrites x.mboxBuf 0 (out.take 8192), mboxLen := Nat.min 8192 out.length }

/-! ### The operations (R522, R524) -/

def opGetCert (s : State) : State := mboxDone s 1 0 (s.nvm.cert ++ attestStatement s)

def opAttest (s : State) : State :=
  if s.sec.mboxLen ≠ 32 then mboxDone s 2 3
  else
    let r := attestReport s (mboxIn s)
    mboxDone s 2 0 (r ++ Config.mlDsaSign (akSeed s) "OPCN-ATTEST" r)

/-- A session that had a secure request within 600 s; after 600 s without one it is closed (R522). -/
def sessionLive (s : State) (x : Session) : Bool := decide (s.c < x.lastC + 600000000000)

/-- OPEN: at most four sessions are open or opening. -/
def opOpen (s : State) : State :=
  let i := mboxIn s
  let alg := leAt i 0 1
  let pkLen := if alg = 44 then 1312 else 1952
  let live := s.sec.openings.filter fun o => decide (s.c ≤ o.atC + 10000000000)
  if (alg ≠ 44 ∧ alg ≠ 65) ∨ i.length ≠ 1 + pkLen + 32 then mboxDone s 3 3
  else if 4 ≤ (s.sec.sessions.filter (sessionLive s)).length + live.length then mboxDone s 3 2
  else
    let draw := s.freeCtr
    let (nonce, s) := randomBytes 4 { s with freeCtr := s.freeCtr + 1 }
    let id := s.sec.nextId
    let ek := Config.mlKemKey draw
    let o : Opening := { id := id, alg := alg == 65, pk := (i.drop 1).take pkLen, hostNonce := i.drop (1 + pkLen), nonce := nonce, draw := draw, atC := s.c }
    let s := updSec s fun x => { x with openings := live ++ [o], nextId := x.nextId % (2 ^ 32 - 1) + 1 }
    let body := leBytes 4 id ++ ek ++ nonce
    mboxDone s 3 0 (body ++ Config.mlDsaSign (akSeed s) "OPCN-SESS" body)

/-- The host key lies in an owner slot with host usage that is not revoked. -/
def hostKeyOk (s : State) (o : Opening) : Bool :=
  (s.fuse.keys.toList.drop 2).any fun k => k.written && !k.revoked && bit k.usage 3 && k.alg == o.alg && decide (sha3 o.pk = k.hash)

/-- FINISH. -/
def opFinish (s : State) : State :=
  let i := mboxIn s
  let id := leAt i 0 4
  let ct := (i.drop 4).take 1088
  let sig := i.drop 1092
  match s.sec.openings.find? fun o => o.id == id with
  | none => mboxDone s 4 2
  | some o =>
    let s := updSec s fun x => { x with openings := x.openings.filter fun y => y.id != id }
    if o.atC + 10000000000 < s.c ∨ i.length < 1092 ∨ hostKeyOk s o = false ∨
        Config.mlDsaVerify o.alg o.pk "OPCN-SESS" (ct ++ o.hostNonce ++ o.nonce ++ leBytes 4 id) sig = false then mboxDone s 4 2
    else match Config.mlKemDecaps o.draw ct with
      | none => mboxDone s 4 2
      | some ss =>
        let k := sha3 (ascii "OPCN-K" ++ ss ++ o.hostNonce ++ o.nonce)
        mboxDone (updSec s fun x => { x with sessions := x.sessions ++ [{ id := id, key := k, nextReq := 0, lastC := s.c }] }) 4 0

/-- CLOSE. -/
def opClose (s : State) (secure : Bool) : State :=
  let id := leAt (mboxIn s) 0 4
  if !secure then mboxDone s 5 2
  else if s.sec.mboxLen ≠ 4 then mboxDone s 5 3
  else if s.sec.sessions.any fun x => x.id == id && sessionLive s x then
    mboxDone (updSec s fun x => { x with sessions := x.sessions.filter fun y => y.id != id }) 5 0
  else mboxDone s 5 2

/-- Some owner slot is written (R513). -/
def ownerWritten (s : State) : Bool := (s.fuse.keys.toList.drop 2).any fun k => k.written

/-- An owner slot that is not written takes a key: whether it did. -/
def writeKey (s : State) (slot : Nat) (alg : Bool) (usage : Nat) (hash : Digest) : State × Bool :=
  match vGet? s.fuse.keys slot with
  | some k =>
    if slot < 2 ∨ k.written ∨ 16 ≤ usage then (s, false)
    else ({ s with fuse := { s.fuse with keys := vUpd s.fuse.keys slot fun k => { k with hash := hash, alg := alg, usage := usage, written := true } } }, true)
  | none => (s, false)

/-- KEY_WRITE: from Crown while no owner slot is written, and in a secure session afterwards. -/
def opKeyWrite (s : State) (a : Acc) : State :=
  let i := mboxIn s
  if !(if ownerWritten s then a.secure else a.who == .crown) then mboxDone s 6 2
  else if i.length ≠ 35 then mboxDone s 6 3
  else
    let (s, done) := writeKey s (leAt i 0 1) (leAt i 1 1 == 1) (leAt i 2 1) (i.drop 3)
    mboxDone s 6 (if done then 0 else 2)

/-- Unrevoked owner slots with image usage. -/
def imageKeys (s : State) : Nat := ((s.fuse.keys.toList.drop 2).filter fun k => k.written && !k.revoked && bit k.usage 1).length

/-- KEY_REVOKE: the last unrevoked owner slot with image usage stays. -/
def opKeyRevoke (s : State) (secure : Bool) : State :=
  let slot := leAt (mboxIn s) 0 1
  if !secure then mboxDone s 7 2
  else if s.sec.mboxLen ≠ 1 then mboxDone s 7 3
  else match vGet? s.fuse.keys slot with
    | some k =>
      if slot < 2 ∨ k.written = false ∨ k.revoked ∨ (bit k.usage 1 ∧ imageKeys s ≤ 1) then mboxDone s 7 2
      else mboxDone { s with fuse := { s.fuse with keys := vUpd s.fuse.keys slot fun k => { k with revoked := true } } } 7 0
    | none => mboxDone s 7 2

/-- A write of go runs the operation in op. -/
def mboxGo (s : State) (a : Acc) (op : Nat) : State :=
  match op with
  | 1 => opGetCert s
  | 2 => opAttest s
  | 3 => opOpen s
  | 4 => opFinish s
  | 5 => opClose s a.secure
  | 6 => opKeyWrite s a
  | 7 => opKeyRevoke s a.secure
  | _ => updSec s fun x => { x with mboxOp := op, mboxStatus := 3 }

/-- An access to SEC_MBOX_DATA: the word is written, and the index advances (R532). -/
def mboxData (s : State) (w : Option Word) : State :=
  updSec s fun x =>
    { x with
      mboxBuf := match w with
        | some v => memWrites x.mboxBuf (4 * x.mboxIdx) (leBytes 4 v.toNat)
        | none => x.mboxBuf
      mboxIdx := (x.mboxIdx + 1) % 2048 }

/-! ### The commands -/

/-- GET_CERT (R524). -/
def execGetCert (_a : Acc) (s : State) : Host.Outcome State Fault Refusal := ok (if running s then opGetCert s else s)
/-- ATTEST (R521, R524). -/
def execAttest (_a : Acc) (s : State) : Host.Outcome State Fault Refusal := ok (if running s then opAttest s else s)
/-- OPEN_SESSION (R522). -/
def execOpenSession (_a : Acc) (s : State) : Host.Outcome State Fault Refusal := ok (if running s then opOpen s else s)
/-- FINISH (R522). -/
def execFinish (_a : Acc) (s : State) : Host.Outcome State Fault Refusal := ok (if running s then opFinish s else s)
/-- CLOSE (R522, R524). -/
def execClose (a : Acc) (s : State) : Host.Outcome State Fault Refusal := ok (if running s then opClose s a.secure else s)
/-- KEY_WRITE (R513, R524). -/
def execKeyWrite (a : Acc) (s : State) : Host.Outcome State Fault Refusal := ok (if running s then opKeyWrite s a else s)
/-- KEY_REVOKE (R513, R524). -/
def execKeyRevoke (a : Acc) (s : State) : Host.Outcome State Fault Refusal := ok (if running s then opKeyRevoke s a.secure else s)

/-- MBOX_NO_OPERATION (R524): op 0 or 8 to 15. -/
def execMboxNoOperation (a : Acc) (op : Fin 16) (s : State) : Host.Outcome State Fault Refusal :=
  ok (if running s && (op == 0 || decide (8 ≤ op.val)) then mboxGo s a op else s)

/-- SEC_MBOX_DATA (R532): a read, or a write of a word. -/
def execSecMboxData (_a : Acc) (w : Option Word) (s : State) : Host.Outcome State Fault Refusal := ok (if running s then mboxData s w else s)

/-- SESSION_IDLE_TIMEOUT (R522): 600 s without a secure request. -/
def execSessionIdleTimeout (id : Word) (s : State) : Host.Outcome State Fault Refusal :=
  match s.sec.sessions.find? fun x => x.id == id.toNat with
  | some x =>
    if running s then
      ok (updSec (reach s (x.lastC + 600000000000)) fun y => { y with sessions := y.sessions.filter fun z => z.id != id.toNat })
    else ok s
  | none => ok s

end Sys2Proof.Machine
end

