-- ==== Sys2Proof/Machine/Recording.lean ====
section
/-! DEFINITION. Clears and reads of the logs, the NVM log and the mirror of retention memory (R444, R555-R558). -/

namespace Sys2Proof.Machine

open Sys2Proof

/-- Event 0x0203: bit 0 live, bit 1 NVM, bit 2 dump, bit 3 integrity log, and the records cleared. -/
def clearedEvent (mask n : Nat) : Ev := { code := 0x0203, arg := [BitVec.ofNat 8 mask, 0, 0, 0] ++ leBytes 4 n }

/-- Empties the live log. -/
def emptyLive (s : State) : State :=
  { s with recd := { s.recd with live := [], lostCnt := 0, fullAlarm := false }, net := { s.net with evSent := 0 } }

/-- Empties the NVM log; record numbers start again. -/
def emptyNvm (s : State) : State :=
  { s with nvm := { s.nvm with log := [] }, ret := { s.ret with tailNew := 0, recSeq := 0 }, recd := { s.recd with nvmAlarm := false } }

/-- A secure write to REC_CTRL (R557): the selected logs and the dump are cleared, and event 0x0203 is the first record. -/
def recClear (s : State) (mask : Nat) : State :=
  let m := mask % 8
  if m = 0 then s
  else
    let n := (if bit m 0 then s.recd.live.length else 0) + (if bit m 1 then s.nvm.log.length else 0)
    let s := if bit m 0 then emptyLive s else s
    let s := if bit m 1 then emptyNvm s else s
    let s := if bit m 2 then { s with ret := { s.ret with dump := none } } else s
    putRecord s (clearedEvent m n) 0

/-- A write of clear to INT_LOG_CTRL (R444). -/
def intLogClear (s : State) : State :=
  let n := s.ret.intLog.length
  logEvent { s with ret := { s.ret with intLog := [], intLost := 0 } } (clearedEvent 8 n)

/-- CLEAR_LIVE (R557). -/
def execClearLive (a : Acc) (s : State) : Host.Outcome State Fault Refusal := ok (actionWrite s a false fun s => recClear s 1)
/-- CLEAR_NVM (R557). -/
def execClearNvm (a : Acc) (s : State) : Host.Outcome State Fault Refusal := ok (actionWrite s a false fun s => recClear s 2)
/-- CLEAR_DUMP (R557). -/
def execClearDump (a : Acc) (s : State) : Host.Outcome State Fault Refusal := ok (actionWrite s a false fun s => recClear s 4)
/-- INTEGRITY_LOG_CLEAR (R444, R453). -/
def execIntegrityLogClear (a : Acc) (s : State) : Host.Outcome State Fault Refusal := ok (actionWrite s a false intLogClear)

/-- The record that REC_IDX addresses (R563). -/
def addressedRecord (s : State) : Option EventRec :=
  let r := bits s.recd.idx 4 17
  if bit s.recd.idx 21 then s.nvm.log[r]? else s.recd.live[r]?

/-- REC_DATA_READ (R557): a read through REC_DATA verifies the addressed record. -/
def execRecDataRead (_a : Acc) (good : Bool) (s : State) : Host.Outcome State Fault Refusal :=
  if running s && (addressedRecord s).isSome then
    ok { s with recd := { s.recd with bad := !good, badRecord := s.recd.badRecord || !good } }
  else ok s

/-- NVM_LOG_APPEND (R556): the records not yet in the NVM log are appended; those that find it full are lost, with an alarm once
per fill. -/
def execNvmLogAppend (s : State) : Host.Outcome State Fault Refusal :=
  if running s && decide (0 < s.ret.tailNew) then
    let new := s.ret.tail.drop (s.ret.tail.length - s.ret.tailNew)
    let room := s.boot.nvmLog - s.nvm.log.length
    let lost := new.length - room
    let s := { s with nvm := { s.nvm with log := s.nvm.log ++ new.take room }, ret := { s.ret with tailNew := 0 } }
    if lost = 0 then ok s
    else
      let first := !s.recd.nvmAlarm
      let s := { s with recd := { s.recd with lost := true, lostCnt := satInc s.recd.lostCnt lost, nvmAlarm := true } }
      ok (if first then raiseAlarm s 0x0103 0xFF 0xFF [1] else s)
  else ok s

/-- RETENTION_MIRROR (R558): the retention areas are mirrored in NVM. -/
def execRetentionMirror (s : State) : Host.Outcome State Fault Refusal :=
  if running s then ok { s with nvm := { s.nvm with mirror := some s.ret } } else ok s

end Sys2Proof.Machine
end

