-- ==== Sys2Proof/Machine/Registers.lean ====
section
/-! DEFINITION. The Management Space: what each mapped register reads, what a write of it does, worlds, locks and captures
(R567-R584). -/

namespace Sys2Proof.Machine

open Sys2Proof

/-! ### Reading -/

/-- Index of an address in base, base + stride, … below n. -/
def idxOf? (base stride n addr : Nat) : Option (Fin n) :=
  if h : base ≤ addr ∧ (addr - base) % stride = 0 ∧ (addr - base) / stride < n then some ⟨(addr - base) / stride, h.2.2⟩ else none

def w32 (n : Nat) : Word := BitVec.ofNat 32 n
def lo32 (n : Nat) : Word := BitVec.ofNat 32 n
def hi32 (n : Nat) : Word := BitVec.ofNat 32 (n / 2 ^ 32)

/-- Bits [47:32] of a Beat or Landing number (R27). -/
def hi16 (n : Nat) : Word := BitVec.ofNat 32 (beatNo n / 2 ^ 32)
def b2n (b : Bool) : Nat := if b then 1 else 0

/-- A field that the management cores fill from fuses or NVM: it reads its Reset value 0 after a device reset, until phase 0 has ended
(R13, log entry 89). -/
def filled (s : State) (n : Nat) : Nat := if s.sec.phase = 0 then 0 else n

/-- ID_PART and ESC_ (R6, R25-R29). -/
def readEsc (s : State) (a : Nat) : Option Word :=
  let e := s.esc
  let beat := if dieBlocked s then 0 else e.beat
  if a = 0x0 then some (idPart s)
  else if a = 0x10100 then some e.cfg
  else if a = 0x10104 then some e.nb
  else if a = 0x10108 then some e.pMin
  else if a = 0x1010C then some e.pMax
  else if a = 0x10110 then some (lo32 beat)
  else if a = 0x10114 then some (hi16 beat)
  else if a = 0x10118 then some e.status
  else (idxOf? 0x10204 4 11 a).map fun k => (vGet? e.uaCnt (k.val + 1)).getD 0

/-- WNG_PHYS_p (R86). -/
def physWord (x : Phys) : Word :=
  w32 (x.role % 8 + (if x.role = 0 ∨ x.role = 1 ∨ x.role = 4 then x.logical.val <<< 4 else 0) + ((x.gen % 16) <<< 8) + (Nat.min 255 x.transient <<< 16))

/-- WNG_LATE (R84). -/
def lateWord (s : State) : Word :=
  w32 (((List.finRange 8).map fun k => b2n ((s.lw[k]).late != 0) * 2 ^ k.val + b2n (s.lw[k]).lost * 2 ^ (8 + k.val)).sum)

/-- Half of a seed. -/
def seedWord (s : State) (j : Nat) (hi : Bool) : Word := halfOf ((vGet? s.wng.seeds j).getD 0) hi

/-- WNG_ADPT_ (R289-R291). -/
def readAdpt (s : State) (a : Nat) : Option Word :=
  let x := s.wng.adpt
  if a = 0x20800 then some x.tgtLo
  else if a = 0x20804 then some x.tgtHi
  else if a = 0x20830 then some (w32 (b2n x.submit))
  else if a = 0x20834 then some (w32 (x.state + (x.bank <<< 3) + (if x.state = 3 then x.reason <<< 4 else 0)))
  else if a = 0x20838 then some (lo32 x.done)
  else if a = 0x2083C then some (hi16 x.done)
  else match idxOf? 0x20810 4 8 a, idxOf? 0x20840 4 8 a with
    | some j, _ => some x.dig[j]
    | none, some j => some x.cand[j]
    | none, none => none

/-- WNG_ (R81-R86, R251, R252, R277, R292, R293, R569). -/
def readWng (s : State) (a : Nat) : Option Word :=
  let w := s.wng
  if a = 0x20000 then some w.cfg
  else if a = 0x20004 then some w.map
  else if a = 0x20008 then some (lo32 w.mapBeat)
  else if a = 0x2000C then some (hi16 w.mapBeat)
  else if a = 0x20010 then some (lateWord s)
  else if a = 0x20014 then some w.status
  else if a = 0x20600 then some w.beStatus
  else if a = 0x20604 then some w.beSteps
  else if a = 0x20608 then some w.beDisc
  else if 0x20800 ≤ a ∧ a ≤ 0x2085F then readAdpt s a
  else match idxOf? 0x20100 4 8 a, idxOf? 0x20400 4 8 a, idxOf? 0x20420 4 8 a, idxOf? 0x20700 4 512 a, idxOf? 0x21000 4 512 a with
    | some p, _, _, _, _ => some (physWord s.phys[p])
    | _, some k, _, _, _ => some w.vtStatus[k]
    | _, _, some k, _, _ => some w.vtNanv[k]
    | _, _, _, some j, _ => some (seedWord s (j.val / 2) (j.val % 2 == 1))
    | _, _, _, _, some j => some (seedWord s (j.val / 2) (j.val % 2 == 1))
    | _, _, _, _, _ => none

/-- Word n of the block of a camera port (R321-R324). -/
def portWord (x : CamPort) (n : Nat) : Option Word :=
  match n with
  | 0 => some x.cfg
  | 1 => some (w32 (x.state % 8 + ((x.cause % 16) <<< 3) + ((x.step % 1024) <<< 8) + ((x.gen % 16) <<< 18) + (Nat.min 255 x.attempts <<< 22)))
  | 2 => some 0
  | 3 => some x.fmt | 4 => some x.crc | 5 => some x.corrupt | 6 => some x.loss | 7 => some x.ign
  | 8 => some (lo32 x.lines) | 9 => some (hi32 x.lines)
  | _ => none

/-- CAM_LANE_EYE (R325). -/
def laneWord (l : LaneSt) : Word :=
  w32 (l.peak % 32 + ((l.rx % 4) <<< 5) + (b2n l.tx <<< 7) + ((l.open' % 8192) <<< 8) + (Nat.min 255 l.changes <<< 21) + (b2n l.locked <<< 29))

/-- CAM_ (R321-R327). -/
def readCam (s : State) (a : Nat) : Option Word :=
  let c := s.cam
  if a = 0x31000 then some c.status
  else if a < 0x30400 then (idxOf? 0x30000 4 256 a).bind fun j => portWord ((vGet? c.port (j.val / 16)).getD {}) (j.val % 16)
  else match idxOf? 0x30800 16 32 a, idxOf? 0x30804 16 32 a, idxOf? 0x30C00 4 8 a with
    | some l, _, _ => some (laneWord c.lane[l])
    | _, some l, _ => some (c.lane[l]).err
    | _, _, some g => some c.skip[g]
    | _, _, _ => none

/-- Word n of the block of a camera's pipeline (R366-R368). -/
def ispCamWord (c : IspCam) (n : Nat) : Option Word :=
  match n with
  | 0 => some c.cfg
  | 1 => some (w32 (c.gainSt + (c.mainSt <<< 2) + ((c.applied % 2 ^ 28) <<< 4)))
  | 2 => some c.drop | 3 => some c.short | 4 => some c.long | 5 => some c.cut | 6 => some c.calUpd | 7 => some c.calSkip | 8 => some c.corrupt
  | _ => none

/-- ISP_ (R366-R371). ISP_TBL_DATA is WO. -/
def readIsp (s : State) (a : Nat) : Option Word :=
  let c := s.isp
  if a = 0x40800 then some (w32 c.tblAddr)
  else if a = 0x40804 ∨ a = 0x40808 then some 0
  else if a = 0x41000 then some c.status
  else if a = 0x41200 then some c.ldDrop
  else if a < 0x40400 then (idxOf? 0x40000 4 256 a).bind fun j => ispCamWord c.cam[(⟨j.val / 16, by omega⟩ : Fin 16)] (j.val % 16)
  else match idxOf? 0x41100 4 8 a, idxOf? 0x41120 4 8 a, idxOf? 0x41140 4 8 a with
    | some k, _, _ => some (w32 (Nat.min 0xFFFFFF c.oaFree[k]))
    | _, some k, _ => some (w32 (Nat.min 0xFFFFFF c.oaMin[k]))
    | _, _, some k => some (w32 c.oaTrack[k])
    | _, _, _ => none

/-- Word n of the block of an encoder channel (R401-R403). -/
def encWord (x : Enc) (n : Nat) : Option Word :=
  let c := x.cfg
  match n with
  | 0 => some (w32 (c.mode % 8 + (b2n c.reverse <<< 3) + ((c.index % 4) <<< 4) + ((c.filtN % 256) <<< 6) + (b2n c.gray <<< 14) + ((c.wordBits % 64) <<< 15) +
      ((c.interp % 16) <<< 21)))
  | 1 => some (w32 (c.clkDiv % 2048 + ((c.reqPeriod % 1024) <<< 11)))
  | 2 => some (w32 (c.a2Lo % 65536 + ((c.a2Hi % 65536) <<< 16)))
  | 4 => some x.count
  | 5 => some (w32 (b2n x.fwd + (b2n x.fault <<< 1) + ((x.cause % 8) <<< 2) + (b2n x.suspect <<< 5) + (b2n x.warn <<< 6)))
  | 6 => some x.idx | 7 => some x.speed | 8 => some x.err | 9 => some x.faults | 10 => some x.rev
  | _ => none

/-- ENC_ (R401-R404). -/
def readEnc (s : State) (a : Nat) : Option Word :=
  if a = 0x50400 then some s.encStatus
  else (idxOf? 0x50000 4 64 a).bind fun j => encWord s.enc[(⟨j.val / 16, by omega⟩ : Fin 4)] (j.val % 16)

/-- IIO_CH_CFG (R405). -/
def iioWord (c : IioCfg) : Word :=
  w32 (c.dir % 4 + (b2n c.invert <<< 2) + ((c.presc % 32) <<< 3) + ((c.filtN % 256) <<< 8) + (b2n c.record <<< 16) + ((c.outSrc % 4) <<< 17) +
    ((c.statusFn % 16) <<< 19))

/-- Word of levels of channels 32 × hi onward. -/
def levelWord (f : Chan → Bool) (hi : Bool) : Word :=
  w32 (((List.finRange 64).map fun n => if (n.val / 32 == 1) = hi ∧ f n then 2 ^ (n.val % 32) else 0).sum)

/-- IIO_ (R405-R408). -/
def readIio (s : State) (a : Nat) : Option Word :=
  let c := s.iio
  if a = 0x60400 ∨ a = 0x60404 then some (levelWord (fun n => c.level[n]) (a == 0x60404))
  else if a = 0x60408 ∨ a = 0x6040C then some (levelWord (outLevel s) (a == 0x6040C))
  else if a = 0x60410 ∨ a = 0x60414 then some (halfOf c.host (a == 0x60414))
  else if a = 0x60800 then some c.status
  else if a = 0x60804 then some c.lost
  else match idxOf? 0x60000 16 64 a, idxOf? 0x60004 16 64 a, idxOf? 0x60008 16 64 a with
    | some n, _, _ => some (iioWord c.cfg[n])
    | _, some n, _ => some c.edge[n]
    | _, _, some n => some c.ign[n]
    | _, _, _ => none

/-- EJC_ (R409-R411). -/
def readEjc (s : State) (a : Nat) : Option Word :=
  let c := s.ejc
  if a = 0x70000 then some c.cfg
  else if a = 0x70004 then some (w32 c.entries.length)
  else if a = 0x70008 then some (w32 c.peak)
  else if a = 0x70010 then some (lo32 c.fired)
  else if a = 0x70014 then some (hi32 c.fired)
  else if a = 0x70018 then some c.full
  else if a = 0x7001C then some c.limit
  else if a = 0x70020 then some c.outside
  else if a = 0x70100 then some c.status
  else none

/-- Word n of the block of an Ethernet port (R489-R491). -/
def ethWord (x : EthSt) (n : Nat) : Option Word :=
  match n with
  | 0 => some (w32 (x.cfg.iface % 4 + (b2n x.cfg.enabled <<< 2) + (b2n x.cfg.gptp <<< 3) + (b2n x.cfg.frer <<< 4)))
  | 1 => some (w32 (b2n x.link + ((x.rate % 4) <<< 1) + ((x.ptp % 4) <<< 3) + ((x.cause % 8) <<< 5)))
  | 2 => some x.rxBad | 3 => some x.txtsLost | 4 => some x.rxDup
  | _ => none

/-- NET_ (R489-R494). -/
def readNet (s : State) (a : Nat) : Option Word :=
  let n := s.net
  let t := timeT s
  if a = 0x80100 then some (lo32 t)
  else if a = 0x80104 then some (hi32 t)
  else if a = 0x80108 then some (lo32 s.c)
  else if a = 0x8010C then some (hi32 s.c)
  else if a = 0x80110 then some (w32 (s.reg.state % 4 + (b2n s.reg.far <<< 2) + ((s.reg.slave % 2) <<< 3)))
  else if a = 0x80114 then some (BitVec.ofInt 32 s.reg.a)
  else if a = 0x80118 then some (BitVec.ofInt 32 s.reg.theta)
  else if a = 0x80200 then some n.status
  else if a = 0x80210 then some n.verdLost
  else if a = 0x80214 then some n.traceLost
  else if a = 0x80218 then some n.tlmDecim
  else if a = 0x8021C then some n.peerDrop
  else if a = 0x80220 then some n.ldIncomplete
  else if a = 0x80300 then some (w32 n.gen)
  else (idxOf? 0x80000 4 32 a).bind fun j => ethWord n.port[(⟨j.val / 16, by omega⟩ : Fin 2)] (j.val % 16)

/-- MEM_ (R208-R213, R578, R579). -/
def readMem (s : State) (a : Nat) : Option Word :=
  let m := s.mem
  if a = 0x90000 then some m.dramCfg
  else if a = 0x90004 then some m.remap
  else if a = 0x90800 then some m.kvPool
  else if a = 0x90804 then some m.kvStatus
  else match idxOf? 0x90100 4 32 a, idxOf? 0x90810 4 8 a, idxOf? 0x90830 4 8 a, idxOf? 0x90850 4 8 a, idxOf? 0x90870 4 8 a with
    | some c, _, _, _, _ => some m.chCorr[c]
    | _, some k, _, _, _ => some (w32 m.kvReady[k])
    | _, _, some k, _, _ => some (w32 m.kvMin[k])
    | _, _, _, some k, _ => some m.kvRefused[k]
    | _, _, _, _, some k => some (w32 m.kvActive[k])
    | _, _, _, _, _ => none

/-- The addressed word of the integrity log (R453). -/
def intLogWord (s : State) : Word := match s.ret.intLog[bits s.int.logIdx 5 9]? with
  | some r => w32 (leAt (reportBytes r) (4 * bits s.int.logIdx 0 5) 4)
  | none => 0

/-- INT_ (R448-R453). -/
def readInt (s : State) (a : Nat) : Option Word :=
  let i := s.int
  if a = 0xA0000 then some i.status
  else if a = 0xA0010 then some i.transient
  else if a = 0xA0014 then some i.persist
  else if a = 0xA0018 then some i.unit
  else if a = 0xA001C then some i.memFault
  else if a = 0xA0020 then some i.eccCorr
  else if a = 0xA0024 then some i.eccUncorr
  else if a = 0xA0028 then some i.copyMm
  else if a = 0xA002C then some i.droopCnt
  else if a = 0xA0030 then some i.scrubLate
  else if a = 0xA0200 then some (lo32 i.suspFrom)
  else if a = 0xA0204 then some (hi16 i.suspFrom)
  else if a = 0xA0208 then some (lo32 i.suspTo)
  else if a = 0xA020C then some (hi16 i.suspTo)
  else if a = 0xA0210 then some i.suspWing
  else if a = 0xA0300 then some (w32 i.droopMin)
  else if a = 0xA0304 then some i.droopLast
  else if a = 0xA0400 then some (w32 i.logIdx)
  else if a = 0xA0404 then some (intLogWord s)
  else if a = 0xA0408 then some (w32 (s.ret.intLog.length + (s.ret.intLost <<< 16)))
  else if a = 0xA040C then some 0
  else (idxOf? 0xA0100 4 8 a).map fun k => w32 (s.lw[k]).late

/-- The addressed word of a log (R563). -/
def recWord (s : State) : Word := match addressedRecord s with
  | some r => w32 (leAt (eventBytes r) (4 * bits s.recd.idx 0 4) 4)
  | none => 0

/-- REC_ (R563). -/
def readRec (s : State) (a : Nat) : Option Word :=
  let r := s.recd
  if a = 0xB0000 then some (recCfgWord r)
  else if a = 0xB0004 then
    some (w32 (b2n (decide (8192 ≤ r.live.length)) + (filled s (b2n (decide (s.boot.nvmLog ≤ s.nvm.log.length))) <<< 1) + (b2n r.lost <<< 2) + (b2n r.badRecord <<< 3)))
  else if a = 0xB0008 then some (w32 r.live.length)
  else if a = 0xB000C then some r.lostCnt
  else if a = 0xB0010 then some r.supp
  else if a = 0xB0014 then some (w32 (filled s s.nvm.log.length))
  else if a = 0xB0020 then some (w32 (r.idx + (b2n r.bad <<< 22)))
  else if a = 0xB0024 then some (recWord s)
  else if a = 0xB0028 then some 0
  else if a = 0xB0030 then some (w32 (s.ret.lastCause + (s.ret.lastKind <<< 8)))
  else if a = 0xB0040 then some (if s.sec.phase = 7 then 3 else crownCfgWord r)
  else if a = 0xB0050 then
    some (w32 ((match s.ret.dump with | some d => 1 + (d.cause <<< 8) | none => 0) + (s.ret.dumpMissed <<< 16)))
  else none

/-- SEC_ (R532, R583). -/
def readSec (s : State) (a : Nat) : Option Word :=
  let x := s.sec
  if a = 0xC0000 then some (w32 (x.phase + (x.reason <<< 4) + (x.sect <<< 12) + ((x.index % 256) <<< 20) + (filled s s.nvm.active.val <<< 28)))
  else if a = 0xC0010 then some (w32 (s.fuse.svn + (x.imgSvn <<< 8)))
  else if a = 0xC0014 then some 0
  else if a = 0xC0020 then some (w32 (b2n x.mapLocked + (b2n x.viol <<< 1)))
  else if a = 0xC0024 then some x.violCnt
  else if a = 0xC0028 then some (w32 x.regLock)
  else if a = 0xC0030 then some (lo32 (devId s))
  else if a = 0xC0034 then some (hi32 (devId s))
  else if a = 0xC0200 then some (w32 x.xferId.toNat)
  else if a = 0xC0204 then some (w32 (x.stage + (x.stageReason <<< 3) + (b2n x.chgOk <<< 11)))
  else if a = 0xC0208 then some (w32 x.recv.length)
  else if a = 0xC0210 then some (w32 x.actMode)
  else if a = 0xC0214 then some x.actTgtLo
  else if a = 0xC0218 then some x.actTgtHi
  else if a = 0xC021C then some (w32 (x.actState + (x.actReason <<< 2)))
  else if a = 0xC0300 then some (w32 (x.mboxOp + (x.mboxStatus <<< 5)))
  else if a = 0xC0304 then some (w32 x.mboxIdx)
  else if a = 0xC0308 then some (w32 (fromLe (memReads x.mboxBuf (4 * x.mboxIdx) 4)))
  else if a = 0xC030C then some (w32 x.mboxLen)
  else (idxOf? 0xC0100 4 8 a).map fun k => w32 (keyWord s.fuse.keys[k])

/-- PWR_ (R564). -/
def readPwr (s : State) (a : Nat) : Option Word :=
  let p := s.pwr
  if a = 0xD0000 then some (w32 (p.state + (p.reason <<< 3)))
  else if a = 0xD0004 then some (w32 p.req)
  else if a = 0xD0008 then some p.tgtLo
  else if a = 0xD000C then some p.tgtHi
  else if a = 0xD0010 then some 0
  else if a = 0xD0020 then some (w32 (p.genDie + (p.genEth[0] <<< 4) + (p.genEth[1] <<< 8)))
  else if a = 0xD0024 then some (w32 (((List.finRange 8).map fun q => p.genPipe[q] % 16 * 16 ^ q.val).sum))
  else if a = 0xD0028 then some p.stale
  else if a = 0xD002C then some p.prog
  else none

/-- TST_BIST_STATUS (R456). -/
def bistWord (x : Phys) : Word := w32 (x.bistResult % 8 + (Nat.min 255 x.rowsUsed <<< 4) + (Nat.min 255 x.colsUsed <<< 12) + (Nat.min 15 x.fences <<< 20))

/-- TST_ (R454-R456). -/
def readTst (s : State) (a : Nat) : Option Word :=
  let t := s.tst
  if a = 0xE0000 then some (w32 (t.bistWing + (b2n t.bistStart <<< 3)))
  else if a = 0xE0010 then some 0
  else if a = 0xE0014 then some (w32 (t.fuseState + (t.fuseReason <<< 3) + (filled s (fuseFree s) <<< 8)))
  else if a = 0xE0020 then some t.rotCfg
  else (idxOf? 0xE0100 4 8 a).map fun p => bistWord s.phys[p]

/-- The word at an address; none where it is unmapped (R568). -/
def readReg (s : State) (a : Nat) : Option Word :=
  match a / 65536 with
  | 0 | 1 => readEsc s a
  | 2 => readWng s a
  | 3 => readCam s a
  | 4 => readIsp s a
  | 5 => readEnc s a
  | 6 => readIio s a
  | 7 => readEjc s a
  | 8 => readNet s a
  | 9 => readMem s a
  | 10 => readInt s a
  | 11 => readRec s a
  | 12 => readSec s a
  | 13 => readPwr s a
  | 14 => readTst s a
  | _ => none

/-! ### Writing (R12, R571-R574, R583) -/

/-- How a register answers a write: it has only RO fields, or writable ones of one access code. -/
inductive RegAcc where
  | ro | w1c (mask : Nat) | rw | rws | wo
  deriving DecidableEq, Repr

/-- W1C registers with their flags. -/
def w1cMask (a : Nat) : Option Nat :=
  if a = 0x10118 then some 0x1FF else if a = 0x20014 then some 0xF else if a = 0x20600 then some 3 else if a = 0x31000 then some 0x3F
  else if a = 0x41000 then some 0xFFF else if a = 0x50400 then some 0xFF else if a = 0x60800 then some 3 else if a = 0x70100 then some 0x1F
  else if a = 0x80200 then some 0x7F else if a = 0x90804 then some 0x1F else if a = 0xA0000 then some 0x1FFF else if a = 0xB0004 then some 0xC
  else if a = 0xC0020 then some 2
  else (idxOf? 0x20400 4 8 a).map fun _ => 0x1F

/-- Registers with RWS fields. -/
def rwsRegs : List Nat :=
  [0x20800, 0x20804, 0x20830, 0x40800, 0x40808, 0x60410, 0x60414, 0xA040C, 0xB0000, 0xB0028, 0xB0040, 0xC0014, 0xC0200, 0xC0210, 0xC0214, 0xC0218,
   0xD0004, 0xD0008, 0xD000C, 0xD0010, 0xE0000, 0xE0010]

/-- Registers with RW fields. -/
def rwRegs : List Nat := [0xA0400, 0xB0020, 0xC0300, 0xC0304, 0xC0308, 0xC030C]

def regAcc (a : Nat) : RegAcc :=
  match w1cMask a with
  | some m => .w1c m
  | none =>
    if rwsRegs.contains a || (idxOf? 0x20810 4 8 a).isSome || (idxOf? 0x30008 64 16 a).isSome then .rws
    else if rwRegs.contains a then .rw
    else if a = 0x40804 then .wo
    else .ro

/-- Blocks of the compute die, and the Beat number (R574). -/
def dieReg (a : Nat) : Bool := [2, 4, 9, 14].contains (a / 65536) || a == 0x10110 || a == 0x10114

/-- A value that is not used (R572). -/
def notUsed (a : Nat) (v : Word) : Bool :=
  (a == 0x40800 && decide (6 ≤ bits v.toNat 24 3)) || (a == 0xD0004 && decide (bits v.toNat 0 2 = 3))

/-- The register is locked (R583). -/
def regLocked (s : State) (a : Nat) : Bool := match lockBit a with
  | some b => s.sec.phase != 7 && s.sec.mapLocked && bit s.sec.regLock b
  | none => false

/-- Clears the flags of WNG_VT_STATUS_k (R251). -/
def clearVt (s : State) (a : Nat) (v : Word) : State := match idxOf? 0x20400 4 8 a with
  | some k => { s with wng := { s.wng with vtStatus := s.wng.vtStatus.set k (s.wng.vtStatus[k] &&& ~~~v) } }
  | none => s

/-- Clears the flags of a W1C register. -/
def clearFlags (s : State) (a : Nat) (v : Word) : State :=
  let c := fun (w : Word) => w &&& ~~~v
  if a = 0x10118 then { s with esc := { s.esc with status := c s.esc.status } }
  else if a = 0x20014 then { s with wng := { s.wng with status := c s.wng.status } }
  else if a = 0x20600 then { s with wng := { s.wng with beStatus := c s.wng.beStatus } }
  else if a = 0x31000 then { s with cam := { s.cam with status := c s.cam.status } }
  else if a = 0x41000 then { s with isp := { s.isp with status := c s.isp.status } }
  else if a = 0x50400 then { s with encStatus := c s.encStatus }
  else if a = 0x60800 then { s with iio := { s.iio with status := c s.iio.status } }
  else if a = 0x70100 then { s with ejc := { s.ejc with status := c s.ejc.status } }
  else if a = 0x80200 then { s with net := { s.net with status := c s.net.status } }
  else if a = 0x90804 then { s with mem := { s.mem with kvStatus := c s.mem.kvStatus } }
  else if a = 0xA0000 then { s with int := { s.int with status := c s.int.status } }
  else if a = 0xB0004 then { s with recd := { s.recd with lost := s.recd.lost && !bit v.toNat 2, badRecord := s.recd.badRecord && !bit v.toNat 3 } }
  else if a = 0xC0020 then updSec s fun x => { x with viol := x.viol && !bit v.toNat 1 }
  else clearVt s a v

/-- A write to SEC_ACT_CTRL (R529, R531, R532). -/
def writeAct (s : State) (v : Nat) : State :=
  let s := updSec s fun x => { x with actMode := bits v 0 2 }
  let s := if bit v 3 then actCancelCore s else s
  if !bit v 2 then s
  else match bits v 0 2 with
    | 1 => deviceReset s 0x09
    | 2 => deviceReset (switchSlot s) 0x09
    | 3 => changeoverCore s
    | _ => s

/-- A write to PWR_CTRL (R546-R549). -/
def writePwr (s : State) (v : Nat) : State :=
  let s := { s with pwr := { s.pwr with req := bits v 0 2 } }
  if !bit v 2 then s
  else match bits v 0 2 with
    | 0 => requestRun s
    | 1 => requestIdle s
    | 2 => requestStandby s
    | _ => s

/-- A write to TST_BIST_CTRL (R441, R454). -/
def writeBist (s : State) (v : Nat) : State :=
  if s.tst.bistStart ∧ bit v 3 then s
  else if bit v 3 then requestTest s ⟨v % 8, Nat.mod_lt _ (by decide)⟩
  else { s with tst := { s.tst with bistWing := v % 8 } }

/-- The voltages of R442 as the monitors read them (log entry 21). -/
def burnVolts (s : State) : Nat × Nat :=
  (if s.supply.low.any (fun x => x.1 == .vddIo18) then 0 else railMv s .vddIo18, if s.supply.low.any (fun x => x.1 == .vddA) then 0 else railMv s .vddA)

/-- A secure write to WNG_ADPT_ (R289, R290). -/
def writeAdpt (s : State) (a : Nat) (w : Word) : State :=
  if a = 0x20800 then updAdpt s fun x => { x with tgtLo := w }
  else if a = 0x20804 then updAdpt s fun x => { x with tgtHi := w32 (w.toNat % 65536) }
  else if a = 0x20830 then
    -- a submit has no effect while the bit reads 1 (R290)
    let t := if bit w.toNat 1 then cancelCore s else s
    if bit w.toNat 0 && !s.wng.adpt.submit then submitCore t else t
  else match idxOf? 0x20810 4 8 a with
    | some j => updAdpt s fun x => { x with dig := x.dig.set j w }
    | none => s

/-- A secure write to CAM_PORT_CTRL (R323). -/
def writePortCtrl (s : State) (a v : Nat) : State := match idxOf? 0x30008 64 16 a with
  | some p =>
    let s := if bit v 0 then relinkPort s p else s
    if bit v 1 then stopPort s p else s
  | none => s

/-- A secure write to ISP_TBL_ADDR or ISP_TBL_CTRL (R369). -/
def writeTblCtrl (s : State) (a v : Nat) : State :=
  if a = 0x40800 then { s with isp := { s.isp with tblAddr := v % 2 ^ 27 } }
  else
    let s := if bit v 0 then commitMainCore s else s
    if bit v 1 then commitGainCore s else s

/-- A secure write to REC_ (R563). -/
def writeRec (s : State) (a : Nat) (w : Word) : State :=
  if a = 0xB0000 then { s with recd := setRecCfg s.recd w }
  else if a = 0xB0028 then recClear s w.toNat
  else { s with recd := setCrownCfg s.recd w }

/-- A write to SEC_XFER (R532). -/
def writeXfer (s : State) (v : Nat) : State :=
  let s := if bit v 16 then armCore (BitVec.ofNat 16 v) s else updSec s fun x => { x with xferId := BitVec.ofNat 16 v }
  if bit v 17 then abortCore s else s

/-- A secure write to SEC_ (R532). -/
def writeSec (s : State) (a : Nat) (w : Word) : State :=
  if a = 0xC0014 then (if bit w.toNat 0 then commitCore s else s)
  else if a = 0xC0200 then writeXfer s w.toNat
  else if a = 0xC0210 then writeAct s w.toNat
  else if a = 0xC0214 then updSec s fun x => { x with actTgtLo := w }
  else updSec s fun x => { x with actTgtHi := w32 (w.toNat % 65536) }

/-- A write to PWR_RESET_CTRL (R565). -/
def writeReset (s : State) (v : Nat) : State := if bit v 0 then deviceReset s 0x07 else if bit v 1 then dieReset s 0x07 else s

/-- A secure write to PWR_ (R564, R565). -/
def writePwrReg (s : State) (a : Nat) (w : Word) : State :=
  if a = 0xD0004 then writePwr s w.toNat
  else if a = 0xD0008 then { s with pwr := { s.pwr with tgtLo := w } }
  else if a = 0xD000C then { s with pwr := { s.pwr with tgtHi := w32 (w.toNat % 65536) } }
  else writeReset s w.toNat

/-- A secure write to TST_ (R454, R455). -/
def writeTst (s : State) (a v : Nat) : State :=
  if a = 0xE0000 then writeBist s v
  else if bit v 0 then requestBurn s (burnVolts s).1 (burnVolts s).2 else s

/-- A secure write to a register with RWS fields. -/
def writeRws (s : State) (a : Nat) (w : Word) : State :=
  match a / 65536 with
  | 2 => writeAdpt s a w
  | 3 => writePortCtrl s a w.toNat
  | 4 => writeTblCtrl s a w.toNat
  | 6 => { s with iio := { s.iio with host := setHalf s.iio.host (a == 0x60414) w } }
  | 10 => if bit w.toNat 0 then intLogClear s else s
  | 11 => writeRec s a w
  | 12 => writeSec s a w
  | 13 => writePwrReg s a w
  | 14 => writeTst s a w.toNat
  | _ => s

/-- A write to a register with RW fields, from either world. -/
def writeRw (s : State) (x : Acc) (a : Nat) (w : Word) : State :=
  let v := w.toNat
  if a = 0xA0400 then { s with int := { s.int with logIdx := v % 2 ^ 14 } }
  else if a = 0xB0020 then { s with recd := { s.recd with idx := v % 2 ^ 22, bad := false } }
  else if a = 0xC0300 then
    if bit v 4 then mboxGo s x (v % 16) else updSec s fun y => { y with mboxOp := v % 16 }
  else if a = 0xC0304 then updSec s fun y => { y with mboxIdx := v % 2048 }
  else if a = 0xC0308 then mboxData s (some w)
  else if a = 0xC030C then updSec s fun y => { y with mboxLen := v % 2 ^ 14 }
  else s

/-- One write of a word: the state after it and the status of R478. -/
def writeReg (s : State) (x : Acc) (a : Nat) (v : Word) : State × Nat :=
  if (readReg s a).isNone then (s, 1)
  else if dieReg a && dieBlocked s then (s, 1)
  else if regLocked s a then (violation s, 2)
  else match regAcc a with
    | .ro => (s, 0)
    | .w1c _ => (clearFlags s a v, 0)
    | .wo => (tblWrite s v, 0)
    | .rw => (writeRw s x a v, 0)
    | .rws => if !x.secure then (violation s, 2) else if notUsed a v then (s, 3) else (writeRws s a v, 0)

/-! ### Captures (R577) -/

/-- LO words of the pairs. -/
def isLo (a : Nat) : Bool :=
  [0x10110, 0x20008, 0x20800, 0x20838, 0x70010, 0x80100, 0x80108, 0xA0200, 0xA0208, 0xC0030, 0xC0214, 0xD0008].contains a ||
  ((idxOf? 0x20700 8 256 a).isSome && !decide (0x20800 ≤ a ∧ a ≤ 0x2085F)) || (idxOf? 0x21000 8 256 a).isSome || (idxOf? 0x30020 64 16 a).isSome

/-- An access by an accessor ends its capture. -/
def dropCapture (s : State) (w : Who) : State := { s with cap := s.cap.filter fun c => c.who != w }

/-- One read of a word by an accessor: the value, none where unmapped, with the capture rule. -/
def readWord (s : State) (w : Who) (a : Nat) : Option Word × State :=
  let held := s.cap.find? fun c => c.who == w && c.lo + 4 == a
  let v := match held, readReg s a with
    | some c, some _ => some c.hi
    | _, v => v
  let s' := dropCapture s w
  let s' := if isLo a then { s' with cap := { who := w, lo := a, hi := (readReg s (a + 4)).getD 0 } :: s'.cap } else s'
  (v, if a = 0xC0308 then mboxData s' none else s')

/-! ### The commands -/

/-- LO_WORD_CAPTURE (R577): a read of the LO word of a pair. -/
def execLoWordCapture (a : Acc) (addr : Word) (s : State) : Host.Outcome State Fault Refusal :=
  ok (if running s && isLo addr.toNat then (readWord s a.who addr.toNat).2 else s)

/-- REGISTER_WRITE (R571). -/
def execRegisterWrite (a : Acc) (addr v : Word) (s : State) : Host.Outcome State Fault Refusal :=
  ok (if running s then (writeReg (dropCapture s a.who) a addr.toNat v).1 else s)

/-- IIO_HOST_WRITE (R388): the host levels of channels 0 to 31 or 32 to 63. -/
def execIioHostWrite (a : Acc) (hi : Bool) (v : Word) (s : State) : Host.Outcome State Fault Refusal :=
  ok (if running s then (writeReg (dropCapture s a.who) a (if hi then 0x60414 else 0x60410) v).1 else s)

end Sys2Proof.Machine
end

