-- ==== Sys2Proof/Machine/Mgmt.lean ====
section
/-! DEFINITION. Management requests of the hosts (R478, R479, R523, R570, R573, R575). -/

namespace Sys2Proof.Machine

open Sys2Proof

/-- The payload of a request (R478) with its tag field zero, over which the tag is formed. -/
def reqBytes (r : Req) (op n : Nat) (vs : List Word) : List Byte :=
  leBytes 4 r.reqId.toNat ++ leBytes 1 op ++ leBytes 1 n ++ leBytes 2 0 ++ leBytes 4 r.addr.toNat ++ leBytes 4 r.session.toNat ++
    List.replicate 16 0 ++ vs.flatMap fun v => leBytes 4 v.toNat

/-- The open session under which a request is a secure-world access (R523). -/
def secureSession (s : State) (r : Req) (body : List Byte) : Option Session :=
  s.sec.sessions.find? fun x =>
    x.id == r.session.toNat && sessionLive s x && decide (r.tag = (sha3 (x.key ++ body)).take 16) && decide (x.nextReq ≤ r.reqId.toNat)

/-- A secure request executes in its session, which closes at req_id 0xFFFF_FFFF (R522, R523). -/
def noteSession (s : State) (id reqId : Nat) : State :=
  let f := fun (l : List Session) =>
    if reqId = 0xFFFFFFFF then l.filter (fun y => y.id != id)
    else l.map (fun y => if y.id = id then { y with nextReq := reqId + 1, lastC := s.c } else y)
  updSec s fun x => { x with sessions := f x.sessions }

/-- A request whose tag is right is noted in its session (R523). -/
def noteSecure (s : State) (r : Req) (body : List Byte) : State := match secureSession s r body with
  | some y => noteSession s y.id r.reqId.toNat
  | none => s

/-- The payload of a MGMT_RSP. -/
def rspBytes (x : Response) : List Byte :=
  leBytes 4 x.reqId.toNat ++ leBytes 1 x.op ++ leBytes 1 x.n ++ leBytes 1 x.status ++ leBytes 1 0 ++ leBytes 4 x.addr.toNat ++
    x.data.flatMap fun v => leBytes 4 v.toNat

/-- A response goes to its host; the ts flag asks for its time stamp (R467). -/
def sendRsp (s : State) (r : Req) (x : Response) : State :=
  let q := s.net.seq[1]
  let s := sendDg s 0x11 (1 + r.host.val) (rspBytes x)
  if r.ts then addStamp s r.port { ident := q % 65536, kind := 0x11, time := timeT s, host := some r.host } else s

/-- A new response is kept with the last 16 of its host, and sent (R479). -/
def respond (s : State) (r : Req) (x : Response) : State :=
  let l := s.net.responses[r.host]
  sendRsp { s with net := { s.net with responses := s.net.responses.set r.host ((l ++ [x]).drop (l.length + 1 - 16)) } } r x

/-- Reads of n words from an address: the values, the first status that is not 0, and the state. -/
def readBlock (s : State) (w : Who) (a : Nat) : Nat → State × List Word × Nat
  | 0 => (s, [], 0)
  | n + 1 =>
    let (v, s) := readWord s w a
    let (s, vs, st) := readBlock s w (a + 4) n
    (s, v.getD 0 :: vs, if v.isNone then 1 else st)

/-- A write that resets the D8 or the compute die: it is answered before it takes effect (R565). -/
def resetWrite (s : State) (x : Acc) (a : Nat) (v : Word) : Bool :=
  x.secure && !regLocked s a &&
    ((a == 0xD0010 && (bit v.toNat 0 || bit v.toNat 1)) || (a == 0xC0210 && bit v.toNat 2 && (bits v.toNat 0 2 == 1 || bits v.toNat 0 2 == 2)) ||
     (a == 0xD0004 && bit v.toNat 2 && bits v.toNat 0 2 == 0 && s.pwr.state == 3))

/-- Writes of words from an address on (R575): the state, the first status that is not 0, and the writes that wait for the answer. -/
def writeBlock (x : Acc) : State → Nat → List Word → State × Nat × List (Nat × Word)
  | s, _, [] => (s, 0, [])
  | s, a, v :: vs =>
    if resetWrite s x a v then
      let (s, st, later) := writeBlock x (dropCapture s x.who) (a + 4) vs
      (s, st, (a, v) :: later)
    else
      let (s, st) := writeReg (dropCapture s x.who) x a v
      let (s, st', later) := writeBlock x s (a + 4) vs
      (s, if st = 0 then st' else st, later)

/-- A request with its op, number of words and values; body is its payload with the tag zeroed. -/
def mgmtCore (s : State) (r : Req) (op n : Nat) (vs : List Word) (wellFormed : Bool) (body : List Byte) : State :=
  if r.full then s
  else match (s.net.responses[r.host]).find? fun x => x.reqId == r.reqId with
  | some x => sendRsp s r x
  | none =>
    let rsp : Response := { reqId := r.reqId, op := op, n := n, status := 3, addr := r.addr, data := [] }
    if !wellFormed || r.addr.toNat % 4 != 0 || decide (0xFFFFFFFC < r.addr.toNat + 4 * (n - 1)) then respond s r rsp
    else
      let x : Acc := { who := .host r.host, session := (secureSession s r body).isSome }
      let s := noteSecure s r body
      if op % 2 = 0 then
        let (s, data, st) := readBlock s x.who r.addr.toNat n
        respond s r { rsp with status := st, data := data }
      else
        let (s, st, later) := writeBlock x s r.addr.toNat vs
        let s := respond s r { rsp with status := st }
        later.foldl (fun (s : State) (w : Nat × Word) => (writeReg s x w.1 w.2).1) s

/-- A request of a declared host arrives on a live port. -/
def mgmtIn (s : State) (r : Req) (op n : Nat) (vs : List Word) (wellFormed : Bool) : State :=
  if running s && portLive s r.port && decide (r.host.val < s.boot.hosts.length) then mgmtCore s r op n vs wellFormed (reqBytes r op n vs) else s

/-- MGMT_READ (R478). -/
def execMgmtRead (r : Req) (s : State) : Host.Outcome State Fault Refusal := ok (mgmtIn s r 0 1 [] true)

/-- MGMT_WRITE (R478). -/
def execMgmtWrite (r : Req) (v : Word) (s : State) : Host.Outcome State Fault Refusal := ok (mgmtIn s r 1 1 [v] true)

/-- MGMT_READ_BLOCK (R478): 1 to 64 words. -/
def execMgmtReadBlock (r : Req) (n : Nat) (s : State) : Host.Outcome State Fault Refusal :=
  ok (mgmtIn s r 2 n [] (decide (1 ≤ n ∧ n ≤ 64)))

/-- MGMT_WRITE_BLOCK (R575): 1 to 64 words in ascending order. -/
def execMgmtWriteBlock (r : Req) (vs : List Word) (s : State) : Host.Outcome State Fault Refusal :=
  ok (mgmtIn s r 3 vs.length vs (decide (1 ≤ vs.length ∧ vs.length ≤ 64)))

end Sys2Proof.Machine
end

