-- ==== Sys2Proof/Machine/Crown.lean ====
section
/-! DEFINITION. Crown, the service UART (R560-R562, R570, R572, R573). An answer is one line of text: the manual gives how it begins and
what it says, log entry 34 its digits. -/

namespace Sys2Proof.Machine

open Sys2Proof

/-! ### Answers -/

/-- A hexadecimal digit. -/
def hexDigit (n : Nat) : Byte := BitVec.ofNat 8 (if n % 16 < 10 then 48 + n % 16 else 87 + n % 16)

/-- n hexadecimal digits of a number, most significant first. -/
def hexN (n x : Nat) : List Byte := (List.range n).map fun j => hexDigit (x >>> (4 * (n - 1 - j)))

def hexBytes (bs : List Byte) : List Byte := bs.flatMap fun b => hexN 2 b.toNat

/-- An answer line is written. -/
def crownSay (s : State) (line : List Byte) : State := { s with recd := { s.recd with crownOut := s.recd.crownOut ++ [line] } }

def crownOk (s : State) (words : List (List Byte) := []) : State := crownSay s (ascii "ok" ++ words.flatMap fun w => ascii " " ++ w)

/-- "err c". -/
def crownErr (s : State) (c : Nat) : State := crownSay s (ascii "err " ++ hexN 1 c)

/-- Crown answers: PORST_N is high and the device is out of reset. In boot halt the boot ROM answers. -/
def crownLive (s : State) : Bool := !s.pwr.held

/-- A command that needs the management cores: err 3 in boot halt (R562). -/
def crownRun (s : State) (f : State → State) : Host.Outcome State Fault Refusal :=
  ok (if !crownLive s then s else if s.sec.bootHalt then crownErr s 3 else f s)

/-! ### Records -/

/-- The 64-byte header of a dump (R559). -/
def dumpHeader (d : Dump) : List Byte :=
  let body := padTo 60 (leBytes 1 d.cause ++ leBytes 8 d.time ++ leBytes 6 d.beat ++ (d.gens.flatMap fun g => leBytes 4 g) ++ leBytes 4 d.fw)
  body ++ leBytes 4 (crc32c body).toNat

/-- The dump with what it captured. -/
def dumpBytes (d : Dump) : List Byte :=
  dumpHeader d ++ leBytes 4 d.escPhase ++ leBytes 8 (d.landing.getD 0) ++ (d.progress.flatMap fun q => q.flatMap fun n => leBytes 4 n) ++
    d.trace.flatMap fun t => leBytes 1 t.1 ++ t.2

/-- Event 0x0204 (R553). -/
def crownEvent (s : State) (addr value answer : Nat) : State :=
  logEvent s { code := 0x0204, arg := leBytes 4 addr ++ leBytes 4 value ++ leBytes 1 answer }

/-! ### The commands (R561) -/

/-- CROWN_ID: ID_PART, dev_id, firmware version and phase, also in boot halt. -/
def execCrownId (s : State) : Host.Outcome State Fault Refusal :=
  ok (if crownLive s then crownOk s [hexN 8 (idPart s).toNat, hexN 16 (devId s), hexN 8 (firmware s).version, hexN 1 s.sec.phase] else s)

/-- CROWN_RD: n words from an address; a misaligned address or a block beyond the space is err 2, an unmapped word err 4. -/
def execCrownRd (addr : Word) (n : Nat) (s : State) : Host.Outcome State Fault Refusal :=
  crownRun s fun s =>
    if n = 0 ∨ 64 < n ∨ addr.toNat % 4 ≠ 0 ∨ 0xFFFFFFFC < addr.toNat + 4 * (n - 1) then crownErr s 2
    else
      let x := readBlock s .crown addr.toNat n
      if x.2.2 = 0 then crownOk x.1 (x.2.1.map fun w => hexN 8 w.toNat) else crownErr x.1 4

/-- CROWN_WR: a non-secure write of one word while crown_write, which hold forces to 1, allows it; every outcome but err 2 writes
event 0x0204. -/
def execCrownWr (addr v : Word) (s : State) : Host.Outcome State Fault Refusal :=
  crownRun s fun s =>
    if addr.toNat % 4 ≠ 0 then crownErr s 2
    else if !s.recd.crownWrite && s.sec.phase != 7 then crownErr (crownEvent s addr.toNat v.toNat 3) 3
    else
      let x := writeReg (dropCapture s .crown) { who := .crown } addr.toNat v
      match x.2 with
      | 0 => crownOk (crownEvent x.1 addr.toNat v.toNat 0)
      | 1 => crownErr (crownEvent x.1 addr.toNat v.toNat 4) 4
      | 2 => crownErr (crownEvent x.1 addr.toNat v.toNat 3) 3
      | _ => crownErr x.1 2

/-- CROWN_LOG: the last n records of the live log, oldest first. -/
def execCrownLog (n : Nat) (s : State) : Host.Outcome State Fault Refusal :=
  crownRun s fun s =>
    if n = 0 ∨ 8192 < n then crownErr s 2
    else crownOk s ((s.recd.live.drop (s.recd.live.length - n)).map fun r => hexBytes (eventBytes r))

/-- CROWN_ILOG: integrity report i. -/
def execCrownIlog (i : Nat) (s : State) : Host.Outcome State Fault Refusal :=
  crownRun s fun s => match s.ret.intLog[i]? with
    | some r => crownOk s [hexBytes (reportBytes r)]
    | none => crownErr s 2

/-- CROWN_DUMP: the header of the dump, or the whole dump. -/
def execCrownDump (raw : Bool) (s : State) : Host.Outcome State Fault Refusal :=
  crownRun s fun s => match s.ret.dump with
    | some d => crownOk s [hexBytes (if raw then dumpBytes d else dumpHeader d)]
    | none => crownOk s [ascii "none"]

/-- crown_reset allows, as boot halt and hold force it (R562). -/
def crownMayReset (s : State) : Bool := s.recd.crownReset || s.sec.phase == 7 || s.sec.bootHalt

/-- CROWN_RESET_DEV: a device reset with cause 0x08; in boot halt it writes no event. -/
def execCrownResetDev (s : State) : Host.Outcome State Fault Refusal :=
  if !crownLive s then ok s
  else if s.sec.bootHalt then ok (deviceReset (crownOk s) 0x08)
  else if !crownMayReset s then ok (crownErr (crownEvent s 0xFFFFFFFF 0 3) 3)
  else ok (deviceReset (crownOk (crownEvent s 0xFFFFFFFF 0 0)) 0x08)

/-- CROWN_RESET_DIE: a compute-die reset with cause 0x08. -/
def execCrownResetDie (s : State) : Host.Outcome State Fault Refusal :=
  crownRun s fun s =>
    if !crownMayReset s then crownErr (crownEvent s 0xFFFFFFFF 1 3) 3
    else dieReset (crownOk (crownEvent s 0xFFFFFFFF 1 0)) 0x08

/-- CROWN_KEY: KEY_WRITE while no owner slot is written (R513). -/
def execCrownKey (slot : Nat) (alg : Bool) (usage : Nat) (hash : Digest) (s : State) : Host.Outcome State Fault Refusal :=
  crownRun s fun s =>
    if ownerWritten s then crownErr s 3
    else
      let x := writeKey s slot alg usage hash
      if x.2 then crownOk x.1 else crownErr s 3

/-- CROWN_BAUD: the answer goes at the old rate, then the new one applies. -/
def execCrownBaud (n : Nat) (s : State) : Host.Outcome State Fault Refusal :=
  crownRun s fun s =>
    if [115200, 230400, 460800, 921600, 1500000, 3000000].contains n then
      let s := crownOk s
      { s with recd := { s.recd with baud := n } }
    else crownErr s 2

/-- CROWN_LINE_ERROR (R560): an unknown command is err 1, a malformed or over-long line err 2; in boot halt every other command than
id and reset dev is err 3. -/
def execCrownLineError (e : LineError) (s : State) : Host.Outcome State Fault Refusal :=
  crownRun s fun s => crownErr s (match e with | .unknown => 1 | .malformed => 2)

end Sys2Proof.Machine
end

