-- ==== Sys2Proof/Machine/Encoders.lean ====
section
/-! DEFINITION. The encoder channels: quadrature steps, index, position words, sin/cos samples and faults (R374-R384, R401-R404). -/

namespace Sys2Proof.Machine

open Sys2Proof

/-! ### Counting (R374) -/

def updEnc (s : State) (ch : EncCh) (f : Enc → Enc) : State := { s with enc := s.enc.set ch (f s.enc[ch]) }

/-- The C at which the count of a channel first reaches the target of a lock group (R311). -/
def latchTriggers (s : State) (ch : EncCh) : State :=
  let at' := fun (g : Fin 8) => match (planOf s).groups.getD g .none with
    | .encoder e _ =>
      if e = ch ∧ !(s.enc[ch]).fault ∧ (s.cam.trigReached[g]).isNone ∧ 0 ≤ diff32 (s.enc[ch]).count s.cam.trigTarget[g] then some s.c
      else s.cam.trigReached[g]
    | _ => s.cam.trigReached[g]
  { s with cam := { s.cam with trigReached := Vector.ofFn at' } }

/-- An update that may move the count: the Escapement and the lock groups see whether it reaches their targets (R20, R311). -/
def countEnc (s : State) (ch : EncCh) (f : Enc → Enc) : State := latchTriggers (latchTarget (updEnc s ch f)) ch

/-- The channels count: their configuration is applied and the D8 is not in hold (R376, R399). -/
def encCounting (s : State) : Bool := running s && s.sec.phase != 7

/-- A position step through the direction rule. Forward is increasing position, or decreasing when reverse is set. -/
def encStep (x : Enc) (delta : Int) : Enc :=
  let d := if x.cfg.reverse then -delta else delta
  if d = 0 then x
  else if decide (0 < d) = x.fwd then { x with count := x.count + BitVec.ofInt 32 d }
  else { x with count := x.count + BitVec.ofInt 32 (d - Int.sign d), fwd := decide (0 < d), rev := incW x.rev }

/-! ### Faults (R383) -/

/-- A channel enters fault: the cause and the flag are recorded, and the alarm's event record is the logged event. -/
def enterFault (s : State) (ch : EncCh) (cause : Nat) : State :=
  let s := updEnc s ch fun x =>
    { x with fault := true, cause := cause, faults := incW x.faults, before := x.last, last := none, good := 0, rejects := 0, resume := false }
  raiseAlarm { s with encStatus := orW s.encStatus (2 ^ ch.val) } 0x000B ch 0xFF [BitVec.ofNat 8 cause]

/-- A word or sample is rejected; enough in a row are a fault, with the cause of the last. -/
def rejectWord (s : State) (ch : EncCh) (cause limit : Nat) : State :=
  let s := updEnc s ch fun x => { x with err := incW x.err, rejects := x.rejects + 1, good := 0 }
  if !(s.enc[ch]).fault && decide (limit ≤ (s.enc[ch]).rejects) then enterFault s ch cause else s

/-- A position is accepted during a fault: it moves no count, and the thousandth in a row clears the fault. -/
def acceptInFault (x : Enc) (pos : Int) : Enc :=
  if 1000 ≤ x.good + 1 then { x with last := some pos, rejects := 0, good := 0, fault := false, resume := true }
  else { x with last := some pos, rejects := 0, good := x.good + 1 }

/-! ### Incremental (R377, R378, R383, R384) -/

/-- Place of the filtered states in the order of increasing position. -/
def quadPhase (a b : Bool) : Nat := match a, b with
  | false, false => 0
  | true, false => 1
  | true, true => 2
  | false, true => 3

/-- An illegal transition: it counts, and the sixteenth within 1 ms is a fault. -/
def illegalStep (s : State) (ch : EncCh) : State :=
  let s := updEnc s ch fun x => { x with err := incW x.err, illegal := s.c :: x.illegal.filter fun t => decide (s.c < t + 1000000) }
  if !(s.enc[ch]).fault && decide (16 ≤ (s.enc[ch]).illegal.length) then enterFault s ch 1 else s

/-- ENCODER_STEP (R377): the filtered A and B levels change. -/
def execEncoderStep (ch : EncCh) (fa fb : Bool) (dt : Nat) (s : State) : Host.Outcome State Fault Refusal :=
  let s := advance s dt
  let x := s.enc[ch]
  if x.cfg.mode = 1 then
    let s := updEnc s ch fun x => { x with a := fa, b := fb }
    if !encCounting s ∨ (x.a = fa ∧ x.b = fb) then ok s
    else if x.a ≠ fa ∧ x.b ≠ fb then ok (illegalStep s ch)
    else if x.fault then ok s
    else ok (countEnc s ch fun y => encStep y (if (quadPhase fa fb + 4 - quadPhase x.a x.b) % 4 = 1 then 1 else -1))
  else ok s

/-- ENCODER_FAULT_CLEAR (R384): 1 ms without an illegal transition; suspect is set. -/
def execEncoderFaultClear (ch : EncCh) (s : State) : Host.Outcome State Fault Refusal :=
  let x := s.enc[ch]
  if encCounting s && x.cfg.mode == 1 && x.fault then
    ok (updEnc (reach s (x.illegal.headD 0 + 1000000)) ch fun x => { x with fault := false, suspect := true, illegal := [] })
  else ok s

/-- An index difference is off by more than one count from ±n_idx (R378). -/
def indexOff (x : Enc) : Bool := decide (1 < (((diff32 x.count x.idx).natAbs : Int) - x.cfg.nIdx).natAbs)

/-- INDEX_EDGE (R378): a filtered rising edge of Z. -/
def execIndexEdge (ch : EncCh) (s : State) : Host.Outcome State Fault Refusal :=
  let x := s.enc[ch]
  if encCounting s && (x.cfg.mode == 1 || x.cfg.mode == 4) && decide (1 ≤ x.cfg.index) then
    let check := x.cfg.index == 2 && x.idxSeen
    let s := updEnc s ch fun x => { x with idx := x.count, idxSeen := true }
    if !check then ok s
    else if indexOff x then
      ok (flagEvent { s with encStatus := orW s.encStatus (2 ^ (4 + ch.val)) } 0x50400 (2 ^ (4 + ch.val)) [] ch)
    else ok (updEnc s ch fun x => { x with suspect := false })
  else ok s

/-! ### Absolute (R379, R380, R384) -/

/-- Binary value of a Gray code of at most 40 bits. -/
def grayToBin (g : Nat) : Nat := (List.range 40).foldl (fun acc j => acc ^^^ (g >>> j)) 0

/-- The greatest step of a word: 2 × ⌈v_max × req_period⌉ + 2. -/
def stepLimit (s : State) (x : Enc) : Nat := 2 * ceilDiv ((planOf s).vMax * x.cfg.reqPeriod) 1000000 + 2

/-- The difference of two words modulo 2^word_bits, as signed. -/
def wordDiff (x : Enc) (a b : Int) : Int := sext x.cfg.wordBits (twos x.cfg.wordBits (a - b))

def absolute (x : Enc) : Bool := x.cfg.mode == 2 || x.cfg.mode == 3

/-- Cause for which a word is rejected, if any. -/
def wordCause (s : State) (x : Enc) (w : PosWord) (v : Int) : Option Nat :=
  if x.cfg.mode = 3 ∧ w.crcOk = false then some 2
  else if x.cfg.mode = 3 ∧ w.nE = false then some 3
  else match x.last with
    | some l => if !x.resume && decide (stepLimit s x < (wordDiff x v l).natAbs) then some 5 else none
    | none => none

/-- An accepted word outside a fault: the first one gives the count, and the first after a fault counts from the last before it. -/
def acceptWord (x : Enc) (v : Int) : Enc :=
  let base := if x.resume then x.before else x.last
  let x := match base with
    | some l => encStep x (wordDiff x v l)
    | none => { x with count := BitVec.ofInt 32 v }
  { x with last := some v, rejects := 0, resume := false }

/-- POSITION_REQUEST (R379, R380): req_period has passed. ENCc_DAT low at the start rejects the word. -/
def execPositionRequest (ch : EncCh) (datLow : Bool) (s : State) : Host.Outcome State Fault Refusal :=
  let x := s.enc[ch]
  if encCounting s && absolute x then
    let s := reach s (x.lastReq + x.cfg.reqPeriod * 1000)
    let s := updEnc s ch fun y => { y with lastReq := s.c, request := if datLow then none else some s.c }
    ok (if datLow then rejectWord s ch 4 3 else s)
  else ok s

/-- POSITION_WORD (R380): a requested word is complete. -/
def execPositionWord (ch : EncCh) (w : PosWord) (s : State) : Host.Outcome State Fault Refusal :=
  let x := s.enc[ch]
  if encCounting s && absolute x && x.request.isSome then
    let s := updEnc (advance s w.dt) ch fun y => { y with request := none }
    let raw := w.value % 2 ^ x.cfg.wordBits
    let v : Int := if x.cfg.mode = 2 ∧ x.cfg.gray then (grayToBin raw : Nat) else (raw : Nat)
    match wordCause s x w v with
    | some c => ok (rejectWord s ch c 3)
    | none =>
      let s := if x.cfg.mode = 3 then updEnc s ch fun y => { y with warn := !w.nW } else s
      ok (countEnc s ch fun y => if y.fault then acceptInFault y v else acceptWord y v)
  else ok s

/-- START_BIT_TIMEOUT (R380): no start bit within 20 µs of the first clock. -/
def execStartBitTimeout (ch : EncCh) (s : State) : Host.Outcome State Fault Refusal :=
  let x := s.enc[ch]
  match x.request with
  | some t =>
    if encCounting s && x.cfg.mode == 3 then
      ok (rejectWord (updEnc (reach s (t + 20000)) ch fun y => { y with request := none }) ch 4 3)
    else ok s
  | none => ok s

/-! ### Sin/cos (R381, R382) -/

/-- A Gaussian integer c + i s. -/
abbrev Gauss := Int × Int

def gaussSquare (z : Gauss) : Gauss := (z.1 * z.1 - z.2 * z.2, 2 * z.1 * z.2)

/-- Quadrant of the angle of c + i s. -/
def gaussQuad (z : Gauss) : Nat :=
  if 0 < z.1 ∧ 0 ≤ z.2 then 0 else if z.1 ≤ 0 ∧ 0 < z.2 then 1 else if z.1 < 0 ∧ z.2 ≤ 0 then 2 else if 0 ≤ z.1 ∧ z.2 < 0 then 3 else 0

/-- The first k bits of the angle as a fraction of a turn: two from the quadrant, then one from the quadrant of each square. -/
def sectorBits : Nat → Gauss → Nat → Nat
  | 0, _, acc => acc
  | k + 1, z, acc => let z' := gaussSquare z; sectorBits k z' (2 * acc + gaussQuad z' % 2)

/-- The sector 0 to I − 1, decided exactly. -/
def sectorOf (interp : Nat) (z : Gauss) : Nat := sectorBits (interp - 2) z (gaussQuad z)

/-- The corrected values times 32,768, as c′ + i s′. -/
def corrected (x : Enc) (sn cs : Int) : Gauss := ((cs - x.cfg.cOff) * x.cfg.cGain, (sn - x.cfg.sOff) * x.cfg.sGain)

/-- a² lies within its limits: both sides times 2^58. -/
def amplitudeOk (x : Enc) (z : Gauss) : Bool :=
  let m := z.1 * z.1 + z.2 * z.2
  decide ((x.cfg.a2Lo : Int) * 2 ^ 44 ≤ m ∧ m ≤ (x.cfg.a2Hi : Int) * 2 ^ 44)

/-- The period count moves when the quadrant passes between 3 and 0. -/
def periodMove (before now : Nat) : Int := if before = 3 ∧ now = 0 then 1 else if before = 0 ∧ now = 3 then -1 else 0

/-- An accepted sample outside a fault. -/
def acceptSample (x : Enc) (pos : Int) : Enc :=
  let base := if x.resume then x.before else x.last
  let x := match base with
    | some l => encStep x (pos - l)
    | none => x
  { x with last := some pos, rejects := 0, resume := false }

/-- SINCOS_SAMPLE (R381, R382): one pair of samples. -/
def execSincosSample (ch : EncCh) (sn cs : Int) (dt : Nat) (s : State) : Host.Outcome State Fault Refusal :=
  let s := advance s dt
  let x := s.enc[ch]
  if encCounting s && x.cfg.mode == 4 then
    let z := corrected x sn cs
    let q := gaussQuad z
    if !amplitudeOk x z then ok (rejectWord s ch 6 8)
    else if x.last.isSome && decide ((q + 4 - x.quad) % 4 = 2) then ok (rejectWord s ch 7 8)
    else
      let per := if x.last.isSome then x.periods + periodMove x.quad q else x.periods
      let pos := per * (2 ^ x.cfg.interp : Nat) + (sectorOf x.cfg.interp z : Nat)
      let s := updEnc s ch fun y => { y with quad := q, periods := per }
      ok (countEnc s ch fun y => if y.fault then acceptInFault y pos else acceptSample y pos)
  else ok s

end Sys2Proof.Machine
end

