-- ==== Sys2Proof/Machine/LineText.lean ====
section
/-! DEFINITION. Line-data text: fragments, the tokenizer, and messages that enter a capture interval (R281, R363-R365, R480, R488). -/

namespace Sys2Proof.Machine

open Sys2Proof

/-! ### The tokenizer (R363, R364) -/

/-- The vocabulary with its IDs: the 256 bytes, then the entries of the TOK section. -/
def vocab (tok : List (List Byte)) : List (Nat × List Byte) := tok.zipIdx.map fun x => (256 + x.2, x.1)

/-- The longest entry that matches at the front: its ID and length. The first byte is always one. -/
def longestMatch (voc : List (Nat × List Byte)) (b : Byte) (m : List Byte) : Nat × Nat :=
  voc.foldl (fun best x => if best.2 < x.2.length ∧ x.2 = m.take x.2.length then (x.1, x.2.length) else best) (b.toNat, 1)

/-- The IDs of a message; n bounds its length. -/
def tokenize (voc : List (Nat × List Byte)) : Nat → List Byte → List Nat
  | 0, _ => []
  | _ + 1, [] => []
  | n + 1, b :: bs =>
    let x := longestMatch voc b (b :: bs)
    x.1 :: tokenize voc n ((b :: bs).drop x.2)

/-! ### Messages of an interval -/

/-- A message enters the auxiliary chain: le32 length and bytes (R281). -/
def chainMsg (s : State) (bytes : List Byte) : State :=
  { s with sealer := { s.sealer with msgs := s.sealer.msgs ++ [leBytes 4 bytes.length ++ bytes] } }

/-- A complete line-data message: digested, and tokenized if it is one of the first 16 of its interval (R364, R365). -/
def takeLine (s : State) (channel : Nat) (bytes : List Byte) : State :=
  let s := chainMsg s bytes
  let ivl := s.esc.beat
  let trunc := fun (s : State) => { s with isp := { s.isp with status := orW s.isp.status 0x800 } }
  if 16 ≤ (s.isp.ldArea.filter fun x => x.1 == ivl).length then trunc { s with isp := { s.isp with ldDrop := incW s.isp.ldDrop } }
  else
    let ids := tokenize (vocab (match s.img with | some i => i.tok | none => [])) bytes.length bytes
    let s := { s with isp := { s.isp with ldArea := s.isp.ldArea ++ [(ivl, channel, ids.take 1024)] } }
    if 1024 < ids.length then trunc s else s

/-! ### Fragments (R480) -/

/-- The fields of a fragment: channel, msg_id, frag, n_frag, total and bytes. -/
structure Fragment where
  channel : Nat
  msgId   : Nat
  frag    : Nat
  nFrag   : Nat
  total   : Nat
  bytes   : List Byte

def parseFragment (p : List Byte) : Fragment :=
  { channel := leAt p 0 2, msgId := leAt p 2 2, frag := leAt p 4 1, nFrag := leAt p 5 1, total := leAt p 6 2, bytes := p.drop 8 }

/-- The rules of a fragment by itself. -/
def fragmentOk (f : Fragment) : Bool :=
  decide (f.channel ≤ 255 ∧ 1 ≤ f.total ∧ f.total ≤ 4096 ∧ f.nFrag = ceilDiv f.total 1356 ∧ f.frag < f.nFrag ∧
    f.bytes.length = if f.frag + 1 < f.nFrag then 1356 else f.total - 1356 * (f.nFrag - 1))

/-- A message in reassembly is given up: its fragments are counted. -/
def dropLd (s : State) (h msgId : Nat) : State :=
  match s.net.lds.find? fun m => m.host == h && m.msgId == msgId with
  | none => s
  | some m =>
    { s with net := { s.net with
        lds := s.net.lds.filter fun m => !(m.host == h && m.msgId == msgId)
        ldIncomplete := satInc s.net.ldIncomplete m.frags.length, status := orW s.net.status 0x40 } }

/-- A fragment joins its message; the last missing one completes it. -/
def joinFragment (s : State) (h : Nat) (e : EthPort) (f : Fragment) : State :=
  let old := s.net.lds.find? fun m => m.host == h && m.msgId == f.msgId
  let m : LdMsg := old.getD { host := h, msgId := f.msgId, channel := f.channel, nFrag := f.nFrag, total := f.total, frags := [], since := s.c }
  if m.nFrag ≠ f.nFrag ∨ m.total ≠ f.total then rxBad s e
  else
    let frags := if m.frags.any fun x => x.1 == f.frag then m.frags else m.frags ++ [(f.frag, f.bytes)]
    let rest := s.net.lds.filter fun m => !(m.host == h && m.msgId == f.msgId)
    if frags.length < m.nFrag then { s with net := { s.net with lds := rest ++ [{ m with frags := frags }] } }
    else
      let all := (List.range m.nFrag).flatMap fun j => match frags.find? fun x => x.1 == j with
        | some x => x.2
        | none => []
      takeLine { s with net := { s.net with lds := rest } } m.channel all

/-- A LINE_DATA payload from a host. Before Beat 0 and in hold it belongs to no interval and is discarded. -/
def lineCore (s : State) (h : Fin 8) (e : EthPort) (payload : List Byte) : State :=
  let f := parseFragment payload
  if s.sec.phase = 7 then rxBad s e
  else if !intervalOpen s then s
  else if payload.length < 8 || !fragmentOk f then rxBad s e
  else
    let late := s.net.lds.any fun m => m.host == h.val && m.msgId == f.msgId && decide (m.since + 10000000 < s.c)
    joinFragment (if late then dropLd s h f.msgId else s) h e f

/-- LINE_DATA (R480). -/
def execLineData (h : Fin 8) (e : EthPort) (payload : List Byte) (dt : Nat) (s : State) : Host.Outcome State Fault Refusal :=
  if running s && portLive s e && decide (h.val < s.boot.hosts.length) then ok (lineCore (advance s dt) h e payload) else ok s

/-- LINE_DATA_TIMEOUT (R480): 10 ms after its first fragment a message is not complete. -/
def execLineDataTimeout (h : Fin 8) (msgId : Nat) (s : State) : Host.Outcome State Fault Refusal :=
  match s.net.lds.find? fun m => m.host == h.val && m.msgId == msgId with
  | some m => if running s then ok (dropLd (reach s (m.since + 10000000)) h msgId) else ok s
  | none => ok s

end Sys2Proof.Machine
end

