-- ==== Sys2Proof/Machine/Olp.lean ====
section
/-! DEFINITION. What the D8 sends of its own accord: verdicts, events, telemetry, trace, exports, retracts and marks (R472, R473, R476,
R477, R481, R484-R486, R547). -/

namespace Sys2Proof.Machine

open Sys2Proof

/-! ### Verdicts (R472, R473, R283) -/

/-- The 64 bytes of a verdict record with its seal. -/
def vrecBytes (r : VRec) : List Byte :=
  leBytes 4 r.id ++ leBytes 2 r.verdict ++ leBytes 2 r.score ++ leBytes 4 r.lead ++ leBytes 4 r.trail ++ leBytes 2 r.left ++ leBytes 2 r.right ++
    leBytes 1 r.stream ++ leBytes 1 r.oflags ++ leBytes 2 0 ++
    padTo 8 r.prog ++ padTo 8 r.wgt ++ leBytes 6 r.beat ++ leBytes 1 r.lwing ++ leBytes 1 r.sflags ++ padTo 16 r.input

/-- The records of the next datagram: up to 21 of one Landing. -/
def verdictGroup (l : List (Nat × Nat × Nat × VRec)) : List (Nat × Nat × Nat × VRec) := match l with
  | [] => []
  | x :: _ => (l.takeWhile fun y => y.1 == x.1).take 21

/-- VERDICT_SEND (R473): one datagram of records in posting order; the last of its Landing sets last. -/
def execVerdictSend (s : State) : Host.Outcome State Fault Refusal :=
  let g := verdictGroup s.net.backlog
  match g with
  | [] => ok s
  | x :: _ =>
    if anyLink s && mayTalk s then
      let rest := s.net.backlog.drop g.length
      let fin := match rest.head? with | some y => y.1 != x.1 | none => true
      ok (sendDg { s with net := { s.net with backlog := rest } } 0x01 32
        (leBytes 6 x.1 ++ leBytes 2 x.2.1 ++ leBytes 2 x.2.2.1 ++ leBytes 1 g.length ++ List.replicate 5 0 ++ g.flatMap fun y => vrecBytes y.2.2.2)
        (if fin then 4 else 0))
    else ok s

/-! ### Events, telemetry and trace (R476, R477, R481) -/

/-- EVENT_SEND (R481): up to 21 records of the live log for which the queue has room. -/
def execEventSend (n : Nat) (s : State) : Host.Outcome State Fault Refusal :=
  let rs := (s.recd.live.drop s.net.evSent).take (Nat.min n 21)
  if rs.isEmpty || !anyLink s || !mayTalk s then ok s
  else ok (sendDg { s with net := { s.net with evSent := s.net.evSent + rs.length } } 0x05 0 (rs.flatMap eventBytes))

/-- Pairs of address and value of the snapshot registers, read in one pass. -/
def snapshot (s : State) : List Byte := match s.img with
  | some i => (i.net.tlmRegs.take 64).flatMap fun a => leBytes 4 a ++ leBytes 4 ((readReg s a).getD 0).toNat
  | none => []

/-- A snapshot is due: the period of the configuration has passed since the last one (R476). -/
def snapshotDue (s : State) : Bool := match s.img, s.net.tlmLast with
  | some i, some b => decide (b + i.net.tlmPeriod ≤ s.esc.beat)
  | _, _ => true

/-- An item of telemetry is not offered or not sent. -/
def tlmMiss (s : State) : State := { s with net := { s.net with tlmDecim := incW s.net.tlmDecim } }

/-- TELEMETRY (R476): a snapshot that is due, or a job's summary; every 2^k-th item of a source is offered, one that finds its queue full raises k, and
16 sent in a row lower it. -/
def execTelemetry (job : Option (Byte × List Byte)) (full : Bool) (s : State) : Host.Outcome State Fault Refusal :=
  if !mayTalk s || !anyLink s || !isReady s || (job.isNone && !snapshotDue s) then ok s
  else
    let s := if job.isNone then { s with net := { s.net with tlmLast := some s.esc.beat } } else s
    let src := match job with | some j => j.1.toNat | none => 256
    let k := s.net.tlmK
    let count := match s.net.tlmItems.find? fun x => x.1 == src with | some x => x.2 | none => 0
    let s := { s with net := { s.net with tlmItems := (src, count + 1) :: s.net.tlmItems.filter fun x => x.1 != src } }
    if count % 2 ^ k ≠ 0 then ok (tlmMiss s)
    else if full then ok (tlmMiss { s with net := { s.net with tlmK := Nat.min 8 (k + 1), tlmStreak := 0 } })
    else
      let items := match job with | some j => j.2.take 1352 | none => snapshot s
      let n := match job with | some _ => 1 | none => items.length / 8
      let streak := s.net.tlmStreak + 1
      let s := sendDg s 0x06 0 (leBytes 1 (if job.isSome then 1 else 0) ++ leBytes 1 k ++ leBytes 2 n ++ leBytes 6 s.esc.beat ++ leBytes 2 0 ++ items)
      ok { s with net := { s.net with tlmStreak := if streak = 16 then 0 else streak, tlmK := if streak = 16 then k - 1 else k } }

/-- TRACE (R477): the bytes are kept for a crash dump (R559) and sent, or dropped when the queue is full. -/
def execTrace (src : Byte) (bytes : List Byte) (full : Bool) (s : State) : Host.Outcome State Fault Refusal :=
  if !running s then ok s
  else
    let s := { s with recd := { s.recd with trace := (s.recd.trace ++ [(src.toNat, bytes)]).drop (s.recd.trace.length + 1 - 1024) } }
    if full then ok { s with net := { s.net with traceLost := incW s.net.traceLost } }
    else if !mayTalk s || !anyLink s then ok s
    else ok (sendDg s 0x07 0 ([src, 0] ++ leBytes 6 (beatField s) ++ bytes.take 1356))

/-! ### Peers: exports, retracts, marks (R484-R486) -/

/-- PROVISIONALs dropped are counted (R481). -/
def peerDrops (s : State) (n : Nat) : State :=
  if n = 0 then s else { s with net := { s.net with peerDrop := satInc s.net.peerDrop n, status := orW s.net.status 0x20 } }

/-- The PROVISIONAL payloads of an export. -/
def exportParts (x : Export) : List (List Byte) :=
  let n := ceilDiv x.data.length 1348
  (List.range n).map fun j =>
    let d := (x.data.drop (1348 * j)).take 1348
    leBytes 6 x.beat ++ leBytes 1 x.lw ++ leBytes 1 x.stream ++ leBytes 2 j ++ leBytes 2 n ++ leBytes 2 d.length ++ leBytes 2 0 ++ d

/-- A RETRACT of the export's Beat waits: it goes first (R485). -/
def retractWaits (s : State) (x : Export) : Bool :=
  x.replayed && s.net.retracts.any fun r => bit r.1 x.lw && decide (r.2.1 ≤ x.beat ∧ x.beat ≤ r.2.2.1)

/-- Destinations of the peers that a stream names. -/
def streamDests (s : State) (stream : Nat) : List Nat := match (planOf s).streams.find? fun x => x.stream == stream with
  | some x => x.peers.filterMap fun id => (peerIdx s id).map fun j => 16 + j.val
  | none => []

/-- PROVISIONAL_SEND (R484): the oldest export goes to the peers of its stream; datagrams beyond the room are dropped. -/
def execProvisionalSend (room : Nat) (s : State) : Host.Outcome State Fault Refusal :=
  match s.net.exports with
  | [] => ok s
  | x :: xs =>
    if !mayTalk s || !anyLink s || retractWaits s x then ok s
    else
      let dgs := (exportParts x).flatMap fun p => (streamDests s x.stream).map fun d => (d, p)
      let flags := if x.replayed then 2 else 0
      let blocked : Bool := match openUnit s fun m => m.olp with
        | some m => ((planOf s).streams.find? fun y => y.stream == x.stream).any fun y =>
            let a := y.areas.getD x.lw (0, 0); (secureBlock m 0 1 a.1 a.2).isSome
        | none => false
      let s := { s with net := { s.net with exports := xs } }
      if blocked then ok (violation s)
      else
        let s := (dgs.take room).foldl (fun (s : State) (d : Nat × List Byte) => sendDg s 0x02 d.1 d.2 flags) s
        let s := if (dgs.take room).isEmpty then s else { s with net := { s.net with provs := (x.beat, x.lw) :: s.net.provs } }
        ok (peerDrops s (dgs.length - room))

/-- A datagram to each peer of the configuration. -/
def toPeers (s : State) (typ : Nat) (payload : List Byte) : State :=
  (List.range s.boot.peers.length).foldl (fun (s : State) j => sendDg s typ (16 + j) payload) s

/-- The payload of a RETRACT. -/
def retractBytes (mask b1 b2 cause : Nat) : List Byte := leBytes 6 b1 ++ leBytes 6 b2 ++ leBytes 1 mask ++ leBytes 1 cause ++ leBytes 2 0

/-- RETRACT_SEND (R485): the oldest RETRACT that is due; queued PROVISIONALs make room (R481). -/
def execRetractSend (displaced : Nat) (s : State) : Host.Outcome State Fault Refusal :=
  match s.net.retracts with
  | [] => ok s
  | r :: rs =>
    if mayTalk s && anyLink s then
      ok (toPeers (peerDrops { s with net := { s.net with retracts := rs } } displaced) 0x03 (retractBytes r.1 r.2.1 r.2.2.1 r.2.2.2))
    else ok s

/-- The payload of the MARK of Landing n (R486). -/
def markBytes (s : State) (n : Nat) : List Byte :=
  let r := (planOf s).r
  let p := if encLocked s then s.esc.pMax.toNat else s.esc.pMin.toNat
  leBytes 6 n ++ leBytes 6 (if n < r + 1 then 0xFFFFFFFFFFFF else n - 1 - r) ++ leBytes 1 r ++ leBytes 1 0 ++ leBytes 2 0 ++ leBytes 4 p

/-- MARK_SEND (R486): the MARK of the oldest Landing that has none yet. -/
def execMarkSend (displaced : Nat) (s : State) : Host.Outcome State Fault Refusal :=
  match s.net.marks with
  | [] => ok s
  | n :: ns =>
    if mayTalk s && anyLink s then
      let m := markBytes s n
      ok (toPeers (peerDrops { s with net := { s.net with marks := ns, lastMark := m } } displaced) 0x40 m)
    else ok s

/-- IDLE_MARK (R547): every P_max in Idle the last MARK is repeated. -/
def execIdleMark (displaced : Nat) (s : State) : Host.Outcome State Fault Refusal :=
  if mayTalk s && s.pwr.state == 2 && s.net.marks.isEmpty && !s.net.lastMark.isEmpty then
    let p := if encLocked s then s.esc.pMax.toNat else s.esc.pMin.toNat
    let s := reach s (s.net.idleC + p)
    let s := { s with net := { s.net with idleC := s.c } }
    ok (if anyLink s then toPeers (peerDrops s displaced) 0x40 s.net.lastMark else s)
  else ok s

end Sys2Proof.Machine
end

