-- ==== Sys2Proof/Machine/Peers.lean ====
section
/-! DEFINITION. What arrives from peers (R471, R487, R488). -/

namespace Sys2Proof.Machine

open Sys2Proof

def updPeer (s : State) (p : Fin 16) (f : Peer → Peer) : State := { s with net := { s.net with peers := s.net.peers.set p (f s.net.peers[p]) } }

/-- g is newer than h by serial arithmetic (R483). -/
def newerGen (g h : Nat) : Bool := let d := (g + 2 ^ 32 - h) % 2 ^ 32; decide (1 ≤ d ∧ d < 2 ^ 31)

/-- dev_id of a peer. -/
def peerDev (s : State) (p : Fin 16) : Nat := s.boot.peers.getD p 0

/-- Import channels of a peer: of one export stream, or of all of them for a RETRACT. -/
def importChannels (s : State) (p : Fin 16) (stream : Option Nat) : List Nat :=
  (((planOf s).imports.filter fun x => x.1 == peerDev s p && (match stream with | some n => x.2.1 == n | none => true)).map fun x => x.2.2).eraseDups

/-- A message is placed in the import ring of a channel: at most 64 in an interval, and further ones are dropped (R488). -/
def placeImport (bytes : List Byte) (s : State) (ch : Nat) : State :=
  let ivl := s.esc.beat
  if (s.net.imports.filter fun x => x.1 == ivl && x.2.1 == ch).length < 64 then
    { s with net := { s.net with imports := s.net.imports ++ [(ivl, ch, bytes)] } }
  else { s with net := { s.net with peerDrop := incW s.net.peerDrop, status := orW s.net.status 0x20 } }

/-- A peer message, its type byte and payload, enters the auxiliary chain and its import rings (R488). -/
def deliverPeer (s : State) (p : Fin 16) (typ : Nat) (stream : Option Nat) (payload : List Byte) : State :=
  if intervalOpen s then
    let bytes := leBytes 1 typ ++ payload
    (importChannels s p stream).foldl (placeImport bytes) (chainMsg s bytes)
  else s

/-- First Beat above the last sealed one that the peer's MARKs have reported. -/
def firstUnsealed (x : Peer) : Nat := match x.mark with
  | some m => if m.2.1 = 0xFFFFFFFFFFFF then 0 else m.2.1 + 1
  | none => 0

/-- The unsealed provisionals of a peer are retracted with cause 5 (R487). -/
def retractPeer (s : State) (p : Fin 16) : State :=
  let x := s.net.peers[p]
  let s := updPeer s p fun x => { x with highest := none }
  match x.highest with
  | some h => if firstUnsealed x ≤ h then deliverPeer s p 0x03 none (retractBytes 0xFF (firstUnsealed x) h 5) else s
  | none => s

/-- The generation of a peer's message (R471, R487): the state after it, and whether the message is accepted. A newer one is adopted; before
the first is known only a MARK is accepted. -/
def checkGen (s : State) (p : Fin 16) (gen : Nat) (isMark : Bool) : State × Bool :=
  let x := s.net.peers[p]
  match x.gen with
  | none => if isMark then (updPeer s p fun _ => { gen := some gen }, true) else (s, false)
  | some g =>
    if gen = g then (s, !x.gone)
    else if newerGen gen g then (updPeer (retractPeer s p) p fun _ => { gen := some gen }, true)
    else (s, false)

/-- A MARK is recorded with the C of its arrival. -/
def markCore (s : State) (p : Fin 16) (beat sealed r pMax : Nat) : State :=
  updPeer s p fun x => { x with mark := some (beat, sealed, r, pMax, s.c) }

/-- A PROVISIONAL is delivered in the current capture interval. -/
def provisionalCore (s : State) (p : Fin 16) (payload : List Byte) : State :=
  if payload.length < 17 ∨ 1364 < payload.length then s
  else
    let b := leAt payload 0 6
    let s := updPeer s p fun x => { x with highest := some (match x.highest with | some h => Nat.max h b | none => b) }
    deliverPeer s p 0x02 (some (leAt payload 7 1)) payload

/-- A RETRACT is delivered. -/
def retractCore (s : State) (p : Fin 16) (payload : List Byte) : State :=
  if payload.length = 16 then deliverPeer s p 0x03 none payload else s

/-- A message of a declared peer arrives: it runs if its generation is accepted. -/
def peerIn (s : State) (p : Fin 16) (gen : Nat) (isMark : Bool) (f : State → State) : State :=
  if mayTalk s && anyLink s && decide (p.val < s.boot.peers.length) then
    let x := checkGen s p gen isMark
    if x.2 then f x.1 else x.1
  else s

/-- MARK_RX (R487). -/
def execMarkRx (peer : Fin 16) (gen : Word) (beat sealed : BeatNo) (r : Nat) (pMax : Word) (s : State) : Host.Outcome State Fault Refusal :=
  ok (peerIn s peer gen.toNat true fun s => markCore s peer beat.toNat sealed.toNat r pMax.toNat)

/-- PROVISIONAL_RX (R488). -/
def execProvisionalRx (peer : Fin 16) (gen : Word) (payload : List Byte) (s : State) : Host.Outcome State Fault Refusal :=
  ok (peerIn s peer gen.toNat false fun s => provisionalCore s peer payload)

/-- RETRACT_RX (R488). -/
def execRetractRx (peer : Fin 16) (gen : Word) (payload : List Byte) (s : State) : Host.Outcome State Fault Refusal :=
  ok (peerIn s peer gen.toNat false fun s => retractCore s peer payload)

/-- PEER_TIMEOUT (R487): (1 + r + 1) × p_max after its last MARK a peer is lost. -/
def execPeerTimeout (peer : Fin 16) (s : State) : Host.Outcome State Fault Refusal :=
  let x := s.net.peers[peer]
  match x.mark with
  | some m =>
    if running s && !x.gone then
      let s := reach s (m.2.2.2.2 + (m.2.2.1 + 2) * m.2.2.2.1)
      let s := updPeer (retractPeer s peer) peer fun x => { x with gone := true }
      ok (raiseAlarm { s with net := { s.net with status := orW s.net.status 16 } } 0x0012 0xFF 0xFF (leBytes 8 (peerDev s peer)))
    else ok s
  | none => ok s

end Sys2Proof.Machine
end

