-- ==== Sys2Proof/Machine/Frames.lean ====
section
/-! DEFINITION. Received Ethernet frames and OLP datagrams (R459, R460, R462, R468-R471, R478, R526). -/

namespace Sys2Proof.Machine

open Sys2Proof

/-- The header fields of an OLP datagram that its receiver uses. -/
structure OlpHeader where
  typ   : Nat
  flags : Nat
  cls   : Nat
  dev   : Nat
  gen   : Nat
  seq   : Nat

def olpHeader (b : List Byte) : OlpHeader :=
  { typ := leAt b 3 1, flags := leAt b 4 1, cls := leAt b 5 1, dev := leAt b 8 8, gen := leAt b 16 4, seq := leAt b 20 4 }

/-- Magic, version, length, reserved bits and CRC-32C of a datagram (R468, R469). -/
def olpSound (b : List Byte) : Bool :=
  decide (36 ≤ b.length ∧ b.length ≤ 1400 ∧ leAt b 0 2 = 0x4C4F ∧ leAt b 2 1 = 1 ∧ leAt b 4 1 < 8 ∧ leAt b 6 2 + 36 = b.length) &&
  decide ((crc32c (b.take (b.length - 4))).toNat = leAt b (b.length - 4) 4)

/-- Types that the D8 accepts from a host and from a peer; in hold only requests and image messages (R460, R470). -/
def typeAccepted (hold host : Bool) (typ : Nat) : Bool :=
  if host then [0x10, 0x31, 0x32, 0x35].contains typ || (!hold && typ == 0x20) else !hold && [0x02, 0x03, 0x40].contains typ

/-- The datagram repeats one of the last 1,024 accepted from its sender (R471). -/
def olpSeen (s : State) (h : OlpHeader) : Bool := s.net.seen.contains (h.dev, h.gen, h.cls, h.seq)

/-- An accepted datagram is remembered among the last 1,024 of its sender. -/
def markSeen (s : State) (h : OlpHeader) : State :=
  let mine := s.net.seen.filter fun x => x.1 == h.dev
  { s with net := { s.net with seen := s.net.seen.filter (fun x => x.1 != h.dev) ++ (mine ++ [(h.dev, h.gen, h.cls, h.seq)]).drop (mine.length + 1 - 1024) } }

/-- A MGMT_REQ payload (R478): malformed ones are answered so. -/
def mgmtFrame (s : State) (h : Fin 8) (e : EthPort) (ts : Bool) (p : List Byte) : State :=
  let op := leAt p 4 1
  let n := leAt p 5 1
  let r : Req := { host := h, port := e, reqId := BitVec.ofNat 32 (leAt p 0 4), addr := BitVec.ofNat 32 (leAt p 8 4)
                   session := BitVec.ofNat 32 (leAt p 12 4), tag := (p.drop 16).take 16, ts := ts }
  let good := decide (leAt p 6 2 = 0 ∧ op ≤ 3 ∧ 1 ≤ n ∧ n ≤ (if op < 2 then 1 else 64) ∧ p.length = 32 + (if op % 2 = 1 then 4 * n else 0))
  let vs := if good then (List.range ((p.length - 32) / 4)).map fun j => BitVec.ofNat 32 (leAt p (32 + 4 * j) 4) else []
  mgmtCore s r op n vs good (p.take 16 ++ List.replicate 16 0 ++ p.drop 32)

/-- A datagram of a host, by its type. -/
def hostFrame (s : State) (h : Fin 8) (e : EthPort) (x : OlpHeader) (p : List Byte) : State :=
  match x.typ with
  | 0x10 => mgmtFrame s h e (bit x.flags 0) p
  | 0x20 => lineCore s h e p
  | 0x31 => offerCore (BitVec.ofNat 16 (leAt p 0 2)) (BitVec.ofNat 32 (leAt p 4 4)) (BitVec.ofNat 64 (leAt p 8 8)) ((p.drop 16).take 32) s
  | 0x32 => dataCore (BitVec.ofNat 16 (leAt p 0 2)) (leAt p 4 4) (p.drop 8) s
  | 0x35 => passEndCore (BitVec.ofNat 16 (leAt p 0 2)) s
  | _ => s

/-- A datagram of a peer, by its type. -/
def peerFrame (s : State) (j : Fin 16) (x : OlpHeader) (p : List Byte) : State :=
  match x.typ with
  | 0x40 => if p.length = 20 then markCore s j (leAt p 0 6) (leAt p 6 6) (leAt p 12 1) (leAt p 16 4) else s
  | 0x02 => provisionalCore s j p
  | 0x03 => retractCore s j p
  | _ => s

/-- A datagram on the OLP port (R469-R471). -/
def olpIn (s : State) (e : EthPort) (b : List Byte) : State :=
  if !olpSound b then rxBad s e
  else
    let x := olpHeader b
    let p := (b.drop 32).take (b.length - 36)
    let hold := s.sec.phase == 7
    let dup := fun (s : State) => updEth s e fun q => { q with rxDup := incW q.rxDup }
    match hostIdx s x.dev, peerIdx s x.dev with
    | some h, _ =>
      if !typeAccepted hold true x.typ then rxBad s e
      else if olpSeen s x then dup s
      else hostFrame (markSeen s x) h e x p
    | none, some j =>
      if !typeAccepted hold false x.typ then rxBad s e
      else if olpSeen s x then dup s
      else
        let y := checkGen s j x.gen (x.typ == 0x40)
        if y.2 then peerFrame (markSeen y.1 x) j x p else y.1
    | none, none => rxBad s e

/-- A Pdelay_Req is answered on a port that runs gPTP (R461, R467). -/
def answerPdelay (s : State) (e : EthPort) (seqId : Nat) : State :=
  if (s.net.port[e]).cfg.gptp then
    addStamp (sendEth s e 3 (seqId % 65536)) e { ident := seqId % 65536, kind := 3, time := timeT s }
  else s

/-- FRAME_RX (R459): a frame on a live port is discarded, answered, or handed to gPTP or OLP. PAUSE is not honoured. -/
def execFrameRx (e : EthPort) (f : Frame) (dt : Nat) (s : State) : Host.Outcome State Fault Refusal :=
  if !running s || !portLive s e then ok s
  else
    let s := advance s dt
    match f with
    | .bad => ok (rxBad s e)
    | .pause => ok s
    | .unsupported => ok (rxBad s e)
    | .arp => ok (sendEth s e 6 0)
    | .ndp => ok (sendEth s e 7 0)
    | .echo => ok (sendEth s e 8 0)
    | .igmp => ok (sendEth s e 9 0)
    | .pdelayReq seqId => ok (answerPdelay s e seqId)
    | .announce st => ok (applyBmca s e st)
    | .olp b => ok (olpIn s e b)

end Sys2Proof.Machine
end

