-- ==== Sys2Proof/Machine/MatrixEngine.lean ====
section
/-! DEFINITION. The matrix engine commands of a Wing (R134, R180). -/

namespace Sys2Proof.Machine

open Sys2Proof

/-- MM (R141): a matrix product. -/
def execMm (p : PWing) (hw : Hw) (s : State) : Host.Outcome State Fault Refusal := ok (engineStep p 0 (opIs 0x10) hw s)

/-- CONV (R142): a convolution. -/
def execConv (p : PWing) (hw : Hw) (s : State) : Host.Outcome State Fault Refusal := ok (engineStep p 0 (opIs 0x11) hw s)

/-- WINO2 (R154): an exact Winograd convolution. -/
def execWino2 (p : PWing) (hw : Hw) (s : State) : Host.Outcome State Fault Refusal := ok (engineStep p 0 (opIs 0x12) hw s)

/-- WINO4 (R157): a Winograd convolution in FP32. -/
def execWino4 (p : PWing) (hw : Hw) (s : State) : Host.Outcome State Fault Refusal := ok (engineStep p 0 (opIs 0x13) hw s)

/-- PROJ (R191): the projection with its append to KV pages. -/
def execProj (p : PWing) (hw : Hw) (s : State) : Host.Outcome State Fault Refusal := ok (engineStep p 0 (opIs 0x18) hw s)

/-- ATTN (R196): fused attention. -/
def execAttn (p : PWing) (hw : Hw) (s : State) : Host.Outcome State Fault Refusal := ok (engineStep p 0 (opIs 0x19) hw s)

/-- ATTN_BWD (R205): the backward pass of attention. -/
def execAttnBwd (p : PWing) (hw : Hw) (s : State) : Host.Outcome State Fault Refusal := ok (engineStep p 0 (opIs 0x1A) hw s)

/-- RETR (R203): retrieval of coarse entries. -/
def execRetr (p : PWing) (hw : Hw) (s : State) : Host.Outcome State Fault Refusal := ok (engineStep p 0 (opIs 0x1B) hw s)

/-- SEQ (R183): the operation records JOIN, LEAVE and NOP. -/
def execSeq (p : PWing) (hw : Hw) (s : State) : Host.Outcome State Fault Refusal := ok (engineStep p 0 (opIs 0x1C) hw s)

end Sys2Proof.Machine
end

