-- ==== Sys2Proof/Machine/Transfers.lean ====
section
/-! DEFINITION. Queue-control and transfer commands of a Wing (R257, R260, R353). -/

namespace Sys2Proof.Machine

open Sys2Proof

/-- NOP (R257): no effect but its wait, its token and its place in the queue. -/
def execNop (p : PWing) (q : Queue) (hw : Hw) (s : State) : Host.Outcome State Fault Refusal := ok (engineStep p (queueIdx q) (opIs 0x00) hw s)

/-- SYNC (R257, R267): waits and signals only. -/
def execSync (p : PWing) (q : Queue) (hw : Hw) (s : State) : Host.Outcome State Fault Refusal := ok (engineStep p (queueIdx q) (opIs 0x01) hw s)

/-- COPY (R260): A to C bit for bit, outside the Assembler mailbox. -/
def execCopy (p : PWing) (x : Fin 2) (hw : Hw) (s : State) : Host.Outcome State Fault Refusal :=
  ok (engineStep p (7 + x.val) (fun w c => c.opcode == 0x08 && !mailboxCopy w c) hw s)

/-- FILL (R260): the pattern of W4 over C. -/
def execFill (p : PWing) (x : Fin 2) (hw : Hw) (s : State) : Host.Outcome State Fault Refusal := ok (engineStep p (7 + x.val) (opIs 0x09) hw s)

/-- ASSEMBLER_COPY (R353): a COPY into the Assembler mailbox, complete when the Assembler's outputs are written. -/
def execAssemblerCopy (p : PWing) (x : Fin 2) (hw : Hw) (s : State) : Host.Outcome State Fault Refusal := ok (engineStep p (7 + x.val) mailboxCopy hw s)

end Sys2Proof.Machine
end

