-- ==== Sys2Proof/Machine/VectorTiles.lean ====
section
/-! DEFINITION. The vector tile commands of a Wing (R221): the element and row operations of each opcode are those of VectorCore. -/

namespace Sys2Proof.Machine

open Sys2Proof

/-- ADD (R222): the tile computes A + B elementwise. -/
def execAdd (p : PWing) (v : Fin 6) (hw : Hw) (s : State) : Host.Outcome State Fault Refusal := ok (engineStep p (1 + v.val) (opIs 0x20) hw s)

/-- SUB (R222): the tile computes A − B elementwise. -/
def execSub (p : PWing) (v : Fin 6) (hw : Hw) (s : State) : Host.Outcome State Fault Refusal := ok (engineStep p (1 + v.val) (opIs 0x21) hw s)

/-- MUL (R222): the tile computes A × B elementwise. -/
def execMul (p : PWing) (v : Fin 6) (hw : Hw) (s : State) : Host.Outcome State Fault Refusal := ok (engineStep p (1 + v.val) (opIs 0x22) hw s)

/-- FMA (R222): the tile computes A × B + T with one rounding. -/
def execFma (p : PWing) (v : Fin 6) (hw : Hw) (s : State) : Host.Outcome State Fault Refusal := ok (engineStep p (1 + v.val) (opIs 0x23) hw s)

/-- MIN (R223): the tile computes the elementwise minimum. -/
def execMin (p : PWing) (v : Fin 6) (hw : Hw) (s : State) : Host.Outcome State Fault Refusal := ok (engineStep p (1 + v.val) (opIs 0x24) hw s)

/-- MAX (R223): the tile computes the elementwise maximum. -/
def execMax (p : PWing) (v : Fin 6) (hw : Hw) (s : State) : Host.Outcome State Fault Refusal := ok (engineStep p (1 + v.val) (opIs 0x25) hw s)

/-- CMP (R224): the tile writes a UINT8 predicate result. -/
def execCmp (p : PWing) (v : Fin 6) (hw : Hw) (s : State) : Host.Outcome State Fault Refusal := ok (engineStep p (1 + v.val) (opIs 0x26) hw s)

/-- SEL (R224): the tile selects A where T is nonzero and B elsewhere. -/
def execSel (p : PWing) (v : Fin 6) (hw : Hw) (s : State) : Host.Outcome State Fault Refusal := ok (engineStep p (1 + v.val) (opIs 0x27) hw s)

/-- DIV (R223): the tile computes a correctly rounded A / B. -/
def execDiv (p : PWing) (v : Fin 6) (hw : Hw) (s : State) : Host.Outcome State Fault Refusal := ok (engineStep p (1 + v.val) (opIs 0x28) hw s)

/-- SQRT (R223): the tile computes a correctly rounded square root. -/
def execSqrt (p : PWing) (v : Fin 6) (hw : Hw) (s : State) : Host.Outcome State Fault Refusal := ok (engineStep p (1 + v.val) (opIs 0x29) hw s)

/-- RSQRT (R223): the tile computes a correctly rounded 1/√x. -/
def execRsqrt (p : PWing) (v : Fin 6) (hw : Hw) (s : State) : Host.Outcome State Fault Refusal := ok (engineStep p (1 + v.val) (opIs 0x2A) hw s)

/-- ACT (R225): the tile applies the unary function selected in W0. -/
def execAct (p : PWing) (v : Fin 6) (hw : Hw) (s : State) : Host.Outcome State Fault Refusal := ok (engineStep p (1 + v.val) (opIs 0x2B) hw s)

/-- CVT (R226): the tile converts A to C's format, including block-scaled quantise and dequantise. -/
def execCvt (p : PWing) (v : Fin 6) (hw : Hw) (s : State) : Host.Outcome State Fault Refusal := ok (engineStep p (1 + v.val) (opIs 0x2C) hw s)

/-- QNT (R226): the tile quantises to an integer format with scale and zero point. -/
def execQnt (p : PWing) (v : Fin 6) (hw : Hw) (s : State) : Host.Outcome State Fault Refusal := ok (engineStep p (1 + v.val) (opIs 0x2D) hw s)

/-- DQNT (R226): the tile dequantises an integer with scale and zero point to FP32. -/
def execDqnt (p : PWing) (v : Fin 6) (hw : Hw) (s : State) : Host.Outcome State Fault Refusal := ok (engineStep p (1 + v.val) (opIs 0x2E) hw s)

/-- LNORM (R228): the tile applies layer normalisation per row. -/
def execLnorm (p : PWing) (v : Fin 6) (hw : Hw) (s : State) : Host.Outcome State Fault Refusal := ok (engineStep p (1 + v.val) (opIs 0x30) hw s)

/-- RMSNORM (R228): the tile applies RMS normalisation per row. -/
def execRmsnorm (p : PWing) (v : Fin 6) (hw : Hw) (s : State) : Host.Outcome State Fault Refusal := ok (engineStep p (1 + v.val) (opIs 0x31) hw s)

/-- SOFTMAX (R228): the tile computes a softmax per row. -/
def execSoftmax (p : PWing) (v : Fin 6) (hw : Hw) (s : State) : Host.Outcome State Fault Refusal := ok (engineStep p (1 + v.val) (opIs 0x32) hw s)

/-- MAXPOOL (R230): the tile takes the maximum over each pooling window. -/
def execMaxpool (p : PWing) (v : Fin 6) (hw : Hw) (s : State) : Host.Outcome State Fault Refusal := ok (engineStep p (1 + v.val) (opIs 0x34) hw s)

/-- AVGPOOL (R230): the tile averages each pooling window. -/
def execAvgpool (p : PWing) (v : Fin 6) (hw : Hw) (s : State) : Host.Outcome State Fault Refusal := ok (engineStep p (1 + v.val) (opIs 0x35) hw s)

/-- GPOOL (R231): the tile pools each channel globally over H × W. -/
def execGpool (p : PWing) (v : Fin 6) (hw : Hw) (s : State) : Host.Outcome State Fault Refusal := ok (engineStep p (1 + v.val) (opIs 0x36) hw s)

/-- ARGMAX (R232): the tile writes the index of the largest channel for each pixel. -/
def execArgmax (p : PWing) (v : Fin 6) (hw : Hw) (s : State) : Host.Outcome State Fault Refusal := ok (engineStep p (1 + v.val) (opIs 0x38) hw s)

/-- TOPK (R233): the tile writes the k largest values and their indices per row. -/
def execTopk (p : PWing) (v : Fin 6) (hw : Hw) (s : State) : Host.Outcome State Fault Refusal := ok (engineStep p (1 + v.val) (opIs 0x39) hw s)

/-- GATHER (R234): the tile copies table rows in the order of an index tensor. -/
def execGather (p : PWing) (v : Fin 6) (hw : Hw) (s : State) : Host.Outcome State Fault Refusal := ok (engineStep p (1 + v.val) (opIs 0x3A) hw s)

/-- HIST (R235): the tile counts integer elements into bins, optionally accumulating prior counts. -/
def execHist (p : PWing) (v : Fin 6) (hw : Hw) (s : State) : Host.Outcome State Fault Refusal := ok (engineStep p (1 + v.val) (opIs 0x3B) hw s)

/-- COLSTAT (R236): the tile accumulates per-column background statistics under a class mask. -/
def execColstat (p : PWing) (v : Fin 6) (hw : Hw) (s : State) : Host.Outcome State Fault Refusal := ok (engineStep p (1 + v.val) (opIs 0x3C) hw s)

/-- ZCOMP (R239): the tile zero-compresses blocks into a stream. -/
def execZcomp (p : PWing) (v : Fin 6) (hw : Hw) (s : State) : Host.Outcome State Fault Refusal := ok (engineStep p (1 + v.val) (opIs 0x3E) hw s)

/-- ZDEC (R240): the tile expands a compressed stream into blocks, checking every record. -/
def execZdec (p : PWing) (v : Fin 6) (hw : Hw) (s : State) : Host.Outcome State Fault Refusal := ok (engineStep p (1 + v.val) (opIs 0x3F) hw s)

/-- VERDICT (R244): the tile evaluates rule tables on score rows and writes result-list entries. -/
def execVerdict (p : PWing) (v : Fin 6) (hw : Hw) (s : State) : Host.Outcome State Fault Refusal := ok (engineStep p (1 + v.val) (opIs 0x40) hw s)

end Sys2Proof.Machine
end

