-- ==== Sys2Proof/Machine/Dispatch.lean ====
section
/-! DEFINITION. The meaning of every command, one arm for each. -/

namespace Sys2Proof.Machine

open Sys2Proof

/-- The effect of a command on everything but the queue. -/
def exec (i : Instr) (s : State) : Host.Outcome State Fault Refusal :=
  match i with
  | .porstNAssert => Sys2Proof.Machine.execPorstNAssert s
  | .warmNAssert => Sys2Proof.Machine.execWarmNAssert s
  | .porstNRelease => Sys2Proof.Machine.execPorstNRelease s
  | .bringupGatePass g => Sys2Proof.Machine.execBringupGatePass g s
  | .gateTimeout index => Sys2Proof.Machine.execGateTimeout index s
  | .startupTestComplete t => Sys2Proof.Machine.execStartupTestComplete t s
  | .imageLoadComplete => Sys2Proof.Machine.execImageLoadComplete s
  | .broadcastPassEnd missing => Sys2Proof.Machine.execBroadcastPassEnd missing s
  | .broadcastComplete matching ab inputs => Sys2Proof.Machine.execBroadcastComplete matching ab inputs s
  | .ready => Sys2Proof.Machine.execReady s
  | .holdNotice => Sys2Proof.Machine.execHoldNotice s
  | .pocxpHoldRelease => Sys2Proof.Machine.execPocxpHoldRelease s
  | .beatEdgeTime => Sys2Proof.Machine.execBeatEdgeTime s
  | .beatEdgeEncoder dt => Sys2Proof.Machine.execBeatEdgeEncoder dt s
  | .beatEdgePmax => Sys2Proof.Machine.execBeatEdgePmax s
  | .speedHold => Sys2Proof.Machine.execSpeedHold s
  | .wingDrained p dt => Sys2Proof.Machine.execWingDrained p dt s
  | .graceExpiry => Sys2Proof.Machine.execGraceExpiry s
  | .landingComplete equal unread => Sys2Proof.Machine.execLandingComplete equal unread s
  | .landingGuardExpiry => Sys2Proof.Machine.execLandingGuardExpiry s
  | .nop p q hw => Sys2Proof.Machine.execNop p q hw s
  | .sync p q hw => Sys2Proof.Machine.execSync p q hw s
  | .copy p x hw => Sys2Proof.Machine.execCopy p x hw s
  | .fill p x hw => Sys2Proof.Machine.execFill p x hw s
  | .assemblerCopy p x hw => Sys2Proof.Machine.execAssemblerCopy p x hw s
  | .mm p hw => Sys2Proof.Machine.execMm p hw s
  | .conv p hw => Sys2Proof.Machine.execConv p hw s
  | .wino2 p hw => Sys2Proof.Machine.execWino2 p hw s
  | .wino4 p hw => Sys2Proof.Machine.execWino4 p hw s
  | .proj p hw => Sys2Proof.Machine.execProj p hw s
  | .attn p hw => Sys2Proof.Machine.execAttn p hw s
  | .attnBwd p hw => Sys2Proof.Machine.execAttnBwd p hw s
  | .retr p hw => Sys2Proof.Machine.execRetr p hw s
  | .seq p hw => Sys2Proof.Machine.execSeq p hw s
  | .add p v hw => Sys2Proof.Machine.execAdd p v hw s
  | .sub p v hw => Sys2Proof.Machine.execSub p v hw s
  | .mul p v hw => Sys2Proof.Machine.execMul p v hw s
  | .fma p v hw => Sys2Proof.Machine.execFma p v hw s
  | .min p v hw => Sys2Proof.Machine.execMin p v hw s
  | .max p v hw => Sys2Proof.Machine.execMax p v hw s
  | .cmp p v hw => Sys2Proof.Machine.execCmp p v hw s
  | .sel p v hw => Sys2Proof.Machine.execSel p v hw s
  | .div p v hw => Sys2Proof.Machine.execDiv p v hw s
  | .sqrt p v hw => Sys2Proof.Machine.execSqrt p v hw s
  | .rsqrt p v hw => Sys2Proof.Machine.execRsqrt p v hw s
  | .act p v hw => Sys2Proof.Machine.execAct p v hw s
  | .cvt p v hw => Sys2Proof.Machine.execCvt p v hw s
  | .qnt p v hw => Sys2Proof.Machine.execQnt p v hw s
  | .dqnt p v hw => Sys2Proof.Machine.execDqnt p v hw s
  | .lnorm p v hw => Sys2Proof.Machine.execLnorm p v hw s
  | .rmsnorm p v hw => Sys2Proof.Machine.execRmsnorm p v hw s
  | .softmax p v hw => Sys2Proof.Machine.execSoftmax p v hw s
  | .maxpool p v hw => Sys2Proof.Machine.execMaxpool p v hw s
  | .avgpool p v hw => Sys2Proof.Machine.execAvgpool p v hw s
  | .gpool p v hw => Sys2Proof.Machine.execGpool p v hw s
  | .argmax p v hw => Sys2Proof.Machine.execArgmax p v hw s
  | .topk p v hw => Sys2Proof.Machine.execTopk p v hw s
  | .gather p v hw => Sys2Proof.Machine.execGather p v hw s
  | .hist p v hw => Sys2Proof.Machine.execHist p v hw s
  | .colstat p v hw => Sys2Proof.Machine.execColstat p v hw s
  | .zcomp p v hw => Sys2Proof.Machine.execZcomp p v hw s
  | .zdec p v hw => Sys2Proof.Machine.execZdec p v hw s
  | .verdict p v hw => Sys2Proof.Machine.execVerdict p v hw s
  | .commandRepeat p q r => Sys2Proof.Machine.execCommandRepeat p q r s
  | .softResetComplete p => Sys2Proof.Machine.execSoftResetComplete p s
  | .softResetTimeout p => Sys2Proof.Machine.execSoftResetTimeout p s
  | .isolationAck p => Sys2Proof.Machine.execIsolationAck p s
  | .isolationAckTimeout p => Sys2Proof.Machine.execIsolationAckTimeout p s
  | .latestStartMiss p q => Sys2Proof.Machine.execLatestStartMiss p q s
  | .progressCheckpointMiss p q j => Sys2Proof.Machine.execProgressCheckpointMiss p q j s
  | .pipeLineTimeout q => Sys2Proof.Machine.execPipeLineTimeout q s
  | .assemblerTimeout => Sys2Proof.Machine.execAssemblerTimeout s
  | .transactionTimeout => Sys2Proof.Machine.execTransactionTimeout s
  | .sealingTimeout => Sys2Proof.Machine.execSealingTimeout s
  | .calendarFrameMiss => Sys2Proof.Machine.execCalendarFrameMiss s
  | .watchdogExpiry => Sys2Proof.Machine.execWatchdogExpiry s
  | .domainDrainTimeout d n => Sys2Proof.Machine.execDomainDrainTimeout d n s
  | .dieRelease => Sys2Proof.Machine.execDieRelease s
  | .bistStepComplete p r => Sys2Proof.Machine.execBistStepComplete p r s
  | .bistStart a wing => Sys2Proof.Machine.execBistStart a wing s
  | .fuseBurn a mvIo18 mvA => Sys2Proof.Machine.execFuseBurn a mvIo18 mvA s
  | .fuseBurnComplete ok => Sys2Proof.Machine.execFuseBurnComplete ok s
  | .supplyWarning r mv => Sys2Proof.Machine.execSupplyWarning r mv s
  | .supplyRecover r leastMv usecs cycles => Sys2Proof.Machine.execSupplyRecover r leastMv usecs cycles s
  | .supplyResetLevel r => Sys2Proof.Machine.execSupplyResetLevel r s
  | .avsSetpointChange mv answered => Sys2Proof.Machine.execAvsSetpointChange mv answered s
  | .thermalHigh tj => Sys2Proof.Machine.execThermalHigh tj s
  | .thermalTrip tj => Sys2Proof.Machine.execThermalTrip tj s
  | .thermalRecover tj => Sys2Proof.Machine.execThermalRecover tj s
  | .thermalLow tj => Sys2Proof.Machine.execThermalLow tj s
  | .attemptStart p => Sys2Proof.Machine.execAttemptStart p s
  | .pwrDelayExpiry p => Sys2Proof.Machine.execPwrDelayExpiry p s
  | .laneLock p => Sys2Proof.Machine.execLaneLock p s
  | .lockTimeout p => Sys2Proof.Machine.execLockTimeout p s
  | .controlAck p a => Sys2Proof.Machine.execControlAck p a s
  | .controlTimeout p => Sys2Proof.Machine.execControlTimeout p s
  | .waitAckExpiry p => Sys2Proof.Machine.execWaitAckExpiry p s
  | .setupWaitExpiry p => Sys2Proof.Machine.execSetupWaitExpiry p s
  | .errorRateCheckDone p ok => Sys2Proof.Machine.execErrorRateCheckDone p ok s
  | .holdoffExpiry p => Sys2Proof.Machine.execHoldoffExpiry p s
  | .lockLoss l => Sys2Proof.Machine.execLockLoss l s
  | .codeErrorLimit l => Sys2Proof.Machine.execCodeErrorLimit l s
  | .heartbeatTimeout p => Sys2Proof.Machine.execHeartbeatTimeout p s
  | .heartbeat p dt => Sys2Proof.Machine.execHeartbeat p dt s
  | .faultInputAssert p => Sys2Proof.Machine.execFaultInputAssert p s
  | .faultInputDeassert p => Sys2Proof.Machine.execFaultInputDeassert p s
  | .relink a p => Sys2Proof.Machine.execRelink a p s
  | .stop a p => Sys2Proof.Machine.execStop a p s
  | .lineFirstPacket p stream dt => Sys2Proof.Machine.execLineFirstPacket p stream dt s
  | .lineComplete p e dt => Sys2Proof.Machine.execLineComplete p e dt s
  | .imageHeader p h => Sys2Proof.Machine.execImageHeader p h s
  | .eventPacket p => Sys2Proof.Machine.execEventPacket p s
  | .pipeLineDone q => Sys2Proof.Machine.execPipeLineDone q s
  | .triggerEvent g dt => Sys2Proof.Machine.execTriggerEvent g dt s
  | .eyeScanDone l below at' above => Sys2Proof.Machine.execEyeScanDone l below at' above s
  | .peakingChange l => Sys2Proof.Machine.execPeakingChange l s
  | .ispTblData a v => Sys2Proof.Machine.execIspTblData a v s
  | .commitMain a => Sys2Proof.Machine.execCommitMain a s
  | .commitGain a => Sys2Proof.Machine.execCommitGain a s
  | .lineData h e payload dt => Sys2Proof.Machine.execLineData h e payload dt s
  | .lineDataTimeout h msgId => Sys2Proof.Machine.execLineDataTimeout h msgId s
  | .encoderStep ch fa fb dt => Sys2Proof.Machine.execEncoderStep ch fa fb dt s
  | .indexEdge ch => Sys2Proof.Machine.execIndexEdge ch s
  | .positionRequest ch datLow => Sys2Proof.Machine.execPositionRequest ch datLow s
  | .positionWord ch w => Sys2Proof.Machine.execPositionWord ch w s
  | .startBitTimeout ch => Sys2Proof.Machine.execStartBitTimeout ch s
  | .sincosSample ch sn cs dt => Sys2Proof.Machine.execSincosSample ch sn cs dt s
  | .encoderFaultClear ch => Sys2Proof.Machine.execEncoderFaultClear ch s
  | .inputEdge n level dt => Sys2Proof.Machine.execInputEdge n level dt s
  | .iioHostWrite a hi v => Sys2Proof.Machine.execIioHostWrite a hi v s
  | .statusPulseExpiry n => Sys2Proof.Machine.execStatusPulseExpiry n s
  | .calendarWindow dt => Sys2Proof.Machine.execCalendarWindow dt s
  | .channelLimitExpiry valve n => Sys2Proof.Machine.execChannelLimitExpiry valve n s
  | .valveFrame => Sys2Proof.Machine.execValveFrame s
  | .syncRx e theta y => Sys2Proof.Machine.execSyncRx e theta y s
  | .syncReceiptTimeout => Sys2Proof.Machine.execSyncReceiptTimeout s
  | .frameRx e f dt => Sys2Proof.Machine.execFrameRx e f dt s
  | .ethLinkUp e rate => Sys2Proof.Machine.execEthLinkUp e rate s
  | .ethPcsCheck e ok => Sys2Proof.Machine.execEthPcsCheck e ok s
  | .blockLockLoss e => Sys2Proof.Machine.execBlockLockLoss e s
  | .mgmtRead r => Sys2Proof.Machine.execMgmtRead r s
  | .mgmtWrite r v => Sys2Proof.Machine.execMgmtWrite r v s
  | .mgmtReadBlock r n => Sys2Proof.Machine.execMgmtReadBlock r n s
  | .mgmtWriteBlock r vs => Sys2Proof.Machine.execMgmtWriteBlock r vs s
  | .verdictSend => Sys2Proof.Machine.execVerdictSend s
  | .alarmSend => Sys2Proof.Machine.execAlarmSend s
  | .eventSend n => Sys2Proof.Machine.execEventSend n s
  | .telemetry job full => Sys2Proof.Machine.execTelemetry job full s
  | .trace src bytes full => Sys2Proof.Machine.execTrace src bytes full s
  | .tsReport e => Sys2Proof.Machine.execTsReport e s
  | .provisionalSend room => Sys2Proof.Machine.execProvisionalSend room s
  | .retractSend displaced => Sys2Proof.Machine.execRetractSend displaced s
  | .markSend displaced => Sys2Proof.Machine.execMarkSend displaced s
  | .idleMark displaced => Sys2Proof.Machine.execIdleMark displaced s
  | .markRx peer gen beat sealed r pMax => Sys2Proof.Machine.execMarkRx peer gen beat sealed r pMax s
  | .provisionalRx peer gen payload => Sys2Proof.Machine.execProvisionalRx peer gen payload s
  | .retractRx peer gen payload => Sys2Proof.Machine.execRetractRx peer gen payload s
  | .peerTimeout peer => Sys2Proof.Machine.execPeerTimeout peer s
  | .imgOffer xfer nChunk len digest => Sys2Proof.Machine.execImgOffer xfer nChunk len digest s
  | .imgData xfer chunk data => Sys2Proof.Machine.execImgData xfer chunk data s
  | .imgPassEnd xfer => Sys2Proof.Machine.execImgPassEnd xfer s
  | .imgNack => Sys2Proof.Machine.execImgNack s
  | .stagingTimeout => Sys2Proof.Machine.execStagingTimeout s
  | .stagingVerifyDone img => Sys2Proof.Machine.execStagingVerifyDone img s
  | .arm a xfer => Sys2Proof.Machine.execArm a xfer s
  | .abort a => Sys2Proof.Machine.execAbort a s
  | .commit a => Sys2Proof.Machine.execCommit a s
  | .activationDeviceReset a => Sys2Proof.Machine.execActivationDeviceReset a s
  | .activationSwitchSlot a => Sys2Proof.Machine.execActivationSwitchSlot a s
  | .changeover a => Sys2Proof.Machine.execChangeover a s
  | .cancel a => Sys2Proof.Machine.execCancel a s
  | .getCert a => Sys2Proof.Machine.execGetCert a s
  | .attest a => Sys2Proof.Machine.execAttest a s
  | .openSession a => Sys2Proof.Machine.execOpenSession a s
  | .finish a => Sys2Proof.Machine.execFinish a s
  | .close a => Sys2Proof.Machine.execClose a s
  | .keyWrite a => Sys2Proof.Machine.execKeyWrite a s
  | .keyRevoke a => Sys2Proof.Machine.execKeyRevoke a s
  | .mboxNoOperation a op => Sys2Proof.Machine.execMboxNoOperation a op s
  | .secMboxData a w => Sys2Proof.Machine.execSecMboxData a w s
  | .sessionIdleTimeout id => Sys2Proof.Machine.execSessionIdleTimeout id s
  | .submit a => Sys2Proof.Machine.execSubmit a s
  | .adapterCancel a => Sys2Proof.Machine.execAdapterCancel a s
  | .adapterStagingDone verified => Sys2Proof.Machine.execAdapterStagingDone verified s
  | .adapterCandidate => Sys2Proof.Machine.execAdapterCandidate s
  | .idleRequest a => Sys2Proof.Machine.execIdleRequest a s
  | .runRequest a => Sys2Proof.Machine.execRunRequest a s
  | .standbyRequest a => Sys2Proof.Machine.execStandbyRequest a s
  | .device a => Sys2Proof.Machine.execDevice a s
  | .die a => Sys2Proof.Machine.execDie a s
  | .clearLive a => Sys2Proof.Machine.execClearLive a s
  | .clearNvm a => Sys2Proof.Machine.execClearNvm a s
  | .clearDump a => Sys2Proof.Machine.execClearDump a s
  | .integrityLogClear a => Sys2Proof.Machine.execIntegrityLogClear a s
  | .recDataRead a good => Sys2Proof.Machine.execRecDataRead a good s
  | .loWordCapture a addr => Sys2Proof.Machine.execLoWordCapture a addr s
  | .registerWrite a addr v => Sys2Proof.Machine.execRegisterWrite a addr v s
  | .nvmLogAppend => Sys2Proof.Machine.execNvmLogAppend s
  | .retentionMirror => Sys2Proof.Machine.execRetentionMirror s
  | .crownId => Sys2Proof.Machine.execCrownId s
  | .crownRd addr n => Sys2Proof.Machine.execCrownRd addr n s
  | .crownWr addr v => Sys2Proof.Machine.execCrownWr addr v s
  | .crownLog n => Sys2Proof.Machine.execCrownLog n s
  | .crownIlog n => Sys2Proof.Machine.execCrownIlog n s
  | .crownDump raw => Sys2Proof.Machine.execCrownDump raw s
  | .crownResetDev => Sys2Proof.Machine.execCrownResetDev s
  | .crownResetDie => Sys2Proof.Machine.execCrownResetDie s
  | .crownKey slot alg usage hash => Sys2Proof.Machine.execCrownKey slot alg usage hash s
  | .crownBaud n => Sys2Proof.Machine.execCrownBaud n s
  | .crownLineError e => Sys2Proof.Machine.execCrownLineError e s
  | .bootHaltReport => Sys2Proof.Machine.execBootHaltReport s
  | .dieToDieLinkFailure => Sys2Proof.Machine.execDieToDieLinkFailure s
  | .fatalFirmwareError => Sys2Proof.Machine.execFatalFirmwareError s
  | .changeoverPreloadDone => Sys2Proof.Machine.execChangeoverPreloadDone s
  | .ethLinkDown e cause => Sys2Proof.Machine.execEthLinkDown e cause s
  | .pipeResetComplete q => Sys2Proof.Machine.execPipeResetComplete q s
  | .avsSetpointComplete => Sys2Proof.Machine.execAvsSetpointComplete s
  | .announceReceiptTimeout e state => Sys2Proof.Machine.execAnnounceReceiptTimeout e state s
  | .gptpTxInterval e msg seqId => Sys2Proof.Machine.execGptpTxInterval e msg seqId s
  | .railsInRange => Sys2Proof.Machine.execRailsInRange s

end Sys2Proof.Machine
end

