-- ==== Sys2Proof/Machine/Step.lean ====
section
/-! DEFINITION. One step: the command at the front of the queue, or a nanosecond when no command waits. -/

namespace Sys2Proof.Machine

/-- A nanosecond passes: C advances by one (R463, log entry 1). -/
def idle (s : State) : State := { s with c := (s.c + 1) % 2 ^ 64 }

/-- Takes the command at the front of the queue and runs it on the state with the queue's rest; with no command waiting,
time passes. -/
def step (s : State) : Host.Outcome State Fault Refusal :=
  match s.pending with
  | [] => .next (idle s)
  | i :: rest => exec i { s with pending := rest }

/-- The state with the command that a table word spells at the front of its queue. No row of the table gives bits, so no word
spells a command and the state is unchanged. -/
def State.withFetchWord (s : State) (nbits w : Nat) : State :=
  match Sys2Proof.decodeTableWord nbits w with
  | some i => { s with pending := i :: s.pending }
  | none => s

end Sys2Proof.Machine
end

