-- ==== Sys2Proof/Safety.lean ====
section
/-! DEFINITION. What a safe run of the D8 keeps, and the words in which the claims speak: records only, fuses that only move one
way, a device reset, a compute-die reset, a Wing that is fenced. -/

namespace Sys2Proof.Machine

open Sys2Proof

/-! ### Records -/

/-- t is s with at most records written (R444, R474, R551-R556): the live log and its counters, the retention tail, the pending alarms
and the end of the alarm function's pulse. Everything else is as it was. -/
def RecordsOnly (s t : State) : Prop :=
  ∃ (live : List EventRec) (lostCnt supp : Word) (lost full : Bool) (buckets : List ((Nat × Nat) × Nat × Nat × Nat))
    (tail : List EventRec) (tailNew recSeq : Nat) (alarms : List AlarmEntry) (alarmEnd : Nat),
    t = { s with
      recd := { s.recd with live := live, lostCnt := lostCnt, supp := supp, lost := lost, fullAlarm := full, buckets := buckets }
      ret := { s.ret with tail := tail, tailNew := tailNew, recSeq := recSeq }
      net := { s.net with alarms := alarms }
      iio := { s.iio with alarmEnd := alarmEnd } }

/-- t is s with at most records, integrity reports and their flags written (R444). -/
def ReportsOnly (s t : State) : Prop :=
  ∃ (intLog : List Report) (intLost seq : Nat) (status : Word),
    RecordsOnly { s with
      ret := { s.ret with intLog := intLog, intLost := intLost }
      int := { s.int with reportSeq := seq, status := status } } t

/-! ### Fuses (R6, R442, R506, R513, R514) -/

/-- A key slot that was written keeps its key, and a revoked one stays revoked (R513). -/
def KeyLe (a b : KeySlot) : Prop := (a.written = true → b.written = true ∧ b.hash = a.hash ∧ b.alg = a.alg ∧ b.usage = a.usage) ∧
  (a.revoked = true → b.revoked = true)

/-- Fuses only move one way: what was fused at manufacture stays, the counters never decrease, repair entries and defects only grow,
and keys are written once. -/
def FuseLe (a b : Fuses) : Prop :=
  b.goodWings = a.goodWings ∧ b.gradeI = a.gradeI ∧ b.fwSvn = a.fwSvn ∧ b.secret = a.secret ∧ a.svn ≤ b.svn ∧
  (∀ p : Fin 8, a.repairUsed[p] ≤ b.repairUsed[p]) ∧ (∀ x ∈ a.defects, x ∈ b.defects) ∧ ∀ j : Fin 8, KeyLe a.keys[j] b.keys[j]

/-! ### Resets -/

/-- Every volatile unit holds its reset values, and C counts from 0 again (R463, R535, R543). -/
def DeviceCleared (t : State) : Prop :=
  t.c = 0 ∧ t.reg = {} ∧ t.img = none ∧ t.imgNew = none ∧ t.mem = {} ∧ t.esc = {} ∧ t.wng = {} ∧ t.lw = Vector.replicate 8 {} ∧
  t.isp = {} ∧ t.enc = Vector.replicate 4 {} ∧ t.encStatus = 0 ∧ t.sealer = {} ∧ t.tst = {} ∧ t.int = {} ∧ t.cap = []

/-- t is what a device reset of s with a cause leaves (R13, R535, R543, R563): volatile state cleared; fuses, image slots and the integrity
log kept; the reset recorded as the last; every Wing in role 2, or 7 where fused off, with nothing in it (R86). -/
def AfterDeviceReset (s t : State) (cause : Nat) : Prop :=
  DeviceCleared t ∧ t.pending = s.pending ∧ t.fuse = s.fuse ∧ t.nvm.slots = s.nvm.slots ∧ t.nvm.active = s.nvm.active ∧
  t.ret.intLog = s.ret.intLog ∧ t.ret.lastCause = cause ∧ t.ret.lastKind = 0 ∧
  t.ret.resets = (s.ret.resets ++ [(0, cause)]).drop (s.ret.resets.length + 1 - 16) ∧
  ∀ p : Fin 8, t.phys[p] = { role := if bit s.fuse.goodWings p then 2 else 7 }

/-- t is what a compute-die reset of s with a cause leaves (R534, R536, R543, R544): the die and its generation, DRAM, Wings, sealing and
the records that wait; the Annex keeps its encoders, ejectors, ports, image, fuses and C. -/
def AfterDieReset (s t : State) (cause : Nat) : Prop :=
  t.pwr.dieSince = some s.c ∧ t.pwr.genDie = (s.pwr.genDie + 1) % 16 ∧ t.pwr.idleAt = none ∧
  t.mem.dram = [] ∧ t.mem.carried = [] ∧ t.mem.dramCfg = 0 ∧ t.sealer = {} ∧ t.tst = {} ∧ t.lw = Vector.replicate 8 {} ∧
  t.esc.phase = .off ∧ t.esc.beat = 0 ∧ t.esc.status = s.esc.status ∧ t.net.backlog = [] ∧
  t.net.verdLost = satInc s.net.verdLost s.net.backlog.length ∧
  (∀ p : Fin 8, (t.phys[p]).role = (if bit s.fuse.goodWings p then 2 else 7) ∧ (t.phys[p]).work = none ∧ (t.phys[p]).gallery = [] ∧
    (t.phys[p]).gen = ((s.phys[p]).gen + 1) % 16) ∧
  t.ret.lastCause = cause ∧ t.ret.lastKind = 1 ∧ t.ret.resets = (s.ret.resets ++ [(1, cause)]).drop (s.ret.resets.length + 1 - 16) ∧
  t.c = s.c ∧ t.img = s.img ∧ t.fuse = s.fuse ∧ t.pending = s.pending ∧ t.enc = s.enc ∧ t.ejc = s.ejc ∧ t.reg = s.reg ∧ t.sec.phase = s.sec.phase

/-- A device that takes a compute-die reset: out of reset, not in boot halt, the die not already in reset (R534). -/
def dieCanReset (s : State) : Bool := running s && s.pwr.dieSince.isNone

/-! ### Invariants of a run -/

/-- C is a 64-bit counter (R463). -/
def TimeBounded (s : State) : Prop := s.c < 2 ^ 64

/-- A run is safe if it stops nowhere: the D8 has no condition that stops it, so every step answers a next state. -/
def SafeStep (s : State) : Prop := ∃ t, step s = .next t

end Sys2Proof.Machine
end

