-- ==== Sys2Proof/Certificates/Slice0/Obligations.lean ====
section
/-! DEFINITION. The statements for the provers: one definition for each obligation, in the order of OBLIGATIONS.json. -/

open Sys2Proof Sys2Proof.Machine

/-- A step runs the command at the front of the queue on the state with the queue's rest (00_scope.md, log entry 1). For every command
c and state s with c at the front of its queue, step s is exec c on s with the queue's rest. The queue of commands is the model's
own (log entry 1). -/
def Obligations.FrontRuns : Prop :=
  ∀ (c : Instr) (rest : List Instr) (s : State), s.pending = c :: rest → step s = exec c { s with pending := rest }

/-- With no command waiting, a step is one nanosecond of the counter C (R463, log entry 1). On an empty queue a step changes nothing
but C, which counts one nanosecond (the model's choice of an idle step, log entry 1). -/
def Obligations.EmptyQueueTicks : Prop :=
  ∀ s : State, s.pending = [] → step s = .next { s with c := (s.c + 1) % 2 ^ 64 }

/-- No command stops the D8, and none touches the queue behind it (R497, R534, R538, log entry 1). For every command and state, exec
answers a next state, never a fault or a refusal, and the commands that wait are the same after it. -/
def Obligations.EveryCommandAnswers : Prop :=
  ∀ (i : Instr) (s : State), ∃ t : State, exec i s = .next t ∧ t.pending = s.pending

/-- C stays a 64-bit counter through every step (R463, 12_network_time_and_peers.md). From every state whose C is below 2^64, a step
of any command, or an idle step, leaves a state whose C is below 2^64. -/
def Obligations.StepKeepsTime : Prop :=
  ∀ s t : State, TimeBounded s → step s = .next t → TimeBounded t

/-- Fuses only move one way in every step (R6, R442, R506, R513, R514, 13_vestibule_images_and_security.md). Whatever the fuses f held
before a state, if the state's fuses only moved one way from f, so do the fuses after any step: grade, good Wings, the firmware
counter and the secret stay, the image counter and the used repair entries never decrease, defects stay listed, a written key slot
keeps its key and usage, and a revoked one stays revoked. -/
def Obligations.StepMovesFusesOneWay : Prop :=
  ∀ (f : Fuses) (s t : State), FuseLe f s.fuse → step s = .next t → FuseLe f t.fuse

/-- The state after reset meets the invariants (R463, R535, R513, log entry 8). At reset C is below 2^64, no fuse is less than the
fuses themselves, DRAM, every Gallery slice, every tile store and the mailbox buffer are in the canonical form of memory, and the
queue is empty. -/
def Obligations.ResetMeetsInvariants : Prop :=
  TimeBounded State.reset ∧ FuseLe State.reset.fuse State.reset.fuse ∧ Memory.wf State.reset.mem.dram ∧
  (∀ p : Fin 8, Memory.wf (State.reset.phys[p]).gallery ∧ ∀ v : Fin 6, Memory.wf (State.reset.phys[p]).tiles[v]) ∧
  Memory.wf State.reset.sec.mboxBuf ∧ State.reset.pending = []

/-- Registers read their Reset column at reset (R13, R25, R29, R82, R213, R327, R369, R451, R491, R563, R564, R578). At reset the
registers with a Reset column read it: ESC_BEAT_CFG 0x07D0_0008, WNG_MAP 0xFFFF_FFFF, MEM_KV_MIN 0x01FF_FFFF, INT_DROOP_MIN
0xFFFF, CAM_PORT_CFG 0x0004_0000, REC_CFG 0x0008_1000, REC_CROWN_CFG 3, and every status register, request, lock and counter
listed reads 0. -/
def Obligations.ResetRegisters : Prop :=
  readReg State.reset 0x10100 = some 0x07D00008 ∧ readReg State.reset 0x20004 = some 0xFFFFFFFF ∧
  readReg State.reset 0x90840 = some 0x01FFFFFF ∧ readReg State.reset 0xA0300 = some 0xFFFF ∧
  readReg State.reset 0x30000 = some 0x40000 ∧ readReg State.reset 0xB0000 = some 0x00081000 ∧
  readReg State.reset 0xB0040 = some 3 ∧
  ∀ a ∈ [0x10110, 0x10118, 0x20000, 0x20014, 0x20600, 0x20830, 0x20834, 0x31000, 0x41000, 0x50400, 0x60410, 0x60800, 0x70000,
         0x70004, 0x70100, 0x80200, 0x90804, 0xA0000, 0xA0014, 0xB0008, 0xC0020, 0xC0028, 0xD0000, 0xE0000],
    readReg State.reset a = some 0

/-- A byte reads back as written, and a write moves no other byte (R68, R214, log entry 8). After a byte is stored, its address reads
that byte and every other address reads what it read before; a run of bytes stored from an address reads back in place and leaves
every address outside the run. -/
def Obligations.MemoryReadAfterWrite : Prop :=
  (∀ (m : Memory) (a x : Nat) (b : Byte), memRead (memWrite m a b) x = if x = a then b else memRead m x) ∧
  ∀ (m : Memory) (a x : Nat) (bs : List Byte),
    memRead (memWrites m a bs) x = if a ≤ x ∧ x < a + bs.length then bs.getD (x - a) 0 else memRead m x

/-- Memory keeps one canonical form, so memories that read alike are equal (R68, R214, log entry 8). Storing bytes keeps the form, and
two memories in the form that give the same byte at every address are the same list. -/
def Obligations.MemoryCanonical : Prop :=
  (∀ (m : Memory) (a : Nat) (bs : List Byte), Memory.wf m → Memory.wf (memWrites m a bs)) ∧
  ∀ m n : Memory, Memory.wf m → Memory.wf n → (∀ a : Nat, memRead m a = memRead n a) → m = n

/-- T is computed from C and the Regulator's parameters on every read (R463, 12_network_time_and_peers.md). T is O_k plus C − c_k plus
the floor of a × (C − c_k) / 2^40, in 64 bits; with a = 0, c_k = 0 and O_k = 0 it is C itself. -/
def Obligations.CounterTime : Prop :=
  (∀ s : State, (timeT s : Int) = (s.reg.o + ((s.c : Int) - s.reg.ck) + Int.fdiv (s.reg.a * ((s.c : Int) - s.reg.ck)) (2 ^ 40)) % 2 ^ 64) ∧
  ∀ s : State, s.c < 2 ^ 64 → s.reg.a = 0 → s.reg.ck = 0 → s.reg.o = 0 → timeT s = s.c

/-- What recording an event does, in both flood modes and with a full log (R551, R554, R555, R556,
14_resets_power_states_and_records.md). Recording an event changes records only. In repeat mode, an event that differs from the
last record is appended to the live log with the next number while the log has fewer than 8,192 records; one that equals it in
code, unit, Wing and the first 8 argument bytes only raises the repeat count of that record, up to 65,535, and sets its last time;
one that finds the log full is counted as lost and sets full, and the first such event also raises alarm 0x0103, whose own record
is counted as lost. In rate-limit mode a key without a token writes no record and counts it as suppressed. -/
def Obligations.EventRecords : Prop :=
  (∀ (s : State) (e : Ev), RecordsOnly s (logEvent s e)) ∧
  (∀ (s : State) (e : Ev), s.recd.mode = false → sameAsLast s e = false → s.recd.live.length < 8192 →
    (logEvent s e).recd.live = s.recd.live ++ [mkRecord s e 0] ∧ (mkRecord s e 0).seq = s.ret.recSeq ∧
    (logEvent s e).ret.recSeq = (s.ret.recSeq + 1) % 2 ^ 32) ∧
  (∀ (s : State) (e : Ev) (r : EventRec), s.recd.mode = false → sameAsLast s e = true → s.recd.live.getLast? = some r →
    (logEvent s e).recd.live = s.recd.live.dropLast ++ [{ r with again := Nat.min 0xFFFF (r.again + 1), timeLast := timeT s }] ∧
    (logEvent s e).ret.recSeq = s.ret.recSeq ∧ (logEvent s e).recd.lostCnt = s.recd.lostCnt) ∧
  (∀ (s : State) (e : Ev), s.recd.mode = false → sameAsLast s e = false → 8192 ≤ s.recd.live.length →
    (logEvent s e).recd.live = s.recd.live ∧ (logEvent s e).recd.lost = true ∧ (logEvent s e).recd.fullAlarm = true ∧
    (s.recd.fullAlarm = true → (logEvent s e).recd.lostCnt = incW s.recd.lostCnt ∧ (logEvent s e).net = s.net) ∧
    (s.recd.fullAlarm = false → (logEvent s e).recd.lostCnt = incW (incW s.recd.lostCnt) ∧
      ∃ a ∈ (logEvent s e).net.alarms, a.code = 0x0103)) ∧
  ∀ (s : State) (e : Ev), s.recd.mode = true → (takeToken s (e.code, if e.code = 0x0300 ∨ e.code = 0x0302 then leAt e.arg 0 4 else 0)).1 = false →
    (logEvent s e).recd.live = s.recd.live ∧ (logEvent s e).recd.supp = incW s.recd.supp ∧ (logEvent s e).ret = s.ret

/-- An alarm fills a new pending entry or counts into the entry of its code (R388, R474, 12_network_time_and_peers.md). Raising an
alarm changes records and alarms only. A code that is not pending appends an entry with count 1; a code that is pending keeps the
number of entries and raises the count of its entry by one up to 2^32 − 1; the alarm function stays high for 100 ms from now. -/
def Obligations.AlarmEntries : Prop :=
  (∀ (s : State) (code phys lwing : Nat) (arg : List Byte), RecordsOnly s (alarmEntry s code phys lwing arg)) ∧
  (∀ (s : State) (code phys lwing : Nat) (arg : List Byte), (∀ a ∈ s.net.alarms, a.code ≠ code) →
    ∃ x : AlarmEntry, (alarmEntry s code phys lwing arg).net.alarms = s.net.alarms ++ [x] ∧ x.code = code ∧ x.phys = phys ∧ x.lwing = lwing ∧
      x.count = 1 ∧ x.first = timeT s ∧ x.last = timeT s) ∧
  (∀ (s : State) (code phys lwing : Nat) (arg : List Byte) (j : Nat) (x : AlarmEntry), s.net.alarms[j]? = some x → x.code = code →
    ∃ y : AlarmEntry, (alarmEntry s code phys lwing arg).net.alarms[j]? = some y ∧ y.code = code ∧ y.first = x.first ∧ y.last = timeT s ∧
      y.count = Nat.min 0xFFFFFFFF (x.count + 1) ∧ (alarmEntry s code phys lwing arg).net.alarms.length = s.net.alarms.length) ∧
  ∀ (s : State) (code phys lwing : Nat) (arg : List Byte), (alarmEntry s code phys lwing arg).iio.alarmEnd = s.c + 100000000

/-- The commands that reset the device, and what a device reset leaves (R497, R529, R533, R535, R539, R543, R559, R562, R563, R565,
R600). PORST_N, WARM_N, a secure DEVICE write, the progress faults of the sealing unit and the calendar, the watchdog, a fatal
firmware error, a thermal trip, a rail other than VDD_W and VDD_G at its reset level, activation modes 1 and 2, and Crown's reset
each leave a device that was reset with their cause; PORST_N, the rail and the trip hold it in reset, and the four that R559 names
leave a crash dump. -/
def Obligations.DeviceResets : Prop :=
  (∀ s : State, ∃ t, exec .porstNAssert s = .next t ∧ AfterDeviceReset s t 0x01 ∧ t.pwr.held = true ∧ t.pins.porst = false) ∧
  (∀ s : State, s.pwr.held = false → ∃ t, exec .warmNAssert s = .next t ∧ AfterDeviceReset s t 0x02) ∧
  (∀ (a : Acc) (s : State), running s = true → a.secure = true → ∃ t, exec (.device a) s = .next t ∧ AfterDeviceReset s t 0x07) ∧
  (∀ s : State, running s = true →
    (∃ t, exec .sealingTimeout s = .next t ∧ AfterDeviceReset s t 0x05 ∧ t.ret.dump.isSome = true) ∧
    (∃ t, exec .calendarFrameMiss s = .next t ∧ AfterDeviceReset s t 0x05 ∧ t.ret.dump.isSome = true) ∧
    (∃ t, exec .watchdogExpiry s = .next t ∧ AfterDeviceReset s t 0x04 ∧ t.ret.dump.isSome = true) ∧
    ∃ t, exec .fatalFirmwareError s = .next t ∧ AfterDeviceReset s t 0x04 ∧ t.ret.dump.isSome = true) ∧
  (∀ (tj : Int) (s : State), tjMax s + 80 ≤ tj →
    ∃ t, exec (.thermalTrip tj) s = .next t ∧ AfterDeviceReset s t 0x06 ∧ t.pwr.held = true ∧ t.pins.thermLow = true ∧ t.therm.tj = tj) ∧
  (∀ (r : Rail) (s : State), wingRail r = false → s.pwr.held = false →
    ∃ t, exec (.supplyResetLevel r) s = .next t ∧ AfterDeviceReset s t 0x03 ∧ t.pwr.held = true ∧ r ∈ t.supply.down) ∧
  (∀ (a : Acc) (s : State), running s = true → a.secure = true →
    (∃ t, exec (.activationDeviceReset a) s = .next t ∧ AfterDeviceReset s t 0x09) ∧
    ∃ t, exec (.activationSwitchSlot a) s = .next t ∧ AfterDeviceReset (switchSlot s) t 0x09 ∧ t.nvm.active = 1 - s.nvm.active) ∧
  ∀ s : State, crownLive s = true → crownMayReset s = true → ∃ t, exec .crownResetDev s = .next t ∧ AfterDeviceReset s t 0x08

/-- The commands that reset the compute die, and what that reset leaves (R533, R534, R536, R539, R542, R543, R544, R562, R565). A
secure DIE write, the Object Assembler's and a transaction's progress faults, a failed die-to-die link, a missing isolation
acknowledgement, VDD_W or VDD_G at its reset level, and Crown's reset die each leave a die that was reset with their cause. A
further trigger while the die is in reset leaves only an event. -/
def Obligations.DieResets : Prop :=
  (∀ (a : Acc) (s : State), dieCanReset s = true → a.secure = true → ∃ t, exec (.die a) s = .next t ∧ AfterDieReset s t 0x07) ∧
  (∀ s : State, dieUp s = true →
    (∃ t, exec .assemblerTimeout s = .next t ∧ AfterDieReset s t 0x05 ∧ t.pwr.prog = incW s.pwr.prog) ∧
    (∃ t, exec .transactionTimeout s = .next t ∧ AfterDieReset s t 0x05 ∧ t.pwr.prog = incW s.pwr.prog) ∧
    ∃ t, exec .dieToDieLinkFailure s = .next t ∧ AfterDieReset s t 0x0C) ∧
  (∀ (p : PWing) (s : State) (c : Nat), dieUp s = true → (s.phys[p]).softReset = some c → (s.phys[p]).clamping = true →
    ∃ t, exec (.isolationAckTimeout p) s = .next t ∧ AfterDieReset (reach s (c + 15000)) t 0x0B) ∧
  (∀ (r : Rail) (s : State), wingRail r = true → dieCanReset s = true →
    ∃ t, exec (.supplyResetLevel r) s = .next t ∧ AfterDieReset s t 0x03 ∧ r ∈ t.supply.down) ∧
  (∀ s : State, dieCanReset s = true → crownLive s = true → crownMayReset s = true →
    ∃ t, exec .crownResetDie s = .next t ∧ AfterDieReset s t 0x08) ∧
  ∀ (a : Acc) (s : State) (c : Nat), running s = true → a.secure = true → s.pwr.dieSince = some c →
    ∃ t, exec (.die a) s = .next t ∧ RecordsOnly s t

/-- The release of the compute die starts phase 1 again, and a domain's drain timeout counts what it drops (R497, R536, R538,
14_resets_power_states_and_records.md). With VDD_W and VDD_G in range, DIE_RELEASE ends the reset no earlier than 10 µs after its
trigger and phase 1 begins, with the bring-up gate open again; in hold it ends the reset and the phase stays; a generation that
NVM did not take gives hold with reason 0x0B. A drain timeout of a domain in reset adds the dropped transactions to PWR_STALE. -/
def Obligations.DieRelease : Prop :=
  (∀ (s : State) (c : Nat), s.pwr.dieSince = some c → running s = true → .vddW ∉ s.supply.down → .vddG ∉ s.supply.down → s.sec.phase ≠ 7 →
    s.nvm.genWriteOk = true → exec .dieRelease s = .next { reach s (c + 10000) with
      pwr := { s.pwr with dieSince := none }
      sec := { s.sec with phase := 1 }
      start := { s.start with dieOnly := s.start.dieOnly || s.sec.phase == 6, gateC := (reach s (c + 10000)).c, ucieDram := false, pass := 0, missing := [] } }) ∧
  (∀ (s : State) (c : Nat), s.pwr.dieSince = some c → running s = true → .vddW ∉ s.supply.down → .vddG ∉ s.supply.down → s.sec.phase = 7 →
    exec .dieRelease s = .next { reach s (c + 10000) with pwr := { s.pwr with dieSince := none } }) ∧
  (∀ (s : State) (c : Nat), s.pwr.dieSince = some c → running s = true → .vddW ∉ s.supply.down → .vddG ∉ s.supply.down → s.sec.phase ≠ 7 →
    s.nvm.genWriteOk = false → ∃ t, exec .dieRelease s = .next t ∧ t.pwr.dieSince = none ∧ t.sec.phase = 7 ∧ t.sec.reason = 0x0B) ∧
  ∀ (d : Domain) (n : Nat) (s : State), running s = true → domainInReset s d = true →
    exec (.domainDrainTimeout d n) s = .next { s with pwr := { s.pwr with stale := satInc s.pwr.stale n } }

/-- Leaving reset runs phase 0: firmware, configuration, generation, ports (R483, R495, R496, R500, R501, R556, R594, R600). When
PORST_N rises, the rails come into range or a trip has cooled, and nothing else holds the device, an accepted firmware copy and a
verified configuration take the D8 to phase 1 with that configuration in force and a new session generation in retention memory,
NVM and NET_GEN; a rise of PORST_N also gives the ports their configuration and leaves fuses, memory and C as they were. After a
rise of PORST_N, without an accepted copy the D8 halts in the boot ROM; without a verified configuration it enters hold with
reason 0x0E on the fall-back configuration. -/
def Obligations.PhaseZero : Prop :=
  (∀ (s : State) (b : BootCfg), s.pins.porst = false → s.supply.low = [] → s.supply.down = [] → s.pwr.hot = false → s.pins.xspiMode ≠ 3 →
    (fwOk s s.nvm.fwA = true ∨ fwOk s s.nvm.fwB = true) → chosenCfg s = some b → s.nvm.genWriteOk = true →
    ∃ t, exec .porstNRelease s = .next t ∧ t.pins.porst = true ∧ t.pwr.held = false ∧ t.sec.phase = 1 ∧ t.boot = b ∧ t.start.gateC = s.c ∧
      t.ret.gen = (s.ret.gen + 1) % 2 ^ 32 ∧ t.nvm.gen = (s.ret.gen + 1) % 2 ^ 32 ∧ t.net.gen = (s.ret.gen + 1) % 2 ^ 32 ∧
      (∀ e : Fin 2, (t.net.port[e]).cfg = b.ports.getD e {}) ∧ t.fuse = s.fuse ∧ t.mem = s.mem ∧ t.c = s.c) ∧
  (∀ (s : State) (b : BootCfg), s.pins.porst = true → s.pwr.held = true → s.pwr.hot = false → s.pins.xspiMode ≠ 3 →
    (fwOk s s.nvm.fwA = true ∨ fwOk s s.nvm.fwB = true) → chosenCfg s = some b → s.nvm.genWriteOk = true →
    ∃ t, exec .railsInRange s = .next t ∧ t.supply.low = [] ∧ t.supply.down = [] ∧ t.pwr.held = false ∧ t.sec.phase = 1 ∧ t.boot = b ∧
      t.ret.gen = (s.ret.gen + 1) % 2 ^ 32 ∧ t.nvm.gen = (s.ret.gen + 1) % 2 ^ 32 ∧ t.net.gen = (s.ret.gen + 1) % 2 ^ 32) ∧
  (∀ (tj : Int) (s : State) (b : BootCfg), tj ≤ tjMax s - 40 → s.pins.porst = true → s.pwr.held = true → s.supply.low = [] → s.supply.down = [] →
    s.pins.xspiMode ≠ 3 → (fwOk s s.nvm.fwA = true ∨ fwOk s s.nvm.fwB = true) → chosenCfg s = some b → s.nvm.genWriteOk = true →
    ∃ t, exec (.thermalRecover tj) s = .next t ∧ t.therm.tj = tj ∧ t.pins.thermLow = false ∧ t.pwr.held = false ∧ t.sec.phase = 1 ∧ t.boot = b ∧
      t.ret.gen = (s.ret.gen + 1) % 2 ^ 32 ∧ t.nvm.gen = (s.ret.gen + 1) % 2 ^ 32 ∧ t.net.gen = (s.ret.gen + 1) % 2 ^ 32) ∧
  (∀ s : State, s.pins.porst = false → s.supply.low = [] → s.supply.down = [] → s.pwr.hot = false →
    (s.pins.xspiMode = 3 ∨ fwOk s s.nvm.fwA = false ∧ fwOk s s.nvm.fwB = false) →
    ∃ t, exec .porstNRelease s = .next t ∧ t.sec.bootHalt = true ∧ t.pwr.held = false ∧ t.sec.phase = s.sec.phase ∧ t.net = s.net) ∧
  ∀ s : State, s.pins.porst = false → s.supply.low = [] → s.supply.down = [] → s.pwr.hot = false → s.pins.xspiMode ≠ 3 →
    (fwOk s s.nvm.fwA = true ∨ fwOk s s.nvm.fwB = true) → chosenCfg s = none →
    ∃ t, exec .porstNRelease s = .next t ∧ t.sec.phase = 7 ∧ t.sec.reason = 0x0E ∧ t.boot = fallbackCfg

/-- The bring-up gate passes at a rate, holds on a failed link, or times out into hold (R496, R497, R503, R504, R505, R578). In phase
1, a gate that passes after n failed rate steps, where the configuration allows an n-th step-down, sets MEM_DRAM_CFG to the word of
that rate, marks UCIe and DRAM as passed and begins phase 2, and besides these only records and the count of drawn free values
change. A UCIe module that failed every retraining gives hold 0x0C with index 0x40 + module, failures at every allowed rate hold
0x08 with index 0x80 + channel. In phases 1 to 5 a link that still blocks readiness gives hold 0x0C with its index, with C no
earlier than gate_timeout seconds after phase 1 began. -/
def Obligations.BringUpGate : Prop :=
  (∀ (g : GateResult) (rate : Nat) (s : State), running s = true → s.sec.phase = 1 → g.ucieFail = none → (rateSteps s.boot)[g.dramFails]? = some rate →
    ∃ x, RecordsOnly { s with freeCtr := s.freeCtr + 34 } x ∧ exec (.bringupGatePass g) s = .next { x with
      mem := { s.mem with dramCfg := dramWord s.boot g rate }, sec := { s.sec with phase := 2 }, start := { s.start with ucieDram := true } }) ∧
  (∀ (g : GateResult) (m : Fin 2) (s : State), running s = true → s.sec.phase = 1 → g.ucieFail = some m →
    ∃ t, exec (.bringupGatePass g) s = .next t ∧ t.sec.phase = 7 ∧ t.sec.reason = 0x0C ∧ t.sec.index = 0x40 + m.val) ∧
  (∀ (g : GateResult) (s : State), running s = true → s.sec.phase = 1 → g.ucieFail = none → (rateSteps s.boot)[g.dramFails]? = none →
    ∃ t, exec (.bringupGatePass g) s = .next t ∧ t.sec.phase = 7 ∧ t.sec.reason = 0x08 ∧ t.sec.index = 0x80 + g.dramChan.val) ∧
  ∀ (x : Byte) (s : State), running s = true → 1 ≤ s.sec.phase → s.sec.phase ≤ 5 → gateBlocked s x.toNat = true →
    ∃ t, exec (.gateTimeout x) s = .next t ∧ t.sec.phase = 7 ∧ t.sec.reason = 0x0C ∧ t.sec.index = x.toNat ∧
      t.c = (Nat.max s.c (s.start.gateC + s.boot.gateTimeout * 1000000000)) % 2 ^ 64

/-- The start-up test gives each Wing its result, marks failing Wings out and passes to phase 3, or holds (R442, R496, R506,
13_vestibule_images_and_security.md). In phase 2, a test whose fuses read back, with at most 256 failing pages and room for eight
more fused defects, gives phase 3 with MEM_DRAM_REMAP holding the pages. A Wing that is not fused off then has result 1 where it
passed, 2 where it was repaired, and keeps its role unless the fused defect list holds it, which gives role 6; where it failed in
its checkers, memories or logic it has result 5, 3 or 4 and role 6 and is in the fused defect list; a Wing that is fused off is as
it was. A test in which every Wing passes leaves the fuses and C alone. More than 256 pages give hold 0x08; fuses that fail
read-back, with no Wing failing, hold 0x0D. -/
def Obligations.StartupTest : Prop :=
  (∀ (u : StartTest) (s : State), running s = true → s.sec.phase = 2 → u.pages ≤ 256 → u.fuseOk = true → s.fuse.defects.length + 8 ≤ 64 →
    ∃ t, exec (.startupTestComplete u) s = .next t ∧ t.sec.phase = 3 ∧ t.mem.remap = BitVec.ofNat 32 u.pages ∧
      ∀ p : Fin 8, ((s.phys[p]).role = 7 → t.phys[p] = s.phys[p]) ∧ ((s.phys[p]).role ≠ 7 → match u.wings.getD p .pass with
        | .pass => (t.phys[p]).bistResult = 1 ∧ (t.phys[p]).role = if p.val ∈ s.fuse.defects then 6 else (s.phys[p]).role
        | .repaired _ _ => (t.phys[p]).bistResult = 2 ∧ (t.phys[p]).role = if p.val ∈ s.fuse.defects then 6 else (s.phys[p]).role
        | .checker => (t.phys[p]).bistResult = 5 ∧ (t.phys[p]).role = 6 ∧ p.val ∈ t.fuse.defects
        | .memory => (t.phys[p]).bistResult = 3 ∧ (t.phys[p]).role = 6 ∧ p.val ∈ t.fuse.defects
        | .logic => (t.phys[p]).bistResult = 4 ∧ (t.phys[p]).role = 6 ∧ p.val ∈ t.fuse.defects)) ∧
  (∀ (n mv mw : Nat) (s : State), running s = true → s.sec.phase = 2 → n ≤ 256 →
    ∃ t, exec (.startupTestComplete { wings := [], pages := n, mvIo18 := mv, mvA := mw, fuseOk := true }) s = .next t ∧
      t.sec.phase = 3 ∧ t.mem.remap = BitVec.ofNat 32 n ∧ t.fuse = s.fuse ∧ t.c = s.c ∧
      ∀ p : Fin 8, (s.phys[p]).role ≠ 7 →
        (t.phys[p]).bistResult = 1 ∧ (t.phys[p]).role = if p.val ∈ s.fuse.defects then 6 else (s.phys[p]).role) ∧
  (∀ (t : StartTest) (s : State), running s = true → s.sec.phase = 2 → 256 < t.pages →
    ∃ u, exec (.startupTestComplete t) s = .next u ∧ u.sec.phase = 7 ∧ u.sec.reason = 0x08) ∧
  ∀ (n mv mw : Nat) (s : State), running s = true → s.sec.phase = 2 → n ≤ 256 →
    ∃ t, exec (.startupTestComplete { wings := [], pages := n, mvIo18 := mv, mvA := mw, fuseOk := false }) s = .next t ∧
      t.sec.phase = 7 ∧ t.sec.reason = 0x0D

/-- Image load and broadcast passes: what completes them and what holds (R495, R496, R508, R515, R516). In phase 3, an image of the
active slot that no check of R515 refuses is placed in DRAM and is in force in phase 4, with its program digest and security
version; a directory without one gives hold 0x01, and a refused one hold with the check's reason, section and offset. In phase 4 a
broadcast pass with no receiver left counts the pass; one that ends with receivers missing chunks before the eighth keeps those of
the available Wings for the next pass. -/
def Obligations.LoadAndBroadcast : Prop :=
  (∀ (i : Image) (s : State), running s = true → s.sec.phase = 3 → activeImage s = some i →
    loadFail { s with sec := { s.sec with prog := progDigest i } } (slotCap s s.nvm.active) i = none →
    exec .imageLoadComplete s = .next { s with
      img := some i, mem := placeImage s.mem i
      sec := { s.sec with prog := progDigest i, phase := 4, imgSvn := imgSvn i }, start := { s.start with pass := 0, missing := [] } }) ∧
  (∀ s : State, running s = true → s.sec.phase = 3 → activeImage s = none →
    ∃ t, exec .imageLoadComplete s = .next t ∧ t.sec.phase = 7 ∧ t.sec.reason = 0x01) ∧
  (∀ (i : Image) (c : Check) (s : State), running s = true → s.sec.phase = 3 → activeImage s = some i →
    loadFail { s with sec := { s.sec with prog := progDigest i } } (slotCap s s.nvm.active) i = some c →
    ∃ t, exec .imageLoadComplete s = .next t ∧ t.sec.phase = 7 ∧ t.sec.reason = c.reason ∧ t.sec.sect = c.sect ∧ t.sec.offset = c.offset) ∧
  (∀ s : State, running s = true → s.sec.phase = 4 →
    exec (.broadcastPassEnd []) s = .next { s with start := { s.start with pass := s.start.pass + 1, missing := [] } }) ∧
  ∀ (l : List (PWing × List Nat)) (s : State), running s = true → s.sec.phase = 4 → s.start.pass < 7 →
    exec (.broadcastPassEnd l) s = .next { s with start := { s.start with
      pass := s.start.pass + 1, missing := l.filter fun x => (availWings s).contains x.1 && !x.2.isEmpty } }

/-- The end of the broadcast puts the security map in force and locks it, and readiness issues Beat 0 (R23, R74, R495, R516, R517,
R519). In phase 4 after a device start, with at least one pass, none missing and every available Wing's digest matching,
BROADCAST_COMPLETE puts the image's map in force, locks it and passes to phase 5, with fuses and C as they were. In phase 5, with
required ports up, enabled Ethernet ports checked and no Wing at work, READY issues the edge of Beat 0: phase 6, the ready output
high, the Escapement waiting for the drains of Beat 0, the reference count latched, and C, memory and the network as they were. -/
def Obligations.ReadyAndFirstBeat : Prop :=
  (∀ (m ab : Byte) (inp : Dword) (i : Image) (s : State), s.img = some i → running s = true → s.sec.phase = 4 → 1 ≤ s.start.pass →
    s.start.missing = [] → (∀ p ∈ availWings s, bit m.toNat p = true) → s.sec.mapLocked = false → s.start.dieOnly = false →
    ∃ t, exec (.broadcastComplete m ab inp) s = .next t ∧ t.sec.phase = 5 ∧ t.sec.mapLocked = true ∧ t.sec.map = some i.secmap ∧
      t.fuse = s.fuse ∧ t.c = s.c) ∧
  ∀ s : State, running s = true → s.sec.phase = 5 → s.pwr.dieSince = none → readyMet s = true → (∀ p : Fin 8, (s.phys[p]).work = none) →
    s.esc.fresh = true → ∃ t, exec .ready s = .next t ∧ t.sec = { s.sec with phase := 6 } ∧ t.iio.ready = true ∧ t.esc.beat = 0 ∧ t.esc.fresh = false ∧
      t.esc.phase = .drain ∧ t.esc.edgeC = s.c ∧ t.esc.edgeCount = refCount s ∧ t.c = s.c ∧ t.mem = s.mem ∧ t.net = s.net

/-- What Vestibule hold does: entry, its notices, the power enables, and the boot-halt report (R319, R399, R496, R497, R499). Entry to
hold sets phase 7 with the reason, section, index and offset, empties the calendar, stops the cameras, the Beats and the ready
function, and leaves fuses, image, memory and C. In hold HOLD_NOTICE sends one datagram of type 0x30 to every host, which begins
with reason, section and index, no earlier than a second after the last. 500 ms after entry the enables that hold drove low are
released. In boot halt a second passes and one line goes to Crown. -/
def Obligations.HoldAndHalt : Prop :=
  (∀ (s : State) (r x y z : Nat), (enterHold s r x y z).sec = { s.sec with phase := 7, reason := r, sect := x, index := y, offset := z } ∧
    (enterHold s r x y z).ejc.entries = [] ∧ (enterHold s r x y z).esc.phase = .off ∧ (enterHold s r x y z).iio = { s.iio with ready := false } ∧
    (∀ p : Fin 16, ((enterHold s r x y z).cam.port[p]).state = 0 ∧ ((enterHold s r x y z).cam.port[p]).accepting = false) ∧
    (∀ p : Fin 8, ((enterHold s r x y z).phys[p]).work = none) ∧
    (enterHold s r x y z).fuse = s.fuse ∧ (enterHold s r x y z).img = s.img ∧ (enterHold s r x y z).c = s.c ∧ (enterHold s r x y z).mem = s.mem) ∧
  (∀ s : State, running s = true → s.sec.phase = 7 →
    ∃ t d, exec .holdNotice s = .next t ∧ t.net.sent = s.net.sent ++ [d] ∧ d.typ = 0x30 ∧ d.dst = 0 ∧
      d.payload.take 3 = leBytes 1 s.sec.reason ++ leBytes 1 s.sec.sect ++ leBytes 1 s.sec.index ∧
      t.c = (Nat.max s.c (s.start.noticeC + 1000000000)) % 2 ^ 64 ∧ t.start.noticeC = t.c ∧ t.sec = s.sec ∧ t.mem = s.mem ∧ t.phys = s.phys) ∧
  (∀ (s : State) (c : Nat), s.start.pocxpLow = some c →
    exec .pocxpHoldRelease s = .next { reach s (c + 500000000) with
      cam := { s.cam with port := s.cam.port.map fun p => { p with enable := none } }, start := { s.start with pocxpLow := none } }) ∧
  ∀ s : State, s.sec.bootHalt = true → ∃ line, exec .bootHaltReport s = .next { advance s 1000000000 with
    recd := { s.recd with crownOut := s.recd.crownOut ++ [line] } }

/-- When the edge of a Beat is issued, and what it latches (R14, R17, R20, R21, R24, R41, R388, 01_beat_landing_and_sealing.md). In a
running Beat whose Wings have all finished: the time-locked edge comes P after the last; the encoder edge once the target was
reached and P_min has passed; the P_max edge where the target was not reached; the speed hold moves the edge of a target reached
early to P_min and sets the flag. Each edge starts the next Beat, latches C, T and the count, sets the next target N_B ahead,
waits for the drains and starts the pulse of 1 µs; memory takes the line messages and peer imports of the closed interval in their
areas, and Wings' Galleries and work, logical Wings, cameras, calendar, image and fuses are as they were. -/
def Obligations.BeatEdges : Prop :=
  let Done := fun (s : State) => ∀ p : Fin 8, ∀ w : Work, (s.phys[p]).work = some w → workDone w = true ∧ w.catchUp = false
  let Edge := fun (s t : State) (c : Nat) (st : Word) => t.c = c ∧
    t.esc = { s.esc with
      status := st, beat := s.esc.beat + 1, edgeC := c, edgeT := timeT { s with c := c }, edgeCount := refCount { s with c := c }
      target := refCount { s with c := c } + s.esc.nb, reached := false, phase := .drain } ∧
    t.iio.pulseEnd = c + 1000 ∧ t.mem = (closeAreas s s.esc.beat).mem ∧ t.img = s.img ∧ t.fuse = s.fuse ∧ t.lw = s.lw ∧ t.wng = s.wng ∧
    t.cam = s.cam ∧ t.ejc = s.ejc ∧ ∀ p : Fin 8, (t.phys[p]).gallery = (s.phys[p]).gallery ∧ (t.phys[p]).work = (s.phys[p]).work
  (∀ s : State, beating s = true → s.esc.fresh = false → Done s → encLocked s = false →
    ∃ t, exec .beatEdgeTime s = .next t ∧ Edge s t (reach s (s.esc.edgeC + s.esc.pMin.toNat)).c s.esc.status) ∧
  (∀ (s : State) (dt : Nat), beating s = true → s.esc.fresh = false → Done s → encLocked s = true → targetReached s = true →
    s.esc.edgeC + s.esc.pMin.toNat ≤ s.c + dt →
    ∃ t, exec (.beatEdgeEncoder dt) s = .next t ∧ Edge s t (advance s dt).c s.esc.status) ∧
  (∀ s : State, beating s = true → s.esc.fresh = false → Done s → encLocked s = true → targetReached s = false →
    ∃ t, exec .beatEdgePmax s = .next t ∧ Edge s t (reach s (s.esc.edgeC + s.esc.pMax.toNat)).c s.esc.status) ∧
  ∀ s : State, beating s = true → s.esc.fresh = false → Done s → encLocked s = true → targetReached s = true →
    s.c < s.esc.edgeC + s.esc.pMin.toNat →
    ∃ t, exec .speedHold s = .next t ∧ Edge s t (reach s (s.esc.edgeC + s.esc.pMin.toNat)).c (orW s.esc.status 4)

/-- A Wing with work left at an edge has overrun, and the third edge in a row is a progress fault (R34, R539, R541,
01_beat_landing_and_sealing.md). At an edge, a Wing whose work is not done, or whose late work still has a second table to run,
sets the overrun flag of ESC_STATUS and counts the edge; with fewer than three in a row nothing else but records changes. At the
third the Wing is fenced: role 5, no work, its progress fault counted in PWR_PROG and in the persistent counter. -/
def Obligations.OverrunAtEdge : Prop :=
  (∀ (s : State) (p : PWing) (w : Work), (s.phys[p]).work = some w → (workDone w = false ∨ w.catchUp = true) → (s.phys[p]).missed + 1 < 3 →
    RecordsOnly (updPhys { s with esc := { s.esc with status := orW s.esc.status 1 } } p fun x => { x with missed := x.missed + 1 }) (overrunAt s p)) ∧
  ∀ (s : State) (p : PWing) (w : Work), (s.phys[p]).work = some w → (workDone w = false ∨ w.catchUp = true) → 3 ≤ (s.phys[p]).missed + 1 →
    (overrunAt s p).pwr.prog = incW s.pwr.prog ∧ ((overrunAt s p).phys[p]).role = 5 ∧ ((overrunAt s p).phys[p]).work = none ∧
    bit (overrunAt s p).esc.status.toNat 0 = true ∧ (overrunAt s p).int.persist = incW s.int.persist

/-- Drains after an edge, the grace, and the end of the Landing guard (R31, R32, R34, R35, R427, 01_beat_landing_and_sealing.md). A
Wing that has done its work reports drained within the grace after the edge, which only marks its work; a late Wing that has done
the first table of a catch-up goes on with its next work Beat within the Beat. The end of the grace comes no earlier than the
grace after the edge: Wings that have drained stay; one that has done its work is marked drained; the work of one that has not, or
that still has a second table to run, is dropped. When the guard ends the Escapement runs the Beat: each Active or Late Wing that
runs its logical Wing starts that Wing's oldest work Beat with the queues of its table, and with no Wing to start only C and the
phase change. -/
def Obligations.DrainsAndGuard : Prop :=
  (∀ (p : PWing) (dt : Nat) (w : Work) (s : State), dieUp s = true → (s.phys[p]).work = some w → workDone w = true → s.esc.phase = .drain →
    w.catchUp = false → w.drained = false → s.c + dt ≤ s.esc.edgeC + graceNs (planOf s) →
    exec (.wingDrained p dt) s = .next (updPhys (advance s dt) p fun x => { x with work := some { w with drained := true } })) ∧
  (∀ (p : PWing) (dt : Nat) (w : Work) (s : State), dieUp s = true → (s.phys[p]).work = some w → workDone w = true → s.esc.phase = .run →
    w.catchUp = true → ∃ t v, exec (.wingDrained p dt) s = .next t ∧ (t.phys[p]).work = some v ∧ v.lw = w.lw ∧ v.beat = w.beat + 1 ∧
      v.catchUp = false ∧ v.lc = indexQueues (tableOf (wingPlan s w.lw) (w.beat + 1)).queues ∧ t.esc = s.esc ∧ t.c = (advance s dt).c) ∧
  (∀ s : State, dieUp s = true → s.esc.phase = .drain → allDrained s = true →
    exec .graceExpiry s = .next (reach s (s.esc.edgeC + graceNs (planOf s)))) ∧
  (∀ (p : PWing) (w : Work) (s : State), dieUp s = true → s.esc.phase = .drain → (s.phys[p]).work = some w → w.drained = false →
    ∃ t, exec .graceExpiry s = .next t ∧ t.c = (reach s (s.esc.edgeC + graceNs (planOf s))).c ∧
      (workDone w = true → w.catchUp = false → (t.phys[p]).work = some { w with drained := true }) ∧
      (workDone w = false ∨ w.catchUp = true → (t.phys[p]).work = none)) ∧
  (∀ (p : PWing) (s : State), dieUp s = true → s.esc.phase = .guard → (s.phys[p]).role = 0 ∨ (s.phys[p]).role = 1 →
    mapOf s (s.phys[p]).logical = some p → (s.lw[(s.phys[p]).logical]).lost = false → (s.lw[(s.phys[p]).logical]).nextWork ≤ s.esc.beat →
    ∃ t w, exec .landingGuardExpiry s = .next t ∧ t.esc.phase = .run ∧ (t.phys[p]).work = some w ∧ w.lw = (s.phys[p]).logical ∧
      w.beat = (s.lw[(s.phys[p]).logical]).nextWork ∧ w.shadow = false ∧ w.lc = indexQueues (tableOf (wingPlan s w.lw) w.beat).queues) ∧
  ∀ s : State, dieUp s = true → s.esc.phase = .guard → (∀ p : Fin 8, 2 ≤ (s.phys[p]).role ∧ (s.phys[p]).role ≠ 4) →
    exec .landingGuardExpiry s = .next { reach s (s.esc.landingC + (planOf s).guardNs) with esc := { s.esc with phase := .run } }

/-- What abandoning a Wing's work for its Beat does (R34, R35, R265, R475, R485, 01_beat_landing_and_sealing.md). Abandoning the work
of an Active or Late Wing empties its queues, sets abandoned in ESC_STATUS, lists the logical Wing for the Landing, holds the
objects that the Beat had finished for sealing with reason 0x05, gives 0x05 as the reason of the logical Wing's next lines, makes
the next Beat its next work, and leaves every other physical Wing, the Wing's role, the fuses and C alone. -/
def Obligations.AbandonedWork : Prop :=
  ∀ (s : State) (p : PWing) (w : Work), (s.phys[p]).work = some w → w.shadow = false →
    ((abandonWing s p).phys[p]).work = none ∧ ((abandonWing s p).phys[p]).role = (s.phys[p]).role ∧
    (abandonWing s p).esc.abandoned = s.esc.abandoned ++ [w.lw] ∧ bit (abandonWing s p).esc.status.toNat 1 = true ∧
    ((abandonWing s p).lw[w.lw]).nextWork = w.beat + 1 ∧ ((abandonWing s p).lw[w.lw]).doomNext = some 5 ∧
    (∃ h : Held, (abandonWing s p).sealer.held = s.sealer.held ++ [h] ∧ h.lw = w.lw.val ∧ h.beat = w.beat ∧ h.reason = some 5 ∧
      h.objs = finishedObjs w) ∧
    (abandonWing s p).fuse = s.fuse ∧ (abandonWing s p).c = s.c ∧
    ∀ q : Fin 8, q ≠ p → (abandonWing s p).phys[q] = s.phys[q]

/-- A Landing completes once every Wing has drained, and its guard begins (R31, R32, R36, R243, 01_beat_landing_and_sealing.md). With
every Wing drained and no Idle request waiting, LANDING_COMPLETE answers a state in the guard whose Landing instant is C; the
Beat, its edge, the fuses and C are as they were. -/
def Obligations.LandingStarts : Prop :=
  ∀ (equal : Bool) (unread : List (PWing × Nat)) (s : State), dieUp s = true → s.esc.phase = .drain → allDrained s = true → s.pwr.idleAt = none →
    ∃ t, exec (.landingComplete equal unread) s = .next t ∧ t.esc.phase = .guard ∧ t.esc.landingC = s.c ∧ t.esc.beat = s.esc.beat ∧
      t.fuse = s.fuse ∧ t.pending = s.pending ∧ t.c = s.c ∧ t.esc.edgeC = s.esc.edgeC

/-- Every engine command: the head of its queue runs, and its results are used once every check has passed (R71, R254, R255, R257,
R265, R267, R271, R272, R412, 07_plans_classes_determinism.md). For each of the 43 engine rows with its queue and opcode: when the
compute die is up, the Wing's queue may issue a command of that row at cycle t, it does not start late, the silicon reports no
failure and no uncorrectable link error, and the command's own checks pass with results e, then exec answers the state in which
the corrected link errors and world violations that the hardware met are counted and the command has completed with e. A
latency-critical command that completes leaves its queue and is counted once in the progress of its queue. -/
def Obligations.EngineCommands : Prop :=
  let rows : List (Instr × PWing × Nat × (WingPlan → Cmd → Bool) × Hw → Prop) := [
    fun x => ∃ (p : PWing) (q : Queue) (hw : Hw), x = (.nop p q hw, p, queueIdx q, opIs 0x00, hw) ∨ x = (.sync p q hw, p, queueIdx q, opIs 0x01, hw),
    fun x => ∃ (p : PWing) (d : Fin 2) (hw : Hw), x = (.copy p d hw, p, 7 + d.val, (fun w c => c.opcode == 0x08 && !mailboxCopy w c), hw) ∨
      x = (.fill p d hw, p, 7 + d.val, opIs 0x09, hw) ∨ x = (.assemblerCopy p d hw, p, 7 + d.val, mailboxCopy, hw),
    fun x => ∃ (p : PWing) (hw : Hw), x = (.mm p hw, p, 0, opIs 0x10, hw) ∨ x = (.conv p hw, p, 0, opIs 0x11, hw) ∨
      x = (.wino2 p hw, p, 0, opIs 0x12, hw) ∨ x = (.wino4 p hw, p, 0, opIs 0x13, hw) ∨ x = (.proj p hw, p, 0, opIs 0x18, hw) ∨
      x = (.attn p hw, p, 0, opIs 0x19, hw) ∨ x = (.attnBwd p hw, p, 0, opIs 0x1A, hw) ∨ x = (.retr p hw, p, 0, opIs 0x1B, hw) ∨
      x = (.seq p hw, p, 0, opIs 0x1C, hw),
    fun x => ∃ (p : PWing) (v : Fin 6) (hw : Hw), x = (.add p v hw, p, 1 + v.val, opIs 0x20, hw) ∨ x = (.sub p v hw, p, 1 + v.val, opIs 0x21, hw) ∨
      x = (.mul p v hw, p, 1 + v.val, opIs 0x22, hw) ∨ x = (.fma p v hw, p, 1 + v.val, opIs 0x23, hw) ∨ x = (.min p v hw, p, 1 + v.val, opIs 0x24, hw) ∨
      x = (.max p v hw, p, 1 + v.val, opIs 0x25, hw) ∨ x = (.cmp p v hw, p, 1 + v.val, opIs 0x26, hw) ∨ x = (.sel p v hw, p, 1 + v.val, opIs 0x27, hw) ∨
      x = (.div p v hw, p, 1 + v.val, opIs 0x28, hw) ∨ x = (.sqrt p v hw, p, 1 + v.val, opIs 0x29, hw) ∨ x = (.rsqrt p v hw, p, 1 + v.val, opIs 0x2A, hw) ∨
      x = (.act p v hw, p, 1 + v.val, opIs 0x2B, hw) ∨ x = (.cvt p v hw, p, 1 + v.val, opIs 0x2C, hw) ∨ x = (.qnt p v hw, p, 1 + v.val, opIs 0x2D, hw) ∨
      x = (.dqnt p v hw, p, 1 + v.val, opIs 0x2E, hw),
    fun x => ∃ (p : PWing) (v : Fin 6) (hw : Hw), x = (.lnorm p v hw, p, 1 + v.val, opIs 0x30, hw) ∨ x = (.rmsnorm p v hw, p, 1 + v.val, opIs 0x31, hw) ∨
      x = (.softmax p v hw, p, 1 + v.val, opIs 0x32, hw) ∨ x = (.maxpool p v hw, p, 1 + v.val, opIs 0x34, hw) ∨
      x = (.avgpool p v hw, p, 1 + v.val, opIs 0x35, hw) ∨ x = (.gpool p v hw, p, 1 + v.val, opIs 0x36, hw) ∨
      x = (.argmax p v hw, p, 1 + v.val, opIs 0x38, hw) ∨ x = (.topk p v hw, p, 1 + v.val, opIs 0x39, hw) ∨
      x = (.gather p v hw, p, 1 + v.val, opIs 0x3A, hw) ∨ x = (.hist p v hw, p, 1 + v.val, opIs 0x3B, hw) ∨
      x = (.colstat p v hw, p, 1 + v.val, opIs 0x3C, hw) ∨ x = (.zcomp p v hw, p, 1 + v.val, opIs 0x3E, hw) ∨
      x = (.zdec p v hw, p, 1 + v.val, opIs 0x3F, hw) ∨ x = (.verdict p v hw, p, 1 + v.val, opIs 0x40, hw)]
  ∀ row ∈ rows, ∀ (i : Instr) (p : PWing) (qi : Nat) (want : WingPlan → Cmd → Bool) (hw : Hw), row (i, p, qi, want, hw) →
    ∀ (s : State) (w : Work) (be : Bool) (idx : Nat) (c : Cmd) (e : Eng) (t : Nat) (v u : State),
      dieUp s = true → (s.phys[p]).work = some w → t = cyclesNow (advance s hw.dt) w - hw.cycles →
      queueHead s p w qi t = some (be, idx, c) → want (wingPlan s w.lw) c = true → (be = true ∨ startsLate s w c t = false) →
      hw.fail = none → hw.uncorr = [] → v = linkErrors (advance s hw.dt) hw →
      u = violations (worldHits v (issueOf v w qi be idx c)).length v → evalCmd u p w qi be idx c = .ok e →
      exec i s = .next (completeCmd u p w qi be c e) ∧
      (be = false → ∃ x, ((completeCmd u p w qi be c e).phys[p]).work = some x ∧ x.lc = vUpd w.lc qi List.tail ∧ x.prog = vUpd w.prog qi (· + 1))

/-- NOP and SYNC only wait, signal their token, count and leave their queue (R71, R254, R257, R267, R273,
07_plans_classes_determinism.md). With DRAM and the Wing's Gallery in the canonical form of memory, a latency-critical NOP or SYNC
at the head of its queue whose wait is met and which passes every check takes itself off the queue, counts one completed command,
raises the token it signals by one up to 65,535 and marks no Carried region; but for that Wing's work and C, the D8 is as it was.
-/
def Obligations.QueueOrderAndTokens : Prop :=
  ∀ (sync : Bool) (p : PWing) (q : Queue) (hw : Hw) (s : State) (w : Work) (idx : Nat) (c : Cmd) (e : Eng),
    dieUp s = true → hw.fail = none → hw.corr = [] → hw.uncorr = [] → (s.phys[p]).work = some w → w.shadow = false →
    Memory.wf s.mem.dram → Memory.wf (s.phys[p]).gallery →
    queueHead s p w (queueIdx q) (cyclesNow (advance s hw.dt) w - hw.cycles) = some (false, idx, c) →
    startsLate s w c (cyclesNow (advance s hw.dt) w - hw.cycles) = false →
    c.opcode = (if sync then 0x01 else 0x00) → (∀ j, opAbsent c j = true) →
    evalCmd (linkErrors (advance s hw.dt) hw) p w (queueIdx q) false idx c = .ok e →
    ∃ t, exec (if sync then .sync p q hw else .nop p q hw) s = .next t ∧ t = { advance s hw.dt with phys := t.phys } ∧
      (∀ r : Fin 8, r ≠ p → t.phys[r] = s.phys[r]) ∧
      ∃ w', t.phys[p] = { s.phys[p] with work := some w' } ∧ w'.lc = vUpd w.lc (queueIdx q) List.tail ∧
        w'.prog = vUpd w.prog (queueIdx q) (· + 1) ∧
        w'.tok = (if cSigEn c then vUpd w.tok c.sigTok fun n => Nat.min 65535 (n + 1) else w.tok) ∧ w'.be = w.be ∧ w'.written = w.written

/-- A failed check of a latency-critical command uses no result and waits for its repeat (R169, R250, R412, R413, R419, R446,
11_integrity_and_the_spare_wing.md). When the silicon reports a failed check of a queue's latency-critical head, the command stays
in its queue with its failure recorded for the repeat at the time of the failure, no memory changes, and nothing more issues from
the queue until the repeat. -/
def Obligations.FailedCheckWaits : Prop :=
  ∀ (p : PWing) (qi : Nat) (want : WingPlan → Cmd → Bool) (hw : Hw) (f : CheckFail) (s u : State) (w : Work) (idx : Nat) (c : Cmd),
    dieUp s = true → (s.phys[p]).work = some w → w.beJob = none →
    queueHead s p w qi (cyclesNow (advance s hw.dt) w - hw.cycles) = some (false, idx, c) →
    want (wingPlan s w.lw) c = true → startsLate s w c (cyclesNow (advance s hw.dt) w - hw.cycles) = false → hw.fail = some f →
    u = engineStep p qi want hw s →
    u.mem.dram = s.mem.dram ∧ (u.phys[p]).gallery = (s.phys[p]).gallery ∧ (u.phys[p]).tiles = (s.phys[p]).tiles ∧ u.c = (advance s hw.dt).c ∧
      ∃ (w' : Work) (x : Failing), (u.phys[p]).work = some w' ∧ w'.lc = w.lc ∧ w'.failing = w.failing ++ [x] ∧ x.queue = qi ∧ x.index = idx ∧
        x.cmd = c ∧ x.fail = f ∧ x.atT = timeT (advance s hw.dt) ∧ headLc w' qi = none

/-- What COPY and FILL store (R99, R260, 07_plans_classes_determinism.md). The body of a FILL that completes stores the 32-bit pattern
of W4 over the extent of C from its first byte on, and changes no other byte of any space. That of a COPY between row layouts of
one shape with whole-byte elements gives each element of C the code that A's element of the same position held before, and changes
no byte of another space. -/
def Obligations.TransferResults : Prop :=
  (∀ (i : Issue) (e f : Eng) (b : Opnd), i.cmd.opcode = 0x09 → operand i 2 = .ok (some b) → b.space < 8 → opBody i e = .ok f →
    (∀ x : Nat, engRead f b.space x = if b.addr ≤ x ∧ x < b.addr + dExtent b.d then
      BitVec.ofNat 8 (pw i.cmd 4 >>> (8 * ((x - b.addr) % 4))) else engRead e b.space x) ∧
    ∀ sp x : Nat, sp ≠ b.space → engRead f sp x = engRead e sp x) ∧
  ∀ (i : Issue) (e f : Eng) (a b : Opnd), i.cmd.opcode = 0x08 → operand i 0 = .ok (some a) → operand i 2 = .ok (some b) → b.space < 8 →
    dRow a.d = true → dRow b.d = true → b.d.d0 ≤ b.d.pitch → b.d.d0 = a.d.d0 → b.d.d1 = a.d.d1 → 8 ≤ fmtBits (dFmt b.d) → dFmt a.d = dFmt b.d →
    opBody i e = .ok f →
    (∀ r c : Nat, r < b.d.d1 → c < b.d.d0 → getCode f b (rowIdx b.d r c) = getCode e a (rowIdx a.d r c) % 2 ^ fmtBits (dFmt b.d)) ∧
    ∀ sp x : Nat, sp ≠ b.space → engRead f sp x = engRead e sp x

/-- A repeat that passes uses the result and counts a transient fault; one that fails confirms the fault (R168, R271, R413, R416,
R419, R420, R421, 11_integrity_and_the_spare_wing.md). A failing command whose repeat is admitted, from the first command of its
chain on, and passes completes with the results of its repeat, delta grows by the repeat's cycles, each command's summary is
logged, a report with the first summary and the last of the repeat is written and the transient fault is counted. A repeat that
fails confirms a persistent fault, as does one that would exceed the slack: the Wing is fenced in role 5 without work, and the
persistent counter grows. -/
def Obligations.CommandRepeats : Prop :=
  (∀ (p : PWing) (q : Queue) (dt cycles : Nat) (s u : State) (w w' : Work) (f : Failing) (x : Nat × Cmd) (xs : List (Nat × Cmd))
      (sums : List (List Byte)) (e : Eng),
    dieUp s = true → (s.phys[p]).work = some w → failingOn w (queueIdx q) = some f → f.halted = false →
    w.delta + repeatWcc w f ≤ sigmaK (planOf s) → w' = { w with delta := w.delta + cycles } →
    u = updPhys (advance s dt) p (fun y => { y with work := some w' }) → repeatCmds w' f = x :: xs →
    repeatRun u p (queueIdx q) w' x xs = (sums, .ok e) →
    ∃ r : Report, r.first = f.summary ∧ r.again = sums.getLastD [] ∧ r.cmdIndex = f.index ∧ r.time = f.atT ∧ r.outcome = 0 ∧
      exec (.commandRepeat p q (.pass dt cycles)) s = .next (countTransient (addReport
        (completeCmd (sums.foldl (fun v b => logSummary v p b) u) p w' (queueIdx q) false f.cmd e) r) p)) ∧
  (∀ (v : State) (p : PWing), (countTransient v p).int.transient = incW v.int.transient ∧ bit (countTransient v p).int.status.toNat 0 = true) ∧
  (∀ (p : PWing) (q : Queue) (dt cycles : Nat) (g : CheckFail) (s : State) (w : Work) (f : Failing),
    dieUp s = true → (s.phys[p]).work = some w → failingOn w (queueIdx q) = some f → f.halted = false →
    w.delta + repeatWcc w f ≤ sigmaK (planOf s) → f.fail.block = none → g.block = none → f.fail.unit ≤ 9 →
    ∃ t, exec (.commandRepeat p q (.fail g dt cycles)) s = .next t ∧ (t.phys[p]).role = 5 ∧ (t.phys[p]).work = none ∧ t.c = (advance s dt).c ∧
      (t.phys[p]).softReset = some t.c ∧ t.int.persist = incW s.int.persist) ∧
  ∀ (p : PWing) (q : Queue) (r : Repeat) (s : State) (w : Work) (f : Failing),
    dieUp s = true → (s.phys[p]).work = some w → failingOn w (queueIdx q) = some f → f.halted = false →
    sigmaK (planOf s) < w.delta + repeatWcc w f → f.fail.block = none → f.fail.unit ≤ 9 →
    ∃ t, exec (.commandRepeat p q r) s = .next t ∧ (t.phys[p]).role = 5 ∧ (t.phys[p]).work = none ∧ t.c = s.c ∧ t.int.persist = incW s.int.persist

/-- A late start or a missed checkpoint is a progress fault of the Wing (R539, R540, R541, R422,
14_resets_power_states_and_records.md). A queue whose next latency-critical command has not started by its slot, or that has
completed fewer commands than a checkpoint asks for, fences its Wing in role 5 with the progress fault counted in PWR_PROG and the
persistent counter, with C no earlier than the deadline; a missed checkpoint that an Assembler copy alone causes counts a progress
fault and resets the compute die with cause 0x05. -/
def Obligations.HangChecks : Prop :=
  (∀ (p : PWing) (q : Queue) (s : State) (w : Work) (x : Nat × Cmd), dieUp s = true → (s.phys[p]).work = some w →
    ((vGet? w.lc (queueIdx q)).getD []).head? = some x → failingOn w (queueIdx q) = none →
    ∃ t, exec (.latestStartMiss p q) s = .next t ∧ (t.phys[p]).role = 5 ∧ (t.phys[p]).work = none ∧ t.pwr.prog = incW s.pwr.prog ∧
      t.int.persist = incW s.int.persist ∧
      t.c = (reach s (cycleC s w (x.2.slot + w.delta + (if w.loaded then (wingPlan s w.lw).tLoad else 0) + 1))).c) ∧
  (∀ (p : PWing) (q : Queue) (j n d : Nat) (s : State) (w : Work), dieUp s = true → (s.phys[p]).work = some w →
    ((tableOf (wingPlan s w.lw) w.beat).checks.filter fun c => c.1 == queueIdx q)[j]? = some (queueIdx q, n, d) →
    (vGet? w.prog (queueIdx q)).getD 0 < n → waitsAssembler s w (queueIdx q) = false →
    ∃ t, exec (.progressCheckpointMiss p q j) s = .next t ∧ (t.phys[p]).role = 5 ∧ (t.phys[p]).work = none ∧ t.pwr.prog = incW s.pwr.prog ∧
      t.int.persist = incW s.int.persist ∧
      t.c = (reach s (cycleC s w (d + w.delta + (planOf s).omega + (if w.loaded then (wingPlan s w.lw).tLoad else 0)))).c) ∧
  ∀ (p : PWing) (q : Queue) (j n d : Nat) (s : State) (w : Work), dieUp s = true → (s.phys[p]).work = some w →
    ((tableOf (wingPlan s w.lw) w.beat).checks.filter fun c => c.1 == queueIdx q)[j]? = some (queueIdx q, n, d) →
    (vGet? w.prog (queueIdx q)).getD 0 < n → waitsAssembler s w (queueIdx q) = true →
    ∃ t, exec (.progressCheckpointMiss p q j) s = .next t ∧ t.pwr.dieSince = some t.c ∧ t.pwr.prog = incW s.pwr.prog ∧ t.ret.lastCause = 0x05 ∧
      t.c = (reach s (cycleC s w (d + w.delta + (planOf s).omega + (if w.loaded then (wingPlan s w.lw).tLoad else 0)))).c

/-- Fencing a Wing, its soft reset, and the isolation that follows a failed one (R422, R428, R447, R541, R542,
11_integrity_and_the_spare_wing.md). Fencing a Wing sets role 5, empties it, starts its soft reset and increments its generation,
one more fence counted up to 15, and no other Wing changes. A soft reset that completes within 10 µs starts the diagnostic test at
step 2; one that does not closes the clamps, with C no earlier than 10 µs after its start; the acknowledgement then gates the
Wing, drops its soft repairs and gives it role 6 at the next Landing, and besides only records and a report are written. -/
def Obligations.FencingEscalates : Prop :=
  (∀ (s : State) (p : PWing) (a b : Nat),
    ((isolate s p a b).phys[p]) = { s.phys[p] with
      work := none, gen := ((s.phys[p]).gen + 1) % 16, role := 5, logical := 0, softReset := some s.c, clamping := false, bist := none, nextRole := none
      gallery := [], tiles := Vector.replicate 6 [], tileWritten := Vector.replicate 6 [], galBad := [], tileBad := Vector.replicate 6 []
      fences := Nat.min 15 ((s.phys[p]).fences + 1), faultCause := b
      missed := 0 } ∧ ∀ q : Fin 8, q ≠ p → (isolate s p a b).phys[q] = s.phys[q]) ∧
  (∀ (p : PWing) (s : State) (c : Nat), dieUp s = true → (s.phys[p]).softReset = some c → (s.phys[p]).clamping = false → s.c ≤ c + 10000 →
    exec (.softResetComplete p) s = .next (updPhys s p fun x => { x with softReset := none, bist := some { step := 2, until' := 5, diag := true } })) ∧
  (∀ (p : PWing) (s : State) (c : Nat), dieUp s = true → (s.phys[p]).softReset = some c → (s.phys[p]).clamping = false →
    exec (.softResetTimeout p) s = .next (updPhys (reach s (c + 10000)) p fun x => { x with clamping := true })) ∧
  ∀ (p : PWing) (s : State), dieUp s = true → (s.phys[p]).clamping = true →
    ∃ t, exec (.isolationAck p) s = .next t ∧
      ReportsOnly (updPhys s p fun x =>
        { x with softReset := none, clamping := false, gated := true, nextRole := some 6, rowsUsed := 0, colsUsed := 0, repairs := 0 }) t

/-- A requested test starts, its steps pass on, and its last step gives its result (R75, R428, R437, R438, R439, R440, R441, R454,
R456, 11_integrity_and_the_spare_wing.md). In spare mode outside hold, a secure request for a ready spare shows start and gives it
role 3 at the next Landing, or at step 1 of the background test at once while no Beats are issued; one for a Wing in test or in a
handover is refused with result 7. In hold a request for a Wing that is not in test starts the diagnostic test at step 2. A
passing step goes on to the next; the last passing step ends a background test with result 1 and role 2 at the next Landing. A
failing checker in step 2 ends the test with result 5 and one more report number, and a void step changes nothing. -/
def Obligations.SelfTests : Prop :=
  (∀ (a : Acc) (p : Fin 8) (s : State), running s = true → dieBlocked s = false → a.secure = true → s.tst.bistStart = false → s.sec.phase ≠ 7 →
    (planOf s).noSpare = false → (s.phys[p]).role = 2 → (s.phys[p]).bist = none → (s.phys[p]).softReset = none → (s.phys[p]).nextRole = none →
    exec (.bistStart a p) s = .next (updPhys { s with tst := { s.tst with bistWing := p, bistFor := p, bistStart := true } } p
      fun x => if s.esc.phase = .off then { x with role := 3, bist := some { step := 1, until' := 6 } } else { x with nextRole := some 3 })) ∧
  (∀ (a : Acc) (p : Fin 8) (s : State), running s = true → dieBlocked s = false → a.secure = true → s.tst.bistStart = false → s.sec.phase ≠ 7 →
    ((s.phys[p]).role = 3 ∨ (s.phys[p]).role = 4) →
    exec (.bistStart a p) s = .next (updPhys { s with tst := { s.tst with bistWing := p, bistFor := p, bistStart := false } } p
      fun x => { x with bistResult := 7 })) ∧
  (∀ (a : Acc) (p : Fin 8) (s : State), running s = true → dieBlocked s = false → a.secure = true → s.tst.bistStart = false → s.sec.phase = 7 →
    (s.phys[p]).bist = none → (s.phys[p]).softReset = none → (s.phys[p]).nextRole = none →
    exec (.bistStart a p) s = .next (updPhys { s with tst := { s.tst with bistWing := p, bistFor := p, bistStart := true } } p
      fun x => { x with bist := some { step := 2, until' := 5 } })) ∧
  (∀ (p : PWing) (b : Bist) (s : State), running s = true → (s.phys[p]).bist = some b → b.abort = false → b.step < b.until' →
    (s.phys[p]).rowsUsed ≤ 255 → (s.phys[p]).colsUsed ≤ 255 →
    exec (.bistStepComplete p .pass) s = .next (updPhys s p fun x => { x with bist := some { b with step := b.step + 1 } })) ∧
  (∀ (p : PWing) (b : Bist) (s : State), running s = true → (s.phys[p]).bist = some b → b.abort = false → b.until' = 6 → 6 ≤ b.step → b.repaired = false →
    (s.phys[p]).rowsUsed ≤ 255 → (s.phys[p]).colsUsed ≤ 255 →
    ∃ t, exec (.bistStepComplete p .pass) s = .next t ∧
      t.phys[p] = { s.phys[p] with bist := none, bistResult := 1, tested := true, nextRole := some 2, lastPass := s.esc.beat } ∧
      t.tst.bistStart = (s.tst.bistStart && s.tst.bistFor != p.val) ∧ t.mem = s.mem ∧ t.c = s.c ∧ ∀ q : Fin 8, q ≠ p → t.phys[q] = s.phys[q]) ∧
  (∀ (p : PWing) (b : Bist) (s : State), running s = true → (s.phys[p]).bist = some b → b.step = 2 →
    ∃ t, exec (.bistStepComplete p .checker) s = .next t ∧ (t.phys[p]).bist = none ∧ (t.phys[p]).bistResult = 5 ∧
      bit t.int.status.toNat 8 = true ∧ t.int.reportSeq = (s.int.reportSeq + 1) % 2 ^ 32 ∧ t.mem = s.mem) ∧
  ∀ (p : PWing) (b : Bist) (s : State), running s = true → (s.phys[p]).bist = some b → exec (.bistStepComplete p .void) s = .next s

/-- A burn starts only under its conditions, and its end programs the entries of every Wing (R442, R455,
11_integrity_and_the_spare_wing.md). A secure burn request outside hold and phase 2 is refused with reason 1; voltages outside
their ranges give reason 2; a temperature outside 0 to 85 degrees reason 3; a full repair area reason 4; otherwise the burn runs.
A good read-back adds each Wing's soft repairs to its used entries and clears them, and reports done; a failed one reports reason
5, with no used entry less than before and each Wing's used entries and soft repairs the same in sum. -/
def Obligations.FuseRepair : Prop :=
  (∀ (a : Acc) (mv mw : Nat) (s : State), running s = true → dieBlocked s = false → a.secure = true → s.tst.fuseState ≠ 1 →
    exec (.fuseBurn a mv mw) s = .next { s with tst := { s.tst with
      fuseState := if (s.sec.phase = 7 ∨ s.sec.phase = 2) ∧ (1750 ≤ mv ∧ mv ≤ 1850 ∧ 735 ≤ mw ∧ mw ≤ 765) ∧ (0 ≤ s.therm.tj ∧ s.therm.tj ≤ 680) ∧
        (∀ p : Fin 8, s.fuse.repairUsed[p] + (s.phys[p]).repairs ≤ 512) then 1 else 3
      fuseReason := if ¬ (s.sec.phase = 7 ∨ s.sec.phase = 2) then 1 else if ¬ (1750 ≤ mv ∧ mv ≤ 1850 ∧ 735 ≤ mw ∧ mw ≤ 765) then 2
        else if ¬ (0 ≤ s.therm.tj ∧ s.therm.tj ≤ 680) then 3
        else if ∀ p : Fin 8, s.fuse.repairUsed[p] + (s.phys[p]).repairs ≤ 512 then 0 else 4 } }) ∧
  (∀ s : State, s.tst.fuseState = 1 → ∃ t, exec (.fuseBurnComplete true) s = .next t ∧ t.tst = { s.tst with fuseState := 2, fuseReason := 0 } ∧
    (∀ p : Fin 8, t.fuse.repairUsed[p] = s.fuse.repairUsed[p] + (s.phys[p]).repairs ∧ t.phys[p] = { s.phys[p] with repairs := 0 }) ∧
    t.mem = s.mem ∧ t.sec = s.sec ∧ t.c = s.c) ∧
  ∀ s : State, s.tst.fuseState = 1 → ∃ t, exec (.fuseBurnComplete false) s = .next t ∧ t.tst = { s.tst with fuseState := 3, fuseReason := 5 } ∧
    ∀ p : Fin 8, s.fuse.repairUsed[p] ≤ t.fuse.repairUsed[p] ∧
      t.fuse.repairUsed[p] + (t.phys[p]).repairs = s.fuse.repairUsed[p] + (s.phys[p]).repairs

/-- Supply warnings, recoveries and VDD_W setpoint changes (R434, R435, R592, R593, 16_pins_power_and_package.md). A warning on VDD_W
or VDD_G only lists the rail with the C of the warning; on another rail it also leaves records. A recovered dip ends after 200 ns
with the rail no longer low, the droop counted with its least voltage and flag, and one more report, kept while the integrity log
has room; another rail's recovery only takes it off the lists of low rails. An answered setpoint from 600 to 800 mV takes effect
with the change open until its completion, and one unanswered stops all further changes and leaves records. -/
def Obligations.SupplyMonitors : Prop :=
  (∀ (r : Rail) (mv : Nat) (s : State), (∀ x ∈ s.supply.low, x.1 ≠ r) → wingRail r = true →
    exec (.supplyWarning r mv) s = .next { s with supply := { s.supply with low := s.supply.low ++ [(r, s.c)] } }) ∧
  (∀ (r : Rail) (mv : Nat) (s : State), (∀ x ∈ s.supply.low, x.1 ≠ r) → running s = true → wingRail r = false →
    ∃ t, exec (.supplyWarning r mv) s = .next t ∧ RecordsOnly { s with supply := { s.supply with low := s.supply.low ++ [(r, s.c)] } } t) ∧
  (∀ (r : Rail) (mv us cy c : Nat) (s : State), (r, c) ∈ s.supply.low → r ∉ s.supply.down → wingRail r = true → running s = true →
    ∃ t, exec (.supplyRecover r mv us cy) s = .next t ∧ t.c = (advance s 200).c ∧ (∀ x ∈ t.supply.low, x.1 ≠ r) ∧
      t.int.droopCnt = incW s.int.droopCnt ∧ t.int.droopMin = Nat.min s.int.droopMin (Nat.min 0xFFFF mv) ∧ bit t.int.status.toNat 7 = true ∧
      t.int.reportSeq = (s.int.reportSeq + 1) % 2 ^ 32 ∧ (s.ret.intLog.length < 512 → ∃ x, t.ret.intLog = s.ret.intLog ++ [x]) ∧
      t.mem = s.mem ∧ t.phys = s.phys) ∧
  (∀ (r : Rail) (mv us cy c : Nat) (s : State), (r, c) ∈ s.supply.low → wingRail r = false →
    ∃ t, exec (.supplyRecover r mv us cy) s = .next t ∧ t = { advance s 200 with supply := t.supply } ∧
      t.supply.low = (s.supply.low.filter fun x => x.1 != r) ∧ r ∉ t.supply.down) ∧
  (∀ (mv : Nat) (s : State), running s = true → s.supply.stopped = false → 600 ≤ mv → mv ≤ 800 →
    exec (.avsSetpointChange mv true) s = .next { s with supply := { s.supply with setpoint := mv, change := some (s.supply.setpoint, s.c) } } ∧
    ∃ t, exec (.avsSetpointChange mv false) s = .next t ∧ RecordsOnly { s with supply := { s.supply with stopped := true } } t) ∧
  ∀ s : State, exec .avsSetpointComplete s = .next { s with supply := { s.supply with change := none } }

/-- Temperatures outside the grade (R2, R4, R600, 16_pins_power_and_package.md). At or above the grade's maximum the D8 drives
SYS_THERM_N low and records the reading, below its minimum it only records it, and besides both leave records only. In a device
that is not held, at 5 degrees below the maximum the reading is recorded, the pin is released and the trip is over, and nothing
else changes. -/
def Obligations.Temperature : Prop :=
  (∀ (tj : Int) (s : State), tjMax s ≤ tj →
    ∃ t, exec (.thermalHigh tj) s = .next t ∧ RecordsOnly { s with therm := { s.therm with tj := tj }, pins := { s.pins with thermLow := true } } t) ∧
  (∀ (tj : Int) (s : State), tj < tjMin s → ∃ t, exec (.thermalLow tj) s = .next t ∧ RecordsOnly { s with therm := { s.therm with tj := tj } } t) ∧
  ∀ (tj : Int) (s : State), tj ≤ tjMax s - 40 → s.pwr.held = false →
    exec (.thermalRecover tj) s = .next { s with
      therm := { s.therm with tj := tj }, pins := { s.pins with thermLow := false }, pwr := { s.pwr with hot := false } }

/-- The stages of a link attempt, from the power delay to the end of the error-rate check (R299, R303, R304, R305, R306, R316, R319,
08_camera_lanes_and_coaxpress.md). The first attempt of a powered port drives its enable and waits pwr_delay, after which its
lanes wake at CXP-1 with only the master lane's transmitter on. Lock goes on to the revision read, and at the target speed, with
the uplink changed if the entry selects it, to the error-rate check when the set-up sequence is empty. A revision that is high
enough goes on to the connection IDs. A wait acknowledgement holds the command for at most 10 s, a command unanswered after 200 ms
or after its announced time is sent again up to three times, the last WAIT step goes on to the check, and a good error-rate check
leaves the port in state 3, waiting for the Landing; the check at start also leaves one event for each lane (R503). -/
def Obligations.CameraAttempts : Prop :=
  let Sent := fun (s : State) (p : Port) (e : CamEntry) (op : CtlOp) =>
    s.cam.ctrl ++ [{ port := p.val, lane := e.laneBase, tagged := decide (0x0200 ≤ (s.cam.port[p]).rev), op := op : CtlPacket }]
  (∀ (p : Port) (e : CamEntry) (s : State), running s = true → s.sec.phase = 5 ∨ s.sec.phase = 6 → (s.cam.port[p]).state = 0 → (s.cam.port[p]).fault = false →
    faultAsserted s p = false → camEntry s p = some e → e.pocxp = true → (s.cam.port[p]).enable ≠ some true →
    exec (.attemptStart p) s = .next (updPort s p fun x =>
      { x with state := 1, stage := .power, enable := some true, cycling := false, holdC := s.c, sends := 0, waiting := none, connIds := []
               rev := 0, badHdr := false, first := x.first && atStart s })) ∧
  (∀ (p : Port) (e : CamEntry) (s : State), (s.cam.port[p]).stage = .power → camEntry s p = some e →
    ∃ t, exec (.pwrDelayExpiry p) s = .next t ∧ t.c = (reach s ((s.cam.port[p]).holdC + e.pwrDelay * 1000000)).c ∧
      t.cam.port[p] = { s.cam.port[p] with stage := .lock false, holdC := t.c, speed := 1, fast := false } ∧
      (∀ l : Fin 32, t.cam.lane[l] = if (camLanes e).contains l.val then
        { s.cam.lane[l] with rx := 2, tx := l.val == (camLanes e).headD 0, locked := false } else s.cam.lane[l]) ∧
      t = { s with c := t.c, cam := t.cam }) ∧
  (∀ (p : Port) (e : CamEntry) (s : State), (s.cam.port[p]).stage = .lock false → camEntry s p = some e →
    ∃ t, exec (.laneLock p) s = .next t ∧ t.cam.port[p] = { s.cam.port[p] with stage := .revision, sends := 1, waiting := none, holdC := s.c } ∧
      (∀ l : Fin 32, (camLanes e).contains l.val = true → (t.cam.lane[l]).locked = true) ∧ t.cam.ctrl = Sent s p e .readRevision ∧
      t = { s with cam := t.cam }) ∧
  (∀ (p : Port) (e : CamEntry) (s : State), (s.cam.port[p]).stage = .lock true → camEntry s p = some e → e.seq = [] →
    ∃ t, exec (.laneLock p) s = .next t ∧
      t.cam.port[p] = { s.cam.port[p] with stage := .check, sends := 1, waiting := none, holdC := s.c, fast := e.hsUplink } ∧
      (∀ l : Fin 32, (camLanes e).contains l.val = true → (t.cam.lane[l]).locked = true) ∧ t = { s with cam := t.cam }) ∧
  (∀ (p : Port) (e : CamEntry) (v : Nat) (s : State), (s.cam.port[p]).stage = .revision → camEntry s p = some e → e.minRev ≤ v →
    ∃ t, exec (.controlAck p (.ok v)) s = .next t ∧
      t.cam.port[p] = { s.cam.port[p] with stage := .connId 0, sends := 1, waiting := none, holdC := s.c, rev := v } ∧
      t.cam.lane = s.cam.lane ∧ t = { s with cam := t.cam }) ∧
  (∀ (p : Port) (e : CamEntry) (ms : Nat) (s : State), controlStage (s.cam.port[p]).stage = true → camEntry s p = some e →
    exec (.controlAck p (.wait ms)) s = .next (updPort s p fun x => { x with waiting := some (s.c + Nat.min ms 10000 * 1000000) })) ∧
  (∀ (p : Port) (s : State), controlStage (s.cam.port[p]).stage = true → (s.cam.port[p]).waiting = none → (s.cam.port[p]).sends < 3 →
    exec (.controlTimeout p) s = .next (sendControl (updPort (reach s ((s.cam.port[p]).holdC + 200000000)) p fun x =>
      { x with sends := x.sends + 1, waiting := none, holdC := (reach s ((s.cam.port[p]).holdC + 200000000)).c }) p)) ∧
  (∀ (p : Port) (c : Nat) (s : State), controlStage (s.cam.port[p]).stage = true → (s.cam.port[p]).waiting = some c → (s.cam.port[p]).sends < 3 →
    exec (.waitAckExpiry p) s = .next (sendControl (updPort (reach s c) p fun x =>
      { x with sends := x.sends + 1, waiting := none, holdC := (reach s c).c }) p)) ∧
  (∀ (p : Port) (e : CamEntry) (j : Nat) (s : State), (s.cam.port[p]).stage = .wait j → camEntry s p = some e → e.seq[j + 1]? = none →
    ∃ t, exec (.setupWaitExpiry p) s = .next t ∧ (t.cam.port[p]).stage = .check ∧ t = { s with c := t.c, cam := t.cam }) ∧
  ∀ (p : Port) (e : CamEntry) (s : State), (s.cam.port[p]).stage = .check → camEntry s p = some e →
    ∃ t, exec (.errorRateCheckDone p true) s = .next t ∧
      t.cam.port[p] = { s.cam.port[p] with state := 3, stage := .idle, attempts := 0, first := false } ∧
      t.c = (reach s ((s.cam.port[p]).holdC + checkNs s p e)).c ∧
      ((s.cam.port[p]).first = false → t = { s with c := t.c, cam := t.cam }) ∧
      ((s.cam.port[p]).first = true → t.freeCtr = s.freeCtr + (portLanes s p).length)

/-- A failed attempt holds off, power-cycles after every third, and gives up at relink_max (R303, R304, R306, R316, R318, R320,
08_camera_lanes_and_coaxpress.md). A failed attempt of a port with no fault latched records its cause and C, counts, and puts
the lanes to sleep: hold-off, with a power cycle after every third failure of a powered port, or given up with an alarm at
relink_max; a port without the required flag that fails at start stays down (log entry 79). A lock timeout fails with cause 1
after 100 ms and a refused command with cause 8 and its step. After the hold-off a new attempt starts unless the fault input holds
the port. -/
def Obligations.CameraFailures : Prop :=
  (∀ (p : Port) (e : CamEntry) (k : Nat) (s : State), camEntry s p = some e → (s.cam.port[p]).fault = false →
    (e.relinkMax = 0 ∨ (s.cam.port[p]).attempts + 1 < e.relinkMax) → (e.required = true ∨ (s.cam.port[p]).first = false ∨ atStart s = false) →
    (failAttempt s p k).cam.port[p] = { s.cam.port[p] with
      state := 2, stage := .idle, speed := 0, fast := false, cause := k, attempts := (s.cam.port[p]).attempts + 1, holdC := s.c, waiting := none, sends := 0
      cycling := e.pocxp && ((s.cam.port[p]).attempts + 1) % 3 == 0
      enable := if e.pocxp && ((s.cam.port[p]).attempts + 1) % 3 == 0 then some false else (s.cam.port[p]).enable } ∧
    (∀ l : Fin 32, (camLanes e).contains l.val = true → ((failAttempt s p k).cam.lane[l]).rx = 1 ∧ ((failAttempt s p k).cam.lane[l]).tx = false)) ∧
  (∀ (p : Port) (e : CamEntry) (k : Nat) (s : State), camEntry s p = some e → (s.cam.port[p]).fault = false →
    e.relinkMax ≠ 0 → e.relinkMax ≤ (s.cam.port[p]).attempts + 1 →
    ((failAttempt s p k).cam.port[p]).state = 5 ∧ ((failAttempt s p k).cam.port[p]).cause = k ∧ bit (failAttempt s p k).cam.status.toNat 1 = true ∧
    ∃ a ∈ (failAttempt s p k).net.alarms, a.code = 0x000A) ∧
  (∀ (p : Port) (e : CamEntry) (k : Nat) (s : State), camEntry s p = some e → (s.cam.port[p]).fault = false → (e.relinkMax = 0 ∨ (s.cam.port[p]).attempts + 1 < e.relinkMax) →
    e.required = false → (s.cam.port[p]).first = true → atStart s = true →
    ((failAttempt s p k).cam.port[p]).state = 5 ∧ ((failAttempt s p k).cam.port[p]).cause = k ∧ (failAttempt s p k).cam.status = s.cam.status ∧
    (failAttempt s p k).net = s.net) ∧
  (∀ (p : Port) (b : Bool) (s : State), (s.cam.port[p]).stage = .lock b →
    exec (.lockTimeout p) s = .next (failAttempt (reach s ((s.cam.port[p]).holdC + 100000000)) p 1)) ∧
  (∀ (p : Port) (e : CamEntry) (s : State), controlStage (s.cam.port[p]).stage = true → camEntry s p = some e →
    exec (.controlAck p .nack) s = .next (failAttempt s p 8 (stageStep (s.cam.port[p]).stage))) ∧
  ∀ (p : Port) (s : State), (s.cam.port[p]).state = 2 →
    exec (.holdoffExpiry p) s = .next (if (s.cam.port[p]).fault || faultAsserted s p then reach s (holdoffEnd s.cam.port[p])
      else startAttempt (reach s (holdoffEnd s.cam.port[p])) p)

/-- What takes a port down, and what a heartbeat and the port actions do (R295, R314, R315, R317, R318, R320, R323,
08_camera_lanes_and_coaxpress.md). A port that is up goes down when a lane loses lock, at 64 code errors, or in state 4 without a
heartbeat: state 2 with its cause, one more loss and generation, no line accepted, and alarm 0x0009. A heartbeat restarts the
supervision. An asserted fault input takes a port that is up down with its enable not driven high; its release clears the fault,
and starts an attempt at once when the hold-off is over. Secure relink and stop requests of a port that is up wait for the
Landing, and a relink of a port that was given up or stopped starts an attempt with its failures cleared. -/
def Obligations.CameraLosses : Prop :=
  let Down := fun (s t : State) (p : Port) (k : Nat) => (t.cam.port[p]).state = 2 ∧ (t.cam.port[p]).cause = k ∧ (t.cam.port[p]).accepting = false ∧
    (t.cam.port[p]).line = none ∧ (t.cam.port[p]).loss = incW (s.cam.port[p]).loss ∧ (t.cam.port[p]).gen = ((s.cam.port[p]).gen + 1) % 16 ∧
    bit t.cam.status.toNat 0 = true ∧ (∃ a ∈ t.net.alarms, a.code = 0x0009) ∧ t.mem.bad = s.mem.bad ∧ t.fuse = s.fuse ∧ t.phys = s.phys
  (∀ (l : Lane) (p : Port) (s : State), lanePort s l = some p → portUp s.cam.port[p] = true → ∃ t, exec (.lockLoss l) s = .next t ∧ Down s t p 1) ∧
  (∀ (l : Lane) (p : Port) (s : State), lanePort s l = some p → portUp s.cam.port[p] = true →
    ∃ t, exec (.codeErrorLimit l) s = .next t ∧ Down s t p 2 ∧ (t.cam.lane[l]).err = satInc (s.cam.lane[l]).err 64) ∧
  (∀ (p : Port) (e : CamEntry) (s : State), camEntry s p = some e → (s.cam.port[p]).state = 4 →
    ∃ t, exec (.heartbeatTimeout p) s = .next t ∧ Down s t p 3 ∧ t.c = (reach s ((s.cam.port[p]).lastHb + e.hbTimeout * 1000000)).c) ∧
  (∀ (p : Port) (dt : Nat) (s : State), (s.cam.port[p]).state = 4 →
    exec (.heartbeat p dt) s = .next (updPort (advance s dt) p fun x => { x with lastHb := (advance s dt).c })) ∧
  (∀ (p : Port) (s : State), faultAsserted s p = true → (s.cam.port[p]).fault = false → portUp s.cam.port[p] = true →
    ∃ t, exec (.faultInputAssert p) s = .next t ∧ Down s t p 4 ∧ (t.cam.port[p]).fault = true ∧ (t.cam.port[p]).enable ≠ some true) ∧
  (∀ (p : Port) (s : State), faultAsserted s p = false → (s.cam.port[p]).fault = true →
    exec (.faultInputDeassert p) s = .next (if (s.cam.port[p]).state = 2 ∧ holdoffEnd s.cam.port[p] ≤ s.c
      then startAttempt (updPort s p fun x => { x with fault := false }) p else updPort s p fun x => { x with fault := false })) ∧
  (∀ (a : Acc) (p : Port) (s : State), running s = true → a.secure = true → portUp s.cam.port[p] = true →
    exec (.relink a p) s = .next (updPort s p fun x => { x with relinkReq := true }) ∧
    exec (.stop a p) s = .next (updPort s p fun x => { x with stopReq := true })) ∧
  ∀ (a : Acc) (p : Port) (s : State), running s = true → a.secure = true → (s.cam.port[p]).state = 5 ∨ (s.cam.port[p]).state = 6 →
    exec (.relink a p) s = .next (startAttempt (updPort s p fun x => { x with attempts := 0, stopReq := false }) p)

/-- A line latches its tag, takes a FIFO entry or is dropped, and is eligible or corrupt at its end (R24, R281, R296, R307, R308, R309,
R310, R331, R333, 08_camera_lanes_and_coaxpress.md). The first packet of an accepted line latches the reference count as its tag
and takes one of four FIFO entries; with none free the line is counted as dropped and gets no entry. A packet of another stream is
counted and changes nothing else. A sound line of the right length joins the hash chain and the FIFO with its samples, its pixels
above their depth counted; a line with a wrong length, header, code or CRC joins the chain, is counted corrupt and becomes a fill
line. A header is compared and, while the port accepts lines, opens a frame; an event packet is counted and discarded. -/
def Obligations.LinesAccepted : Prop :=
  let Accepts := fun (p : Port) (n : Nat) (e : CamEntry) (i : IspEntry) (s : State) => camEntry s p = some e ∧ ispEntry s p = some i ∧
    portUp s.cam.port[p] = true ∧ n = e.streamId ∧ (s.cam.port[p]).accepting = true ∧ (s.cam.port[p]).line = none ∧
    (s.isp.cam[p]).frameLines < i.hF ∧ pipeInReset s p = false
  let Line := fun (s : State) (p : Port) (tag : Word) (ok : Bool) => (s.isp.cam[p]).fifo ++ [{
    tag := tag, flags := if ok then 0 else 1, ivl := s.esc.beat, row := (s.isp.cam[p]).frameLines, data := none, eligible := false, entry := ok : FifoLine }]
  (∀ (p : Port) (n dt : Nat) (e : CamEntry) (i : IspEntry) (s : State), Accepts p n e i s → occupied s p < 4 →
    ∃ t, exec (.lineFirstPacket p n dt) s = .next t ∧ (t.cam.port[p]).line = some { tag := refCount (advance s dt), stored := true } ∧
      (t.isp.cam[p]).fifo = Line s p (refCount (advance s dt)) true ∧ (t.isp.cam[p]).drop = (s.isp.cam[p]).drop ∧
      (t.isp.cam[p]).frameLines = (s.isp.cam[p]).frameLines + 1 ∧ t = { advance s dt with cam := t.cam, isp := t.isp }) ∧
  (∀ (p : Port) (n dt : Nat) (e : CamEntry) (i : IspEntry) (s : State), Accepts p n e i s → 4 ≤ occupied s p →
    ∃ t, exec (.lineFirstPacket p n dt) s = .next t ∧ (t.cam.port[p]).line = some { tag := refCount (advance s dt), stored := false } ∧
      (t.isp.cam[p]).drop = incW (s.isp.cam[p]).drop ∧ bit t.isp.status.toNat 0 = true ∧
      (t.isp.cam[p]).fifo = Line s p (refCount (advance s dt)) false ∧ t.mem = s.mem) ∧
  (∀ (p : Port) (n dt : Nat) (e : CamEntry) (i : IspEntry) (s : State), camEntry s p = some e → ispEntry s p = some i → portUp s.cam.port[p] = true →
    n ≠ e.streamId → exec (.lineFirstPacket p n dt) s = .next (updPort (advance s dt) p fun x => { x with ign := incW x.ign })) ∧
  (∀ (p : Port) (l : LineIn) (x : LineEnd) (dt : Nat) (e : CamEntry) (f : PixFmt) (s : State), (s.cam.port[p]).line = some l → camEntry s p = some e →
    pixFmt? e.pfnc = some f → x.bytes.length = lineBytes f e.width → (s.cam.port[p]).badHdr = false → x.codeBad = false → x.crcBad = 0 → l.cut = false →
    ∃ t, exec (.lineComplete p x dt) s = .next t ∧ (t.cam.port[p]).line = none ∧ (t.cam.port[p]).lines = ((s.cam.port[p]).lines + 1) % 2 ^ 64 ∧
      (t.cam.port[p]).fmt = (if overDepth f e.width x.bytes = 0 then (s.cam.port[p]).fmt else satInc (s.cam.port[p]).fmt (overDepth f e.width x.bytes)) ∧
      (t.cam.port[p]).corrupt = (s.cam.port[p]).corrupt ∧ t.isp = (fillEntry (advance s dt) p (some (unpack f e.width x.bytes))).isp ∧
      t.sealer.lines[p] = s.sealer.lines[p] ++ [leBytes 4 l.tag.toNat ++ leBytes 4 x.bytes.length ++ x.bytes] ∧ t.c = (advance s dt).c ∧ t.mem = s.mem) ∧
  (∀ (p : Port) (l : LineIn) (x : LineEnd) (dt : Nat) (e : CamEntry) (f : PixFmt) (s : State), (s.cam.port[p]).line = some l → camEntry s p = some e →
    pixFmt? e.pfnc = some f → x.bytes.length ≠ lineBytes f e.width ∨ (s.cam.port[p]).badHdr = true ∨ x.codeBad = true ∨ 0 < x.crcBad → l.cut = false →
    ∃ t, exec (.lineComplete p x dt) s = .next t ∧ (t.cam.port[p]).line = none ∧ (t.cam.port[p]).corrupt = incW (s.cam.port[p]).corrupt ∧
      (t.cam.port[p]).crc = satInc (s.cam.port[p]).crc x.crcBad ∧ bit t.cam.status.toNat 5 = true ∧
      t.sealer.lines[p] = s.sealer.lines[p] ++ [leBytes 4 l.tag.toNat ++ leBytes 4 x.bytes.length ++ x.bytes] ∧
      t.isp = (fillEntry (advance s dt) p none).isp ∧ t.mem = s.mem) ∧
  (∀ (p : Port) (h : Header) (e : CamEntry) (s : State), camEntry s p = some e → portUp s.cam.port[p] = true → (s.cam.port[p]).accepting = true →
    h.fmt &&& e.hdrMask = e.hdrCode → h.width = e.width → (s.isp.cam[p]).frameOpen = false →
    exec (.imageHeader p h) s = .next (updPort (updIsp s p fun c => { c with frameOpen := true, frameLines := 0, longSeen := false }) p
      fun x => { x with badHdr := false })) ∧
  (∀ (p : Port) (h : Header) (e : CamEntry) (s : State), camEntry s p = some e → (s.cam.port[p]).state = 3 → (s.cam.port[p]).accepting = false →
    h.width ≠ e.width → exec (.imageHeader p h) s = .next (countFmt (updPort s p fun x => { x with badHdr := true }) p 1)) ∧
  ∀ (p : Port) (s : State), portUp s.cam.port[p] = true →
    exec (.eventPacket p) s = .next (updPort s p fun x => { x with ign := incW x.ign })

/-- Pipes take lines in turn, and shadow tables are written and committed (R330, R335, R342, R343, R345, R369, R537, R539,
09_image_pipeline_and_objects.md). A pipe that finishes a line takes it off its FIFO, passes it through its stages and takes the
next line of the other input, or else of its own, ⌈n_c / 6⌉ cycles after it took the line, keeping fuses and camera ports. A line
that is not finished 4,096 cycles later than that resets the pipe with its generation up by one and the fault counted; the reset's
end frees it, input 0 first. A table word goes to the shadow
copy and the address moves on; a commit of a camera with no commit pending makes the group pending, and one with a pending group
sets the busy flag. -/
def Obligations.PipesAndTables : Prop :=
  let First := fun (s : State) (q : Pipe) (a b : Nat) => if (headLine s q a).isSome then some a else if (headLine s q b).isSome then some b else none
  (∀ (q : Pipe) (inp : Nat) (p : Port) (l : FifoLine) (e : IspEntry) (c : CamEntry) (f : PixFmt) (s u : State), s.isp.inReset[q] = false →
    currentLine s q = some (inp, p, l) → ispEntry s p = some e → camEntry s p = some c → pixFmt? c.pfnc = some f →
    u = processLine (updIsp (reach s (Nat.max l.since s.isp.freeC[q] + lineCycles s p)) p fun c => { c with fifo := c.fifo.drop 1 }) p e c.width f l →
    ∃ t, exec (.pipeLineDone q) s = .next t ∧
      t = { u with isp := { u.isp with busy := u.isp.busy.set q (First u q (1 - inp) inp), freeC := u.isp.freeC.set q u.c } } ∧
      (t.isp.cam[p]).fifo = (s.isp.cam[p]).fifo.drop 1 ∧ (t.isp.cam[p]).index = (s.isp.cam[p]).index + 1 ∧
      t.c = (reach s (Nat.max l.since s.isp.freeC[q] + lineCycles s p)).c ∧ t.fuse = s.fuse ∧ t.cam = s.cam) ∧
  (∀ (q : Pipe) (inp : Nat) (p : Port) (l : FifoLine) (s : State), dieUp s = true → currentLine s q = some (inp, p, l) → s.isp.inReset[q] = false →
    ∃ t, exec (.pipeLineTimeout q) s = .next t ∧ t.isp.inReset[q] = true ∧ t.pwr.genPipe[q] = (s.pwr.genPipe[q] + 1) % 16 ∧
      t.pwr.prog = incW s.pwr.prog ∧ t.mem = s.mem ∧ t.c = (reach s (l.since + lineCycles s p + 4096)).c) ∧
  (∀ (q : Pipe) (s : State), s.isp.inReset[q] = true →
    exec (.pipeResetComplete q) s = .next { s with isp := { s.isp with inReset := s.isp.inReset.set q false, busy := s.isp.busy.set q (First s q 0 1), freeC := s.isp.freeC.set q s.c } }) ∧
  (∀ (a : Acc) (v : Word) (e : IspEntry) (p : Port) (s : State), running s = true → dieBlocked s = false → bits s.isp.tblAddr 20 4 = p.val →
    ispEntry s p = some e → bits s.isp.tblAddr 0 20 < tableWords s p (bits s.isp.tblAddr 24 3) →
    (bits s.isp.tblAddr 24 3 = 3 → e.calEn = false ∧ (s.isp.cam[p]).gainSt = 0) → (bits s.isp.tblAddr 24 3 ≠ 3 → (s.isp.cam[p]).mainSt = 0) →
    ∃ t, exec (.ispTblData a v) s = .next t ∧
      t.isp.cam[p] = { s.isp.cam[p] with shadow := putWord (s.isp.cam[p]).shadow (bits s.isp.tblAddr 24 3) (bits s.isp.tblAddr 0 20) v } ∧
      bits t.isp.tblAddr 0 20 = (bits s.isp.tblAddr 0 20 + 1) % 2 ^ 20 ∧ t = { s with isp := t.isp }) ∧
  (∀ (a : Acc) (s : State), running s = true → dieBlocked s = false → a.secure = true → (ispEntry s (tblCam s)).isSome = true →
    exec (.commitMain a) s = .next (if (s.isp.cam[tblCam s]).mainSt = 0 then updIsp s (tblCam s) fun c => { c with mainSt := 1 } else ispFlag s 8)) ∧
  ∀ (a : Acc) (e : IspEntry) (s : State), running s = true → dieBlocked s = false → a.secure = true → ispEntry s (tblCam s) = some e →
    exec (.commitGain a) s = .next (if e.calEn then ispFlag s 16
      else if (s.isp.cam[tblCam s]).gainSt = 0 then updIsp s (tblCam s) fun c => { c with gainSt := 1 } else ispFlag s 8)

/-- Trigger packets to the members that are up, skipped events, and the adaptation of a lane (R298, R311, R312, R313, R324, R325,
08_camera_lanes_and_coaxpress.md). An event that is due sends a packet to every member that is up and records its time; one closer to
the last than the least spacing is skipped, counted and flagged, and while triggers are stopped none is sent. An encoder source
takes the C at which its target was reached and moves its target on; a period source follows the last event by its period while the
plan is encoder-locked, and a Beat source follows each Beat edge once. An eye scan records the open count, and adopts the better
neighbour only with adaptive set and at least 32 more; the data path then changes its code once and counts the change. -/
def Obligations.TriggersAndEyes : Prop :=
  let Due := fun (s : State) (g : Fin 8) (t : Nat) => isReady s = true ∧ groupDue s g = some t ∧ t ≤ s.c
  (∀ (g : Fin 8) (dt t : Nat) (s : State), Due (advance s dt) g t → triggersStopped s = false →
    (∀ l, s.cam.lastTrig[g] = some l → l + 2000 ≤ t ∨ (l + 1000 ≤ t ∧ ∀ m ∈ trigMembers (advance s dt) g, (trigTimes (advance s dt) m.val).2 = 1000)) →
    ∃ u, exec (.triggerEvent g dt) s = .next u ∧ u.cam.lastTrig[g] = some t ∧
      u.cam.sent = s.cam.sent ++ (trigMembers (advance s dt) g).map (fun (p : Port) => (g.val, t + (trigTimes (advance s dt) p).1, [p.val])) ∧
      u.cam.trigTarget = (takeEvent (advance s dt) g t).cam.trigTarget ∧ u.cam.skip = s.cam.skip ∧ u = { advance s dt with cam := u.cam }) ∧
  (∀ (g : Fin 8) (dt t l : Nat) (s : State), Due (advance s dt) g t → triggersStopped s = false → s.cam.lastTrig[g] = some l →
    t < l + 1000 ∨ (t < l + 2000 ∧ ∃ m ∈ trigMembers (advance s dt) g, (trigTimes (advance s dt) m.val).2 = 2000) →
    ∃ u, exec (.triggerEvent g dt) s = .next u ∧ u.cam.skip = s.cam.skip.set g (incW s.cam.skip[g]) ∧ bit u.cam.status.toNat 3 = true ∧
      u.cam.sent = s.cam.sent ∧ u.cam.lastTrig = s.cam.lastTrig ∧ u = { advance s dt with cam := u.cam }) ∧
  (∀ (g : Fin 8) (dt t : Nat) (s : State), Due (advance s dt) g t → triggersStopped s = true →
    ∃ u, exec (.triggerEvent g dt) s = .next u ∧ u.cam.sent = s.cam.sent ∧ u.cam.skip = s.cam.skip) ∧
  (∀ (g : Fin 8) (n c t : Nat) (e : EncCh) (s : State), trigSource s g = .encoder e n → (s.enc[e]).fault = false → s.cam.trigReached[g] = some c →
    groupDue s g = some c ∧ (takeEvent s g t).cam.trigTarget[g] = s.cam.trigTarget[g] + BitVec.ofNat 32 n ∧ (takeEvent s g t).cam.trigReached[g] = none) ∧
  (∀ (g : Fin 8) (tT a : Nat) (s : State), trigSource s g = .period tT → s.cam.trigAt[g] = some a → encLocked s = true → groupDue s g = some (a + tT)) ∧
  (∀ (g : Fin 8) (s : State), trigSource s g = .beat → s.cam.trigAt[g] ≠ some s.esc.edgeC →
    groupDue s g = some s.esc.edgeC ∧ groupDue (takeEvent s g s.esc.edgeC) g = none) ∧
  (∀ (l : Lane) (p : Port) (e : CamEntry) (a b c : Nat) (s : State), lanePort s l = some p → camEntry s p = some e → portUp s.cam.port[p] = true →
    e.adaptive = false → exec (.eyeScanDone l a b c) s = .next { s with cam := { s.cam with lane := s.cam.lane.set l { s.cam.lane[l] with open' := b, next := none } } }) ∧
  (∀ (l : Lane) (p : Port) (e : CamEntry) (a b c : Nat) (s : State), lanePort s l = some p → camEntry s p = some e → portUp s.cam.port[p] = true →
    e.adaptive = true → (s.cam.lane[l]).peak < 31 → b + 32 ≤ c → a < b + 32 →
    exec (.eyeScanDone l a b c) s = .next { s with cam := { s.cam with
      lane := s.cam.lane.set l { s.cam.lane[l] with open' := b, next := some ((s.cam.lane[l]).peak + 1) } } }) ∧
  ∀ (l : Lane) (p : Port) (c : Nat) (s : State), (s.cam.lane[l]).next = some c → lanePort s l = some p → portUp s.cam.port[p] = true →
    exec (.peakingChange l) s = .next { s with cam := { s.cam with
      lane := s.cam.lane.set l { s.cam.lane[l] with peak := c, changes := Nat.min 255 ((s.cam.lane[l]).changes + 1), next := none } } }

/-- Line-data fragments gather, a whole message is digested and tokenized, and an incomplete one is given up (R363, R364, R365, R480,
09_image_pipeline_and_objects.md, 12_network_time_and_peers.md). In an open capture interval, a sound fragment of a new message of
several fragments begins its reassembly, and the one fragment of a one-fragment message enters the auxiliary chain as its length
and bytes and, as one of the first 16 of the interval, its token IDs enter the line-data area. 10 ms after its first fragment an
incomplete message is dropped, its fragments counted and the flag set. -/
def Obligations.LineMessages : Prop :=
  let Sound := fun (h : Fin 8) (e : EthPort) (pl : List Byte) (s : State) => running s = true ∧ portLive s e = true ∧ h.val < s.boot.hosts.length ∧
    intervalOpen s = true ∧ 8 ≤ pl.length ∧ fragmentOk (parseFragment pl) = true ∧
    ∀ m ∈ s.net.lds, m.host ≠ h.val ∨ m.msgId ≠ (parseFragment pl).msgId
  (∀ (h : Fin 8) (e : EthPort) (pl : List Byte) (dt : Nat) (s : State), Sound h e pl s → 1 < (parseFragment pl).nFrag →
    exec (.lineData h e pl dt) s = .next { advance s dt with net := { s.net with lds := s.net.lds ++ [{
      host := h.val, msgId := (parseFragment pl).msgId, channel := (parseFragment pl).channel, nFrag := (parseFragment pl).nFrag
      total := (parseFragment pl).total, frags := [((parseFragment pl).frag, (parseFragment pl).bytes)], since := (advance s dt).c }] } }) ∧
  (∀ (h : Fin 8) (e : EthPort) (pl : List Byte) (dt : Nat) (s : State), Sound h e pl s → (parseFragment pl).nFrag = 1 →
    (s.isp.ldArea.filter fun x => x.1 == s.esc.beat).length < 16 →
    ∃ t, exec (.lineData h e pl dt) s = .next t ∧
      t.sealer.msgs = s.sealer.msgs ++ [leBytes 4 (parseFragment pl).total ++ (parseFragment pl).bytes] ∧
      t.isp.ldArea = s.isp.ldArea ++ [(s.esc.beat, (parseFragment pl).channel,
        (tokenize (vocab (match s.img with | some i => i.tok | none => [])) (parseFragment pl).total (parseFragment pl).bytes).take 1024)] ∧
      t.net.lds = s.net.lds ∧ t.c = (advance s dt).c ∧ t.mem = s.mem ∧ t.phys = s.phys) ∧
  ∀ (h : Fin 8) (n : Nat) (m : LdMsg) (s : State), running s = true → (s.net.lds.find? fun m => m.host == h.val && m.msgId == n) = some m →
    exec (.lineDataTimeout h n) s = .next { reach s (m.since + 10000000) with net := { s.net with
      lds := s.net.lds.filter fun m => !(m.host == h.val && m.msgId == n)
      ldIncomplete := satInc s.net.ldIncomplete m.frags.length, status := orW s.net.status 0x40 } }

/-- Quadrature steps count by the direction rule, and the index and illegal transitions are checked (R374, R376, R377, R378, R383,
R384, 10_encoders_io_and_ejectors.md). On a counting incremental channel without a fault, a legal step in the direction of travel
moves the count by one, and the first step the other way moves no count, turns the direction and counts a reversal. An illegal
transition counts as an error; short of sixteen in 1 ms it is no fault, and the sixteenth is one with cause 1 and alarm 0x000B. A
clear of the fault comes 1 ms after the last one and marks the channel suspect. An index edge latches the count; the first checks
nothing, and with index check a later one sets the flag when it is off, and otherwise clears suspect. -/
def Obligations.IncrementalEncoders : Prop :=
  let Moved := fun (s t : State) => t = { s with enc := t.enc, esc := { s.esc with reached := t.esc.reached }, cam := { s.cam with trigReached := t.cam.trigReached } }
  (∀ (ch : EncCh) (fa fb : Bool) (dt : Nat) (s : State), (s.enc[ch]).cfg.mode = 1 → encCounting s = true → (s.enc[ch]).fault = false →
    ((s.enc[ch]).a = fa ∧ (s.enc[ch]).b ≠ fb ∨ (s.enc[ch]).a ≠ fa ∧ (s.enc[ch]).b = fb) →
    ∃ (t : State) (up : Bool), exec (.encoderStep ch fa fb dt) s = .next t ∧ Moved (advance s dt) t ∧
      (up = (((quadPhase fa fb + 4 - quadPhase (s.enc[ch]).a (s.enc[ch]).b) % 4 == 1) != (s.enc[ch]).cfg.reverse)) ∧
      (up = (s.enc[ch]).fwd → (t.enc[ch]).count = (s.enc[ch]).count + (if up then 1 else -1) ∧ (t.enc[ch]).rev = (s.enc[ch]).rev) ∧
      (up ≠ (s.enc[ch]).fwd → (t.enc[ch]).count = (s.enc[ch]).count ∧ (t.enc[ch]).fwd = up ∧ (t.enc[ch]).rev = incW (s.enc[ch]).rev) ∧
      (t.enc[ch]).a = fa ∧ (t.enc[ch]).b = fb ∧ ∀ k : Fin 4, k ≠ ch → t.enc[k] = s.enc[k]) ∧
  (∀ (ch : EncCh) (fa fb : Bool) (dt : Nat) (s : State), (s.enc[ch]).cfg.mode = 1 → encCounting s = true → (s.enc[ch]).a ≠ fa → (s.enc[ch]).b ≠ fb →
    (s.enc[ch]).illegal.length < 15 →
    ∃ t, exec (.encoderStep ch fa fb dt) s = .next t ∧ t = { advance s dt with enc := t.enc } ∧ (t.enc[ch]).err = incW (s.enc[ch]).err ∧
      (t.enc[ch]).count = (s.enc[ch]).count ∧ (t.enc[ch]).fault = (s.enc[ch]).fault) ∧
  (∀ (ch : EncCh) (fa fb : Bool) (dt : Nat) (s : State), (s.enc[ch]).cfg.mode = 1 → encCounting s = true → (s.enc[ch]).a ≠ fa → (s.enc[ch]).b ≠ fb →
    (s.enc[ch]).fault = false → 15 ≤ ((s.enc[ch]).illegal.filter fun c => decide ((advance s dt).c < c + 1000000)).length →
    ∃ t, exec (.encoderStep ch fa fb dt) s = .next t ∧ (t.enc[ch]).fault = true ∧ (t.enc[ch]).cause = 1 ∧ (t.enc[ch]).err = incW (s.enc[ch]).err ∧
      (t.enc[ch]).count = (s.enc[ch]).count ∧ ∃ a ∈ t.net.alarms, a.code = 0x000B) ∧
  (∀ (ch : EncCh) (s : State), encCounting s = true → (s.enc[ch]).cfg.mode = 1 → (s.enc[ch]).fault = true →
    exec (.encoderFaultClear ch) s = .next (updEnc (reach s ((s.enc[ch]).illegal.headD 0 + 1000000)) ch
      fun x => { x with fault := false, suspect := true, illegal := [] })) ∧
  (∀ (ch : EncCh) (s : State), encCounting s = true → ((s.enc[ch]).cfg.mode = 1 ∨ (s.enc[ch]).cfg.mode = 4) → 1 ≤ (s.enc[ch]).cfg.index →
    (s.enc[ch]).idxSeen = false → exec (.indexEdge ch) s = .next (updEnc s ch fun x => { x with idx := x.count, idxSeen := true })) ∧
  ∀ (ch : EncCh) (s : State), encCounting s = true → ((s.enc[ch]).cfg.mode = 1 ∨ (s.enc[ch]).cfg.mode = 4) → (s.enc[ch]).cfg.index = 2 →
    (s.enc[ch]).idxSeen = true →
    ∃ t, exec (.indexEdge ch) s = .next t ∧ (t.enc[ch]).idx = (s.enc[ch]).count ∧ (t.enc[ch]).count = (s.enc[ch]).count ∧
      (t.enc[ch]).suspect = (if indexOff { s.enc[ch] with idx := (s.enc[ch]).count, idxSeen := true } then (s.enc[ch]).suspect else false)

/-- Position words and sin/cos samples are accepted, rejected or a fault (R379, R380, R381, R382, R383, R384,
10_encoders_io_and_ejectors.md). A request starts at its period with the line high. The first sound word of a channel without a
fault is its count; one rejected by its CRC counts an error and at the third in a row is a fault with alarm 0x000B. A missing
start bit rejects after 20 µs. A sin/cos sample outside its amplitude limits is rejected; the first one within them gives the
position, and one not two quadrants from the last moves the count by the position's change. -/
def Obligations.AbsoluteEncoders : Prop :=
  let Moved := fun (s t : State) => t = { s with enc := t.enc, esc := { s.esc with reached := t.esc.reached }, cam := { s.cam with trigReached := t.cam.trigReached } }
  let Counts := fun (s : State) (ch : EncCh) (m : Nat) => encCounting s = true ∧ (s.enc[ch]).cfg.mode = m
  let Pos := fun (x : Enc) (per : Int) (sn cs : Int) => per * (2 ^ x.cfg.interp : Nat) + (sectorOf x.cfg.interp (corrected x sn cs) : Nat)
  (∀ (ch : EncCh) (s : State), encCounting s = true → absolute s.enc[ch] = true →
    exec (.positionRequest ch false) s = .next (updEnc (reach s ((s.enc[ch]).lastReq + (s.enc[ch]).cfg.reqPeriod * 1000)) ch
      fun y => { y with lastReq := (reach s ((s.enc[ch]).lastReq + (s.enc[ch]).cfg.reqPeriod * 1000)).c
                        request := some (reach s ((s.enc[ch]).lastReq + (s.enc[ch]).cfg.reqPeriod * 1000)).c })) ∧
  (∀ (ch : EncCh) (w : PosWord) (s : State), Counts s ch 3 → (s.enc[ch]).request.isSome = true →
    w.crcOk = true → w.nE = true → (s.enc[ch]).fault = false → (s.enc[ch]).last = none → (s.enc[ch]).resume = false →
    ∃ t, exec (.positionWord ch w) s = .next t ∧ Moved (advance s w.dt) t ∧
      (t.enc[ch]).count = BitVec.ofNat 32 (w.value % 2 ^ (s.enc[ch]).cfg.wordBits) ∧ (t.enc[ch]).request = none ∧ (t.enc[ch]).warn = !w.nW ∧
      (t.enc[ch]).rejects = 0) ∧
  (∀ (ch : EncCh) (w : PosWord) (s : State), Counts s ch 3 → (s.enc[ch]).request.isSome = true → w.crcOk = false →
    (s.enc[ch]).fault = false →
    ∃ t, exec (.positionWord ch w) s = .next t ∧ (t.enc[ch]).err = incW (s.enc[ch]).err ∧ (t.enc[ch]).count = (s.enc[ch]).count ∧
      ((t.enc[ch]).fault = true ↔ 2 ≤ (s.enc[ch]).rejects) ∧ (2 ≤ (s.enc[ch]).rejects → (t.enc[ch]).cause = 2 ∧ ∃ a ∈ t.net.alarms, a.code = 0x000B)) ∧
  (∀ (ch : EncCh) (c : Nat) (s : State), Counts s ch 3 → (s.enc[ch]).request = some c → ((s.enc[ch]).fault = true ∨ (s.enc[ch]).rejects < 2) →
    ∃ t, exec (.startBitTimeout ch) s = .next t ∧ t = { reach s (c + 20000) with enc := t.enc } ∧ (t.enc[ch]).err = incW (s.enc[ch]).err ∧
      (t.enc[ch]).request = none ∧ (t.enc[ch]).count = (s.enc[ch]).count) ∧
  (∀ (ch : EncCh) (sn cs : Int) (dt : Nat) (s : State), Counts s ch 4 → ((s.enc[ch]).fault = true ∨ (s.enc[ch]).rejects < 7) →
    amplitudeOk s.enc[ch] (corrected s.enc[ch] sn cs) = false →
    ∃ t, exec (.sincosSample ch sn cs dt) s = .next t ∧ t = { advance s dt with enc := t.enc } ∧ (t.enc[ch]).err = incW (s.enc[ch]).err ∧
      (t.enc[ch]).count = (s.enc[ch]).count) ∧
  (∀ (ch : EncCh) (sn cs : Int) (dt : Nat) (s : State), Counts s ch 4 → (s.enc[ch]).fault = false →
    (s.enc[ch]).resume = false → (s.enc[ch]).last = none → amplitudeOk s.enc[ch] (corrected s.enc[ch] sn cs) = true →
    ∃ t, exec (.sincosSample ch sn cs dt) s = .next t ∧ Moved (advance s dt) t ∧ (t.enc[ch]).count = (s.enc[ch]).count ∧
      (t.enc[ch]).quad = gaussQuad (corrected s.enc[ch] sn cs) ∧ (t.enc[ch]).rejects = 0 ∧
      (t.enc[ch]).last = some (Pos s.enc[ch] (s.enc[ch]).periods sn cs)) ∧
  ∀ (ch : EncCh) (sn cs l per : Int) (dt : Nat) (s : State), Counts s ch 4 → (s.enc[ch]).fault = false →
    (s.enc[ch]).resume = false → (s.enc[ch]).last = some l → amplitudeOk s.enc[ch] (corrected s.enc[ch] sn cs) = true →
    (gaussQuad (corrected s.enc[ch] sn cs) + 4 - (s.enc[ch]).quad) % 4 ≠ 2 →
    per = (s.enc[ch]).periods + periodMove (s.enc[ch]).quad (gaussQuad (corrected s.enc[ch] sn cs)) →
    ∃ t, exec (.sincosSample ch sn cs dt) s = .next t ∧ Moved (advance s dt) t ∧
      (t.enc[ch]).count = (encStep s.enc[ch] (Pos s.enc[ch] per sn cs - l)).count ∧ (t.enc[ch]).periods = per ∧
      (t.enc[ch]).last = some (Pos s.enc[ch] per sn cs) ∧ (t.enc[ch]).rejects = 0

/-- Input edges, host levels, calendar windows, channel limits, valve frames and status pulses (R385, R387, R388, R395, R396, R397,
R399, R408, R411, R571). A changed input counts the edge, and a recorded one enters the FIFO with its time and count while it has
fewer than 4,096 entries, or is lost with its flag and alarm. A secure host write sets the 32 levels. With nothing in the calendar
a window evaluation requests no direct output. A valve on past t_on_min, without a request and without t_on_max, goes to hold-off.
While the calendar is not active each frame number is its time over 2,000 ns and all four links send one all_off frame. The end of
an alarm or Beat pulse moves time only. -/
def Obligations.InputsAndOutputs : Prop :=
  (∀ (n : Chan) (lv : Bool) (dt : Nat) (s : State), running s = true → (s.iio.cfg[n]).dir = 1 → s.iio.level[n] ≠ lv →
    ((s.iio.cfg[n]).record = false ∨ intervalOpen (advance s dt) = false) →
    exec (.inputEdge n lv dt) s = .next { advance s dt with iio := { s.iio with level := s.iio.level.set n lv, edge := s.iio.edge.set n (incW s.iio.edge[n]) } }) ∧
  (∀ (n : Chan) (lv : Bool) (dt : Nat) (s : State), running s = true → (s.iio.cfg[n]).dir = 1 → s.iio.level[n] ≠ lv → (s.iio.cfg[n]).record = true →
    intervalOpen (advance s dt) = true →
    ∃ t, exec (.inputEdge n lv dt) s = .next t ∧ t.iio.edge[n] = incW s.iio.edge[n] ∧ t.iio.level[n] = lv ∧
      (s.iio.fifo.length < 4096 → t.iio.fifo = s.iio.fifo ++ [(n.val, lv, timeT (advance s dt), refCount (advance s dt))]) ∧
      (4096 ≤ s.iio.fifo.length → t.iio.fifo = s.iio.fifo ∧ t.iio.lost = incW s.iio.lost ∧ bit t.iio.status.toNat 0 = true ∧
        ∃ a ∈ t.net.alarms, a.code = 0x000C)) ∧
  (∀ (a : Acc) (hi : Bool) (v : Word) (s : State), running s = true → a.secure = true → regLocked s (if hi then 0x60414 else 0x60410) = false →
    exec (.iioHostWrite a hi v) s = .next { dropCapture s a.who with iio := { s.iio with host := setHalf s.iio.host hi v } }) ∧
  (∀ (dt : Nat) (s : State), calendarActive s = true → refFault (advance s dt) = false → s.ejc.entries = [] →
    ∃ t, exec (.calendarWindow dt) s = .next t ∧ t.ejc.entries = [] ∧ t.c = (advance s dt).c ∧ t.mem = s.mem ∧ t.net = s.net ∧
      ∀ n : Fin 64, (t.ejc.direct[n]).request = false) ∧
  (∀ (n : Fin 1024) (s : State), calendarActive s = true → (s.ejc.valve[n]).state = .on → (s.ejc.valve[n]).request = false → (s.ejc.valve[n]).onMax = 0 →
    (s.ejc.valve[n]).offMin ≠ 0 → s.c < 2 ^ 64 → (s.ejc.valve[n]).since + limitNs true (s.ejc.valve[n]).onMin < 2 ^ 64 →
    ∃ t, exec (.channelLimitExpiry true n) s = .next t ∧ t.ejc.valve[n] = { s.ejc.valve[n] with state := .holdoff, since := t.c } ∧
      t.c = (reach s ((s.ejc.valve[n]).since + limitNs true (s.ejc.valve[n]).onMin)).c ∧ t.ejc.limit = s.ejc.limit) ∧
  (∀ s : State, running s = true → calendarActive s = false →
    ∃ t, exec .valveFrame s = .next t ∧ t.ejc.frame = (timeT s + toFrame s) / 2000 ∧ t.c = (advance s (toFrame s)).c ∧
      t.ejc.sent = s.ejc.sent ++ (List.finRange 4).map (fun l => (t.ejc.frame, l.val, frameBits t.ejc.frame true
        ((linkChans l).map fun n => decide ((s.ejc.valve[n]).state = .on)))) ∧ t.mem = s.mem ∧ t.net = s.net) ∧
  ∀ (n : Chan) (s : State), running s = true → (s.iio.cfg[n]).dir = 2 → (s.iio.cfg[n]).outSrc = 2 →
    exec (.statusPulseExpiry n) s = .next (if (s.iio.cfg[n]).statusFn = 1 then reach s s.iio.alarmEnd
      else if (s.iio.cfg[n]).statusFn = 3 then reach s s.iio.pulseEnd else s)

/-- The Regulator follows accepted Syncs, and the Ethernet ports come up, are checked, and go down (R458, R459, R461, R463, R465,
R466, R467, R474, R490, R503, R533, R534). A Sync on the slave port locks the Regulator with its offset and rate, and steps T only
before readiness; without one for three intervals it is in holdover with alarm 0x0011. A port that may be grandmaster and is given
master with no slave runs free. A Pdelay interval sends one request and keeps its stamp. Bad frames are counted; ARP, NDP, echo
and IGMP are answered. A link comes up at a rate its interface has and pending alarms go, but not on a port that failed its check (log entry 68); it
goes down with its cause; a good check keeps it up, and a failed one keeps it down; lost block lock resets the port with its generation. -/
def Obligations.TimeAndLinks : Prop :=
  (∀ (e : EthPort) (th y : Int) (s : State), running s = true → portLive s e = true → (s.net.port[e]).cfg.gptp = true → (s.net.port[e]).ptp = 1 →
    ∃ t, exec (.syncRx e th y) s = .next t ∧ t.reg.state = 1 ∧ t.reg.slave = e.val ∧ t.reg.ck = s.c ∧ t.reg.a = adjustOf s th y ∧
      t.reg.theta = clampI (-2147483648) 2147483647 th ∧ t.reg.far = decide (1000000 < th.natAbs) ∧ t = { s with reg := t.reg } ∧
      t.reg.o = (timeT s : Int) - (if everReady s = false ∧ (s.reg.state = 0 ∨ s.reg.state = 3) then th else 0)) ∧
  (∀ s : State, running s = true → s.reg.state = 1 →
    ∃ t, exec .syncReceiptTimeout s = .next t ∧ t.reg = { s.reg with state := 2 } ∧ bit t.net.status.toNat 2 = true ∧
      (∃ a ∈ t.net.alarms, a.code = 0x0011) ∧ t.c = (reach s (s.reg.syncC + 3 * syncInterval s)).c) ∧
  (∀ (e : EthPort) (s : State), running s = true → portLive s e = true → (s.net.port[e]).cfg.gptp = true → (s.net.port[1 - e]).ptp ≠ 1 →
    s.boot.priority1 < 255 → ∃ t, exec (.announceReceiptTimeout e 2) s = .next t ∧ (t.net.port[e]).ptp = 2 ∧ t.reg.a = 0 ∧ t.reg.state = 3 ∧
      t.reg.o = timeT s ∧ t.reg.ck = s.c) ∧
  (∀ (e : EthPort) (n : Nat) (s : State), running s = true → portLive s e = true → (s.net.port[e]).cfg.gptp = true → (s.net.port[e]).stamps.length < 16 →
    ∃ t, exec (.gptpTxInterval e 0 n) s = .next t ∧ t.net.frames = s.net.frames ++ [(e.val, 0, n % 65536)] ∧
      (t.net.port[e]).stamps = (s.net.port[e]).stamps ++ [{ ident := n % 65536, kind := 2, time := timeT s }] ∧ t = { s with net := t.net }) ∧
  (∀ (e : EthPort) (dt : Nat) (s : State), running s = true → portLive s e = true →
    exec (.frameRx e .bad dt) s = .next (rxBad (advance s dt) e) ∧ exec (.frameRx e .unsupported dt) s = .next (rxBad (advance s dt) e) ∧
    exec (.frameRx e .pause dt) s = .next (advance s dt) ∧ exec (.frameRx e .arp dt) s = .next (sendEth (advance s dt) e 6 0) ∧
    exec (.frameRx e .ndp dt) s = .next (sendEth (advance s dt) e 7 0) ∧ exec (.frameRx e .echo dt) s = .next (sendEth (advance s dt) e 8 0) ∧
    exec (.frameRx e .igmp dt) s = .next (sendEth (advance s dt) e 9 0)) ∧
  (∀ (e : EthPort) (r : Fin 4) (s : State), running s = true → (s.net.port[e]).cfg.enabled = true → (s.net.port[e]).link = false →
    (s.net.port[e]).pcsDown = false → rateOk (s.net.port[e]).cfg.iface r = true → s.sec.phase ≠ 7 →
    ∃ t, exec (.ethLinkUp e r) s = .next t ∧ (t.net.port[e]).link = true ∧ (t.net.port[e]).rate = r.val ∧ t.pwr.ethReset[e] = false ∧
      t.net.alarms = s.net.alarms.drop 28 ∧ t.net.sent.length = s.net.sent.length + (if s.net.alarms = [] then 0 else 1)) ∧
  (∀ (e : EthPort) (r : Fin 4) (s : State), running s = true → (s.net.port[e]).cfg.enabled = true → (s.net.port[e]).link = false →
    (s.net.port[e]).pcsDown = true → rateOk (s.net.port[e]).cfg.iface r = true →
    ∃ t, exec (.ethLinkUp e r) s = .next t ∧ (t.net.port[e]).link = false ∧ (t.net.port[e]).rate = r.val ∧ t.pwr.ethReset[e] = false) ∧
  (∀ (e : EthPort) (k : Fin 4) (s : State), running s = true → (s.net.port[e]).link = true →
    exec (.ethLinkDown e k) s = .next (updEth s e fun p => { p with link := false, cause := k.val, ptp := 0 })) ∧
  (∀ (e : EthPort) (s : State), running s = true → (s.net.port[e]).cfg.enabled = true → (s.net.port[e]).link = true →
    (∃ t, exec (.ethPcsCheck e true) s = .next t ∧ t.net.port[e] = { s.net.port[e] with checked := true, pcsDown := false } ∧ t.c = s.c ∧ t.mem = s.mem) ∧
    ∃ t, exec (.ethPcsCheck e false) s = .next t ∧ (t.net.port[e]).link = false ∧ (t.net.port[e]).pcsDown = true ∧ (t.net.port[e]).checked = false) ∧
  ∀ (e : EthPort) (s : State), running s = true → (s.net.port[e]).cfg.enabled = true → s.pwr.ethReset[e] = false →
    ∃ t, exec (.blockLockLoss e) s = .next t ∧ (t.net.port[e]).link = false ∧ (t.net.port[e]).stamps = [] ∧ t.pwr.ethReset[e] = true ∧
      t.pwr.genEth[e] = (s.pwr.genEth[e] + 1) % 16 ∧ t.mem = s.mem

/-- Management requests read and write words, are answered once, and repeat their answer (R478, R479, R481, R523, R570, R573, R575,
12_network_time_and_peers.md, 15_management_space.md). A new request of a declared host on a live port is answered in one datagram
of type 0x11 to that host, kept with the host's last 16. A read gives the word with status 0, an unmapped one 0 with status 1. An
insecure write of an RWS register gives status 2, changes no register and counts a violation. A malformed block gives status 3. A
repeated req_id sends the stored answer again and executes nothing; with the queue full nothing happens. -/
def Obligations.Management : Prop :=
  let Ask := fun (s : State) (r : Req) => running s = true ∧ portLive s r.port = true ∧ r.host.val < s.boot.hosts.length ∧ r.full = false ∧ r.ts = false ∧
    r.addr.toNat % 4 = 0 ∧ ∀ x ∈ s.net.responses[r.host], x.reqId ≠ r.reqId
  let Answer := fun (s t : State) (r : Req) (x : Response) => x.reqId = r.reqId ∧ x.addr = r.addr ∧ (∃ d : Datagram, t.net.sent = s.net.sent ++ [d] ∧
    d.typ = 0x11 ∧ d.dst = 1 + r.host.val ∧ d.payload = rspBytes x) ∧
    t.net.responses[r.host] = (s.net.responses[r.host] ++ [x]).drop ((s.net.responses[r.host]).length + 1 - 16)
  (∀ (r : Req) (s : State), Ask s r → secureSession s r (reqBytes r 0 1 []) = none → r.addr.toNat ≠ 0xC0308 →
    ∃ t x, exec (.mgmtRead r) s = .next t ∧ Answer s t r x ∧ x.data = [((readWord s (.host r.host) r.addr.toNat).1).getD 0] ∧
      x.status = (if ((readWord s (.host r.host) r.addr.toNat).1).isSome then 0 else 1) ∧ t = { s with net := t.net, cap := t.cap }) ∧
  (∀ (r : Req) (v : Word) (s : State), Ask s r → secureSession s r (reqBytes r 1 1 [v]) = none → regAcc r.addr.toNat = .rws →
    (readReg s r.addr.toNat).isSome = true → (dieReg r.addr.toNat && dieBlocked s) = false →
    ∃ t x, exec (.mgmtWrite r v) s = .next t ∧ Answer s t r x ∧ x.status = 2 ∧ x.data = [] ∧
      t = { s with net := t.net, cap := t.cap, sec := { s.sec with viol := true, violCnt := incW s.sec.violCnt } }) ∧
  (∀ (r : Req) (n : Nat) (s : State), Ask s r → (n = 0 ∨ 64 < n) →
    ∃ t x, exec (.mgmtReadBlock r n) s = .next t ∧ Answer s t r x ∧ x.status = 3 ∧ x.data = [] ∧ t = { s with net := t.net }) ∧
  (∀ (r : Req) (s : State), Ask s r → secureSession s r (reqBytes r 2 2 []) = none → r.addr.toNat = 0x80108 → (∀ x ∈ s.cap, x.lo ≠ 0x80104) →
    ∃ t x, exec (.mgmtReadBlock r 2) s = .next t ∧ Answer s t r x ∧ x.status = 0 ∧ x.data = [lo32 s.c, hi32 s.c]) ∧
  (∀ (r : Req) (a b : Word) (s : State), Ask s r → secureSession s r (reqBytes r 3 2 [a, b]) = none → r.addr.toNat = 0xC0304 → s.sec.mboxIdx < 2048 →
    ∃ t x, exec (.mgmtWriteBlock r [a, b]) s = .next t ∧ Answer s t r x ∧ x.status = 0 ∧ t.sec.mboxIdx = (a.toNat % 2048 + 1) % 2048 ∧
      t.sec.mboxBuf = memWrites s.sec.mboxBuf (4 * (a.toNat % 2048)) (leBytes 4 b.toNat) ∧ t.mem = s.mem ∧ t.phys = s.phys) ∧
  ∀ (r : Req) (v : Word) (x : Response) (s : State), running s = true → portLive s r.port = true → r.host.val < s.boot.hosts.length → r.ts = false →
    (s.net.responses[r.host]).find? (fun y => y.reqId == r.reqId) = some x →
    exec (.mgmtWrite r v) s = .next (sendDg s 0x11 (1 + r.host.val) (rspBytes x))

/-- Verdicts, alarms, events, telemetry, trace and time stamps leave as one datagram each (R467, R472, R473, R474, R476, R477, R481,
12_network_time_and_peers.md). With a link up and outside hold: up to 21 posted verdict records of one Landing go in posting order
and leave the backlog, the last of their Landing with the flag; up to 28 pending alarms go and are freed; up to 21 records that
the queue has room for go and stay in the log; an offered telemetry item and a trace go, and those whose queue is full are
counted; the oldest OLP stamp is reported to its host. -/
def Obligations.SendsToHosts : Prop :=
  let Open := fun (s : State) => anyLink s = true ∧ mayTalk s = true
  (∀ (s : State) (x : Nat × Nat × Nat × VRec) (l : List (Nat × Nat × Nat × VRec)), Open s → s.net.backlog = x :: l →
    ∃ t d, exec .verdictSend s = .next t ∧ t.net.sent = s.net.sent ++ [d] ∧ d.typ = 0x01 ∧ d.dst = 32 ∧
      t.net.backlog = s.net.backlog.drop (verdictGroup s.net.backlog).length ∧ 1 ≤ (verdictGroup s.net.backlog).length ∧
      (verdictGroup s.net.backlog).length ≤ 21 ∧ d.payload.drop 16 = (verdictGroup s.net.backlog).flatMap (fun y => vrecBytes y.2.2.2) ∧
      d.flags = (if t.net.backlog.head?.all fun y => y.1 != x.1 then 4 else 0) ∧ t = { s with net := t.net }) ∧
  (∀ s : State, Open s → s.net.alarms ≠ [] →
    ∃ t d, exec .alarmSend s = .next t ∧ t.net.sent = s.net.sent ++ [d] ∧ d.typ = 0x04 ∧ d.dst = 0 ∧ t.net.alarms = s.net.alarms.drop 28 ∧
      d.payload = (s.net.alarms.take 28).flatMap alarmBytes ∧ t = { s with net := t.net }) ∧
  (∀ (n : Nat) (s : State), Open s → 0 < n → s.net.evSent < s.recd.live.length →
    ∃ t d, exec (.eventSend n) s = .next t ∧ t.net.sent = s.net.sent ++ [d] ∧ d.typ = 0x05 ∧ d.dst = 0 ∧ t.recd = s.recd ∧
      d.payload = ((s.recd.live.drop s.net.evSent).take (Nat.min n 21)).flatMap eventBytes ∧
      t.net.evSent = s.net.evSent + ((s.recd.live.drop s.net.evSent).take (Nat.min n 21)).length ∧ t = { s with net := t.net }) ∧
  (∀ (b : Byte) (bs : List Byte) (s : State), Open s → isReady s = true → s.net.tlmK = 0 → s.net.tlmStreak < 15 →
    (∃ t d, exec (.telemetry (some (b, bs)) false) s = .next t ∧ t.net.sent = s.net.sent ++ [d] ∧ d.typ = 0x06 ∧ t.net.tlmStreak = s.net.tlmStreak + 1 ∧
      t.net.tlmK = 0 ∧ d.payload.drop 12 = bs.take 1352 ∧ t = { s with net := t.net }) ∧
    ∃ t, exec (.telemetry (some (b, bs)) true) s = .next t ∧ t.net.sent = s.net.sent ∧ t.net.tlmK = 1 ∧ t.net.tlmStreak = 0 ∧
      t.net.tlmDecim = incW s.net.tlmDecim) ∧
  (∀ (src : Byte) (bs : List Byte) (s : State), Open s →
    (∃ t d, exec (.trace src bs false) s = .next t ∧ t.net.sent = s.net.sent ++ [d] ∧ d.typ = 0x07 ∧
      t.recd.trace = (s.recd.trace ++ [(src.toNat, bs)]).drop (s.recd.trace.length + 1 - 1024)) ∧
    ∃ t, exec (.trace src bs true) s = .next t ∧ t.net.sent = s.net.sent ∧ t.net.traceLost = incW s.net.traceLost) ∧
  ∀ (e : EthPort) (x : TxStamp) (h : Fin 8) (l : List TxStamp) (s : State), mayTalk s = true → (s.net.port[e]).stamps = x :: l → x.host = some h →
    ∃ t d, exec (.tsReport e) s = .next t ∧ t.net.sent = s.net.sent ++ [d] ∧ d.typ = 0x08 ∧ d.dst = 1 + h.val ∧ (t.net.port[e]).stamps = l ∧
      d.payload = leBytes 1 e.val ++ leBytes 1 0 ++ leBytes 2 x.ident ++ leBytes 8 x.time ∧ t = { s with net := t.net }

/-- Exports, retracts and marks to peers, and what arrives from them (R471, R481, R484, R485, R486, R487, R488, R547,
12_network_time_and_peers.md). With a link up and outside hold: the oldest export leaves the queue with as many datagrams as there
is room for, and the rest are counted; the oldest RETRACT and the oldest MARK go to every peer; in Idle the last MARK is repeated
after P_max. A peer's first MARK gives its generation and is recorded; a PROVISIONAL of that generation raises its highest Beat; a
PROVISIONAL or RETRACT in a capture interval enters the auxiliary chain, and a RETRACT outside one is discarded; a silent peer is
lost with alarm 0x0012. -/
def Obligations.PeerTraffic : Prop :=
  let Open := fun (s : State) => anyLink s = true ∧ mayTalk s = true
  let Known := fun (s : State) (p : Fin 16) (g : Word) => p.val < s.boot.peers.length ∧ (s.net.peers[p]).gen = some g.toNat ∧ (s.net.peers[p]).gone = false
  (∀ (x : Export) (l : List Export) (room n : Nat) (s : State), Open s → s.net.exports = x :: l → retractWaits s x = false → openUnit s (fun m => m.olp) = none →
    n = (exportParts x).length * (streamDests s x.stream).length →
    ∃ t, exec (.provisionalSend room) s = .next t ∧ t.net.exports = l ∧ t.net.sent.length = s.net.sent.length + Nat.min room n ∧
      (∀ d ∈ t.net.sent.drop s.net.sent.length, d.typ = 0x02 ∧ d.payload ∈ exportParts x) ∧
      t.net.peerDrop = (if n ≤ room then s.net.peerDrop else satInc s.net.peerDrop (n - room)) ∧ (room < n → bit t.net.status.toNat 5 = true) ∧
      t = { s with net := t.net }) ∧
  (∀ (k : Nat) (r : Nat × Nat × Nat × Nat) (l : List (Nat × Nat × Nat × Nat)) (s : State), Open s → s.net.retracts = r :: l →
    ∃ t, exec (.retractSend k) s = .next t ∧ t.net.retracts = l ∧ t.net.sent.length = s.net.sent.length + s.boot.peers.length ∧
      (∀ d ∈ t.net.sent.drop s.net.sent.length, d.typ = 0x03 ∧ d.payload = retractBytes r.1 r.2.1 r.2.2.1 r.2.2.2) ∧ t = { s with net := t.net }) ∧
  (∀ (k n : Nat) (l : List Nat) (s : State), Open s → s.net.marks = n :: l →
    ∃ t, exec (.markSend k) s = .next t ∧ t.net.marks = l ∧ t.net.lastMark = markBytes s n ∧
      t.net.sent.length = s.net.sent.length + s.boot.peers.length ∧
      (∀ d ∈ t.net.sent.drop s.net.sent.length, d.typ = 0x40 ∧ d.payload = markBytes s n) ∧ t = { s with net := t.net }) ∧
  (∀ (k : Nat) (s : State), Open s → s.pwr.state = 2 → s.net.marks = [] → s.net.lastMark ≠ [] →
    ∃ t, exec (.idleMark k) s = .next t ∧ t.c = (reach s (s.net.idleC + (if encLocked s then s.esc.pMax.toNat else s.esc.pMin.toNat))).c ∧
      t.net.idleC = t.c ∧ t.net.sent.length = s.net.sent.length + s.boot.peers.length ∧
      ∀ d ∈ t.net.sent.drop s.net.sent.length, d.typ = 0x40 ∧ d.payload = s.net.lastMark) ∧
  (∀ (p : Fin 16) (g : Word) (b z : BeatNo) (r : Nat) (m : Word) (s : State), Open s → p.val < s.boot.peers.length → (s.net.peers[p]).gen = none →
    exec (.markRx p g b z r m) s = .next { s with net := { s.net with
      peers := s.net.peers.set p { gen := some g.toNat, mark := some (b.toNat, z.toNat, r, m.toNat, s.c) } } }) ∧
  (∀ (p : Fin 16) (g : Word) (pl : List Byte) (s : State), Open s → Known s p g → 17 ≤ pl.length → pl.length ≤ 1364 → intervalOpen s = true →
    ∃ t, exec (.provisionalRx p g pl) s = .next t ∧
      t.net.peers = s.net.peers.set p { s.net.peers[p] with highest := some (match (s.net.peers[p]).highest with
        | some h => Nat.max h (leAt pl 0 6)
        | none => leAt pl 0 6) } ∧
      t.sealer.msgs = s.sealer.msgs ++ [leBytes 4 (pl.length + 1) ++ (leBytes 1 0x02 ++ pl)] ∧ t.mem = s.mem ∧ t.phys = s.phys) ∧
  (∀ (p : Fin 16) (g : Word) (pl : List Byte) (s : State), Open s → Known s p g → pl.length = 16 →
    ∃ t, exec (.retractRx p g pl) s = .next t ∧ t.net.peers = s.net.peers ∧ t.mem = s.mem ∧ t.phys = s.phys ∧
      (intervalOpen s = true → t.sealer.msgs = s.sealer.msgs ++ [leBytes 4 17 ++ (leBytes 1 0x03 ++ pl)]) ∧ (intervalOpen s = false → t = s)) ∧
  ∀ (p : Fin 16) (m : Nat × Nat × Nat × Nat × Nat) (s : State), running s = true → (s.net.peers[p]).mark = some m → (s.net.peers[p]).gone = false →
    ∃ t, exec (.peerTimeout p) s = .next t ∧ (t.net.peers[p]).gone = true ∧ bit t.net.status.toNat 4 = true ∧ (∃ a ∈ t.net.alarms, a.code = 0x0012) ∧
      t.c = (reach s (m.2.2.2.2 + (m.2.2.1 + 2) * m.2.2.2.1)).c

/-- An image is armed, offered, received chunk by chunk and verified in the inactive slot (R515, R525, R526, R527, R528, R532,
13_vestibule_images_and_security.md). A secure arm starts staging with its transfer; the matching offer that fits marks the
inactive slot partial and receives, one that does not is refused with reason 5. A chunk of the right length is stored in the
inactive slot and marked, and the last missing one ends reception; a pass end waits for the NACK, which names the missing ranges;
60 s without a chunk refuse staging with reason 0x10. A staged image whose bytes the slot holds and that no check refuses is verified
in the slot, another empties it; both are reported. Abort ends staging. The active slot never changes. -/
def Obligations.ImageStaging : Prop :=
  (∀ (a : Acc) (x : Half) (s : State), running s = true → a.secure = true →
    exec (.arm a x) s = .next { s with sec := { s.sec with
      xferId := x, armedId := x, stage := 1, stageReason := 0, recv := [], offer := none, passEnd := none, chgOk := false } }) ∧
  (∀ (x : Half) (n : Word) (len : Dword) (d : Digest) (s : State), running s = true → s.sec.stage = 1 → s.sec.armedId = x →
    n.toNat = ceilDiv len.toNat 1280 → len.toNat ≤ slotCap s (otherSlot s) → n ≠ 0 →
    exec (.imgOffer x n len d) s = .next { s with
      nvm := { s.nvm with slots := s.nvm.slots.set (otherSlot s) { state := 1, img := none, data := [] } }
      sec := { s.sec with stage := 2, offer := some { nChunk := n.toNat, len := len.toNat, digest := d }, recv := [], chunkC := s.c } }) ∧
  (∀ (x : Half) (n : Word) (len : Dword) (d : Digest) (s : State), running s = true → s.sec.stage = 1 → s.sec.armedId = x →
    (n.toNat ≠ ceilDiv len.toNat 1280 ∨ slotCap s (otherSlot s) < len.toNat) →
    exec (.imgOffer x n len d) s = .next { s with sec := { s.sec with stage := 5, stageReason := 5, offer := none, passEnd := none } }) ∧
  (∀ (x : Half) (i : Nat) (bs : List Byte) (o : Offer) (s : State), running s = true → s.sec.stage = 2 → s.sec.armedId = x → s.sec.offer = some o →
    i < o.nChunk → bs.length = chunkLen o i →
    ∃ t, exec (.imgData x i bs) s = .next t ∧ (∀ j, j ∈ t.sec.recv ↔ j = i ∨ j ∈ s.sec.recv) ∧ t.sec.chunkC = s.c ∧
      t.sec.stage = (if t.sec.recv.length = o.nChunk then 3 else 2) ∧ (i, bs) ∈ (t.nvm.slots[otherSlot s]).data ∧
      t.nvm.slots[s.nvm.active] = s.nvm.slots[s.nvm.active] ∧ t = { s with sec := t.sec, nvm := { s.nvm with slots := t.nvm.slots } }) ∧
  (∀ (x : Half) (s : State), running s = true → s.sec.stage = 2 → s.sec.armedId = x →
    exec (.imgPassEnd x) s = .next { s with sec := { s.sec with passEnd := some s.c } }) ∧
  (∀ (c : Nat) (o : Offer) (s : State), running s = true → s.sec.stage = 2 → s.sec.passEnd = some c → s.sec.offer = some o →
    ∃ t d, exec .imgNack s = .next t ∧ t.net.sent = s.net.sent ++ [d] ∧ d.typ = 0x33 ∧ d.dst = 0 ∧ t.sec = { s.sec with passEnd := none } ∧
      t.c = (reach s (c + devId s % 64 * 1000000)).c ∧ d.payload.drop 8 =
        ((missingRanges o.nChunk 0 s.sec.recv).take 168).flatMap fun r => leBytes 4 r.1 ++ leBytes 4 r.2) ∧
  (∀ s : State, running s = true → s.sec.stage = 2 →
    exec .stagingTimeout s = .next { reach s (s.sec.chunkC + 60000000000) with sec := { s.sec with stage := 5, stageReason := 0x10, offer := none, passEnd := none } }) ∧
  (∀ (img : Image) (s : State), running s = true → s.sec.stage = 3 → slotMatches s.nvm.slots[otherSlot s] img = true →
    ∃ t d, exec (.stagingVerifyDone img) s = .next t ∧ t.net.sent = s.net.sent ++ [d] ∧ d.typ = 0x34 ∧ t.nvm.active = s.nvm.active ∧
      t.nvm.slots[s.nvm.active] = s.nvm.slots[s.nvm.active] ∧
      (loadFail s (slotCap s (otherSlot s)) img = none → t.sec.stage = 4 ∧ t.sec.stageReason = 0 ∧
        t.nvm.slots[otherSlot s] = { s.nvm.slots[otherSlot s] with state := 2, img := some img }) ∧
      (∀ c, loadFail s (slotCap s (otherSlot s)) img = some c → t.sec.stage = 5 ∧ t.sec.stageReason = c.reason ∧ t.nvm.slots[otherSlot s] = {})) ∧
  ∀ (a : Acc) (s : State), running s = true → a.secure = true → 1 ≤ s.sec.stage → s.sec.stage ≤ 3 →
    exec (.abort a) s = .next { s with sec := { s.sec with stage := 0, recv := [], offer := none, passEnd := none } }

/-- Commit, changeover and promotion: what each request starts, refuses or ends (R285, R287, R288, R290, R514, R529, R531, R532,
13_vestibule_images_and_security.md). A secure commit after readiness raises the fused counter to the image's and never lowers it.
A changeover of a verified matching image at a Landing at least two Beats ahead preloads; one asked for while one is in progress is
refused; its cancel refuses it; the preload's end has the new image's parts in memory and marks it. A promotion of the candidate
that the host names stages; a wrong digest is refused with reason 2; its cancel gives reason 6; staging done marks the candidate
staged if it verified, and does nothing otherwise. A candidate is read after n_ck steps, and its digests computed. A target is read
as the Landing of log entry 80. -/
def Obligations.ActivationAndAdapters : Prop :=
  (∀ (a : Acc) (s : State), running s = true → a.secure = true → s.sec.phase = 6 →
    exec (.commit a) s = .next { s with fuse := { s.fuse with svn := Nat.max s.fuse.svn s.sec.imgSvn } }) ∧
  (∀ (a : Acc) (s : State), running s = true → a.secure = true → changeoverBusy s = false → s.sec.stage = 4 → s.sec.chgOk = true →
    s.esc.beat + 2 ≤ landingOf s (join48 s.sec.actTgtLo s.sec.actTgtHi) → promotionBusy s = false → s.sec.phase = 6 →
    exec (.changeover a) s = .next { s with
      sec := { s.sec with actState := 1, actAt := landingOf s (join48 s.sec.actTgtLo s.sec.actTgtHi), actReason := 0, preloaded := false }
      imgNew := (s.nvm.slots[otherSlot s]).img }) ∧
  (∀ (a : Acc) (s : State), running s = true → a.secure = true → changeoverBusy s = true →
    exec (.changeover a) s = .next { s with sec := { s.sec with actReason := 0x0F, actState := if s.sec.actState = 1 then 1 else 3 } }) ∧
  (∀ (a : Acc) (s : State), running s = true → a.secure = true → s.sec.actState = 1 → s.sec.actDone = none →
    exec (.cancel a) s = .next { s with sec := { s.sec with actState := 3, actReason := 0x0F, preloaded := false }, imgNew := none }) ∧
  (∀ (i : Image) (s : State), s.imgNew = some i → dieUp s = true → s.sec.actState = 1 →
    ∃ t, exec .changeoverPreloadDone s = .next t ∧ t.sec = { s.sec with preloaded := true } ∧ t.mem = placeImage s.mem i ∧
      t.img = s.img ∧ t.imgNew = some i ∧ t.fuse = s.fuse ∧ t.c = s.c) ∧
  (∀ (a : Acc) (s : State), running s = true → dieBlocked s = false → a.secure = true → s.wng.adpt.submit = false → submitReason s = none →
    exec (.submit a) s = .next (updAdpt s fun x => { x with submit := true, target := landingOf s (join48 x.tgtLo x.tgtHi), state := 1, reason := 0
                                                            staged := false, stagedSet := x.set.getD [], stagedWgt := x.wgt })) ∧
  (∀ (a : Acc) (s : State), running s = true → dieBlocked s = false → a.secure = true → s.wng.adpt.submit = false → (planOf s).promotion = true →
    s.wng.adpt.dig ≠ s.wng.adpt.cand → exec (.submit a) s = .next (updAdpt s fun x => { x with state := 3, reason := 2 })) ∧
  (∀ (a : Acc) (s : State), running s = true → dieBlocked s = false → a.secure = true → s.wng.adpt.state = 1 →
    exec (.adapterCancel a) s = .next (updAdpt s fun x => { x with state := 3, reason := 6, submit := false, staged := false })) ∧
  (∀ s : State, dieUp s = true → s.wng.adpt.state = 1 →
    (∃ t, exec (.adapterStagingDone true) s = .next t ∧ t.wng.adpt = { s.wng.adpt with staged := true } ∧ t.mem = ((usedLw s).foldl stageBank s).mem ∧
      t.fuse = s.fuse ∧ t.img = s.img ∧ t.c = s.c) ∧
    exec (.adapterStagingDone false) s = .next s) ∧
  ∀ (i : Image) (s : State), s.img = some i → dieUp s = true → s.sec.phase = 6 → i.plan.nCk ≤ s.wng.adpt.steps →
    exec .adapterCandidate s = .next (updAdpt s fun x => { x with
      steps := 0, set := some (memReads s.mem.dram i.plan.candBase i.plan.candSize)
      cand := digestWords (sha3 (memReads s.mem.dram i.plan.candBase i.plan.candSize))
      wgt := weightsDigest i (memReads s.mem.dram i.plan.candBase i.plan.candSize) })

/-- What each operation of the secure mailbox needs and gives (R513, R521, R522, R524, R532, 13_vestibule_images_and_security.md).
GET_CERT gives the stored certificate and this start's statement. ATTEST of 32 bytes gives a signed report of its nonce, of
another length status 3. OPEN with the right length adds one that waits for FINISH while fewer than four sessions are live, and
with four gives status 2. A FINISH in time under an accepted host key whose signature verifies opens the session with the key both
share; one that does not, or of an unknown session, gives status 2. CLOSE closes a live session only under a secure access. An owner
key is written by Crown while no owner slot is, then only in a secure session; the last unrevoked image key cannot be revoked, other
written owner keys can. An unused op gives status 3. The data port writes a word and moves its index. An idle session closes after
600 s. -/
def Obligations.MailboxOperations : Prop :=
  let Done := fun (s t : State) (op st : Nat) (out : List Byte) =>
    t = { s with sec := { s.sec with mboxOp := op, mboxStatus := st, mboxBuf := memWrites s.sec.mboxBuf 0 (out.take 8192), mboxLen := Nat.min 8192 out.length } }
  (∀ (a : Acc) (s : State), running s = true → ∃ t, exec (.getCert a) s = .next t ∧ Done s t 1 0 (s.nvm.cert ++ attestStatement s)) ∧
  (∀ (a : Acc) (s : State), running s = true → s.sec.mboxLen = 32 → ∃ t, exec (.attest a) s = .next t ∧
    Done s t 2 0 (attestReport s (memReads s.sec.mboxBuf 0 32) ++ Config.mlDsaSign (akSeed s) "OPCN-ATTEST" (attestReport s (memReads s.sec.mboxBuf 0 32)))) ∧
  (∀ (a : Acc) (s : State), running s = true → s.sec.mboxLen ≠ 32 → ∃ t, exec (.attest a) s = .next t ∧ Done s t 2 3 []) ∧
  (∀ (a : Acc) (s : State), running s = true → s.sec.mboxLen = 1345 → (memRead s.sec.mboxBuf 0).toNat = 44 → s.sec.openings = [] →
    ((s.sec.sessions.filter (sessionLive s)).length < 4 →
      ∃ t o, exec (.openSession a) s = .next t ∧ t.sec.mboxStatus = 0 ∧ t.sec.mboxOp = 3 ∧ t.sec.openings = [o] ∧
        o.id = s.sec.nextId ∧ o.alg = false ∧ o.atC = s.c ∧ o.pk = memReads s.sec.mboxBuf 1 1312 ∧ t.sec.sessions = s.sec.sessions ∧ t.fuse = s.fuse) ∧
    (4 ≤ (s.sec.sessions.filter (sessionLive s)).length → ∃ t, exec (.openSession a) s = .next t ∧ Done s t 3 2 [])) ∧
  (∀ (a : Acc) (s : State), running s = true → (s.sec.openings.find? fun o => o.id == leAt (mboxIn s) 0 4) = none →
    ∃ t, exec (.finish a) s = .next t ∧ Done s t 4 2 []) ∧
  (∀ (a : Acc) (o : Opening) (ct sig : List Byte) (s u : State), running s = true → (s.sec.openings.find? fun o => o.id == leAt (mboxIn s) 0 4) = some o →
    s.c ≤ o.atC + 10000000000 → 1092 ≤ s.sec.mboxLen → hostKeyOk s o = true → ct = ((mboxIn s).drop 4).take 1088 → sig = (mboxIn s).drop 1092 →
    u = { s with sec := { s.sec with openings := s.sec.openings.filter fun y => y.id != leAt (mboxIn s) 0 4 } } →
    ∃ t, exec (.finish a) s = .next t ∧
      match Config.mlDsaVerify o.alg o.pk "OPCN-SESS" (ct ++ o.hostNonce ++ o.nonce ++ leBytes 4 (leAt (mboxIn s) 0 4)) sig, Config.mlKemDecaps o.draw ct with
      | true, some ss => Done { u with sec := { u.sec with sessions := u.sec.sessions ++ [{
          id := leAt (mboxIn s) 0 4, key := sha3 (ascii "OPCN-K" ++ ss ++ o.hostNonce ++ o.nonce), nextReq := 0, lastC := s.c }] } } t 4 0 []
      | _, _ => Done u t 4 2 []) ∧
  (∀ (a : Acc) (s : State), running s = true → a.secure = true → s.sec.mboxLen = 4 →
    (∃ x ∈ s.sec.sessions, x.id = leAt (memReads s.sec.mboxBuf 0 4) 0 4 ∧ sessionLive s x = true) → ∃ t, exec (.close a) s = .next t ∧
      Done { s with sec := { s.sec with sessions := s.sec.sessions.filter fun y => y.id != leAt (memReads s.sec.mboxBuf 0 4) 0 4 } } t 5 0 []) ∧
  (∀ (a : Acc) (s : State), running s = true → a.secure = false → ∃ t, exec (.close a) s = .next t ∧ Done s t 5 2 []) ∧
  (∀ (a : Acc) (s : State) (j : Fin 8), running s = true → (if ownerWritten s then a.secure = true else a.who = .crown) → s.sec.mboxLen = 35 →
    2 ≤ j.val → (s.fuse.keys[j]).written = false → leAt (memReads s.sec.mboxBuf 0 35) 0 1 = j.val → leAt (memReads s.sec.mboxBuf 0 35) 2 1 < 16 →
    ∃ t, exec (.keyWrite a) s = .next t ∧ t.sec.mboxStatus = 0 ∧ (t.fuse.keys[j]).written = true ∧
      (t.fuse.keys[j]).hash = (memReads s.sec.mboxBuf 0 35).drop 3 ∧ (∀ k : Fin 8, k ≠ j → t.fuse.keys[k] = s.fuse.keys[k]) ∧
      t.fuse.svn = s.fuse.svn ∧ t.c = s.c) ∧
  (∀ (a : Acc) (s : State), running s = true → ownerWritten s = true → a.secure = false → ∃ t, exec (.keyWrite a) s = .next t ∧ Done s t 6 2 []) ∧
  (∀ (a : Acc) (s : State) (j : Fin 8), running s = true → a.secure = true → s.sec.mboxLen = 1 → leAt (memReads s.sec.mboxBuf 0 1) 0 1 = j.val →
    2 ≤ j.val → (s.fuse.keys[j]).written = true → (s.fuse.keys[j]).revoked = false →
    (bit (s.fuse.keys[j]).usage 1 = false ∨ 2 ≤ imageKeys s →
      ∃ t, exec (.keyRevoke a) s = .next t ∧ t.sec.mboxStatus = 0 ∧ t.fuse.keys[j] = { s.fuse.keys[j] with revoked := true } ∧
        (∀ k : Fin 8, k ≠ j → t.fuse.keys[k] = s.fuse.keys[k])) ∧
    (bit (s.fuse.keys[j]).usage 1 = true → imageKeys s ≤ 1 → ∃ t, exec (.keyRevoke a) s = .next t ∧ Done s t 7 2 [])) ∧
  (∀ (a : Acc) (op : Fin 16) (s : State), running s = true → (op = 0 ∨ 8 ≤ op.val) →
    exec (.mboxNoOperation a op) s = .next { s with sec := { s.sec with mboxOp := op, mboxStatus := 3 } }) ∧
  (∀ (a : Acc) (v : Word) (s : State), running s = true → exec (.secMboxData a (some v)) s = .next { s with sec := { s.sec with
    mboxBuf := memWrites s.sec.mboxBuf (4 * s.sec.mboxIdx) (leBytes 4 v.toNat), mboxIdx := (s.sec.mboxIdx + 1) % 2048 } }) ∧
  ∀ (id : Word) (x : Session) (s : State), running s = true → s.sec.sessions.find? (fun y => y.id == id.toNat) = some x →
    exec (.sessionIdleTimeout id) s = .next { reach s (x.lastC + 600000000000) with sec := { s.sec with
      sessions := s.sec.sessions.filter fun z => z.id != id.toNat } }

/-- Idle, Run and Standby requests (R545, R546, R547, R548, R549, R550, 14_resets_power_states_and_records.md). A secure Idle request
in Run, two Beats ahead, with nothing in progress and every Wing on time keeps its target; one too near is refused with reason 2
and an event, the state staying. A Run request in Idle with no work left ends it with the edge of the next Beat, in Standby it
resets the compute die with cause 0x0D, in Run it does nothing. A Standby request in Idle stops the cameras and power-gates the die;
elsewhere it is refused with reason 1. A target is read as the Landing of log entry 80. -/
def Obligations.PowerRequests : Prop :=
  (∀ (a : Acc) (s : State), running s = true → a.secure = true → s.pwr.state = 0 → s.sec.phase = 6 → s.pwr.dieSince = none →
    s.esc.beat + 2 ≤ landingOf s (join48 s.pwr.tgtLo s.pwr.tgtHi) → promotionBusy s = false → changeoverBusy s = false → allOnTime s = true →
    exec (.idleRequest a) s = .next { s with pwr := { s.pwr with req := 1, idleAt := some (landingOf s (join48 s.pwr.tgtLo s.pwr.tgtHi)), reason := 0 } }) ∧
  (∀ (a : Acc) (s : State), running s = true → a.secure = true → s.pwr.state = 0 → s.sec.phase = 6 → s.pwr.dieSince = none →
    landingOf s (join48 s.pwr.tgtLo s.pwr.tgtHi) < s.esc.beat + 2 →
    ∃ t, exec (.idleRequest a) s = .next t ∧ RecordsOnly { s with pwr := { s.pwr with req := 1, reason := 2 } } t) ∧
  (∀ (a : Acc) (s : State), running s = true → a.secure = true → s.pwr.state = 2 → s.esc.fresh = false → (∀ p : Fin 8, (s.phys[p]).work = none) →
    ∃ t, exec (.runRequest a) s = .next t ∧ t.pwr.state = 4 ∧ t.pwr.req = 0 ∧ t.esc.phase = .drain ∧ t.esc.beat = s.esc.beat + 1 ∧
      t.esc.edgeC = s.c ∧ (∀ p : Fin 16, (s.cam.port[p]).state = 4 → (t.cam.port[p]).accepting = true) ∧ t.c = s.c ∧ t.lw = s.lw ∧ t.fuse = s.fuse ∧
      t.img = s.img) ∧
  (∀ (a : Acc) (s : State), dieCanReset s = true → a.secure = true → s.pwr.state = 3 →
    ∃ t, exec (.runRequest a) s = .next t ∧ AfterDieReset s t 0x0D) ∧
  (∀ (a : Acc) (s : State), running s = true → a.secure = true → s.pwr.state = 0 →
    exec (.runRequest a) s = .next { s with pwr := { s.pwr with req := 0 } }) ∧
  (∀ (a : Acc) (s : State), running s = true → a.secure = true → s.pwr.state = 2 →
    ∃ t, exec (.standbyRequest a) s = .next t ∧ t.pwr.state = 3 ∧ t.pwr.reason = 0 ∧ t.pwr.idleAt = none ∧ t.iio.ready = false ∧ t.mem.dram = [] ∧
      (∀ p : Fin 16, (s.cam.port[p]).state ≠ 0 → (t.cam.port[p]).state = 6 ∧ (portUp s.cam.port[p] = true → (t.cam.port[p]).accepting = false)) ∧
      (∀ p : Fin 8, (t.phys[p]).gallery = [] ∧ (t.phys[p]).gen = (s.phys[p]).gen) ∧ t.fuse = s.fuse ∧ t.c = s.c) ∧
  ∀ (a : Acc) (s : State), running s = true → a.secure = true → s.pwr.state ≠ 2 →
    ∃ t, exec (.standbyRequest a) s = .next t ∧ RecordsOnly { s with pwr := { s.pwr with req := 2, reason := 1 } } t

/-- Clears of the logs, the NVM log and the mirror (R444, R453, R555, R556, R557, R558, R563, 14_resets_power_states_and_records.md).
A secure clear empties the live log, the NVM log with its numbering, the dump, or the integrity log, and event 0x0203 follows: the
first record of a cleared live log, and number 0 after a cleared NVM log. A read through REC_DATA of a present record whose CRC-32C
fails sets bad and bad_record. The records not yet in the NVM log are appended while it has room, and those that find it full are
counted lost, with an alarm once per fill. The mirror takes retention memory as it stands. -/
def Obligations.RecordLogs : Prop :=
  (∀ (a : Acc) (s : State), running s = true → a.secure = true →
    ∃ t r, exec (.clearLive a) s = .next t ∧ t.recd.live = [r] ∧ r.code = 0x0203 ∧ t.recd.lostCnt = 0 ∧ t.nvm = s.nvm ∧ t.ret.dump = s.ret.dump) ∧
  (∀ (a : Acc) (s : State), running s = true → a.secure = true →
    ∃ t, exec (.clearNvm a) s = .next t ∧ t.nvm = { s.nvm with log := [] } ∧ t.ret.dump = s.ret.dump ∧
      (s.recd.live.length < 8192 → ∃ r, t.recd.live = s.recd.live ++ [r] ∧ r.code = 0x0203 ∧ r.seq = 0 ∧ t.ret.recSeq = 1)) ∧
  (∀ (a : Acc) (s : State), running s = true → a.secure = true →
    ∃ t, exec (.clearDump a) s = .next t ∧ t.ret.dump = none ∧ t.nvm = s.nvm ∧ t.ret.intLog = s.ret.intLog) ∧
  (∀ (a : Acc) (s : State), running s = true → a.secure = true →
    ∃ t, exec (.integrityLogClear a) s = .next t ∧ RecordsOnly { s with ret := { s.ret with intLog := [], intLost := 0 } } t) ∧
  (∀ (a : Acc) (g : Bool) (s : State), running s = true → (addressedRecord s).isSome = true →
    exec (.recDataRead a g) s = .next { s with recd := { s.recd with bad := !g, badRecord := s.recd.badRecord || !g } }) ∧
  (∀ s : State, running s = true → 0 < s.ret.tailNew → s.nvm.log.length + s.ret.tailNew ≤ s.boot.nvmLog → s.ret.tailNew ≤ s.ret.tail.length →
    exec .nvmLogAppend s = .next { s with
      nvm := { s.nvm with log := s.nvm.log ++ s.ret.tail.drop (s.ret.tail.length - s.ret.tailNew) }, ret := { s.ret with tailNew := 0 } }) ∧
  (∀ s : State, running s = true → 0 < s.ret.tailNew → s.ret.tailNew ≤ s.ret.tail.length → s.nvm.log.length = s.boot.nvmLog →
    ∃ t, exec .nvmLogAppend s = .next t ∧ t.nvm.log = s.nvm.log ∧ t.recd.lost = true ∧
      (s.recd.nvmAlarm = true → t.recd.lostCnt = satInc s.recd.lostCnt s.ret.tailNew ∧ t.net.alarms = s.net.alarms) ∧
      (s.recd.nvmAlarm = false → ∃ x ∈ t.net.alarms, x.code = 0x0103)) ∧
  ∀ s : State, running s = true → exec .retentionMirror s = .next { s with nvm := { s.nvm with mirror := some s.ret } }

/-- How a register answers a read or a write: worlds, locks, reserved values and captures (R12, R571, R572, R573, R574, R576, R577,
R583, 15_management_space.md). A write of an unmapped address, or of a compute-die register while the die is blocked, changes
nothing and gives status 1; of a locked register it is a violation with status 2; of an RO register nothing with status 0; of an
RWS register without a secure access a violation with status 2, and with a value marked not used nothing with status 3. A write of
ESC_STATUS, INT_STATUS or NET_STATUS clears exactly the flags written 1. A register write answers that state. A read of a LO word
keeps the HI word for its accessor, who then reads it; a read of one word changes nothing but captures, unless it reads
SEC_MBOX_DATA. -/
def Obligations.RegisterAccess : Prop :=
  (∀ (s : State) (x : Acc) (a : Nat) (v : Word), readReg s a = none → writeReg s x a v = (s, 1)) ∧
  (∀ (s : State) (x : Acc) (a : Nat) (v : Word), dieReg a = true → dieBlocked s = true → writeReg s x a v = (s, 1)) ∧
  (∀ (s : State) (x : Acc) (a : Nat) (v : Word), (readReg s a).isSome = true → (dieReg a && dieBlocked s) = false → regLocked s a = true →
    writeReg s x a v = (violation s, 2)) ∧
  (∀ (s : State) (x : Acc) (a : Nat) (v : Word), (readReg s a).isSome = true → (dieReg a && dieBlocked s) = false → regLocked s a = false →
    (regAcc a = .ro → writeReg s x a v = (s, 0)) ∧
    (regAcc a = .rws → x.secure = false → writeReg s x a v = (violation s, 2)) ∧
    (regAcc a = .rws → x.secure = true → notUsed a v = true → writeReg s x a v = (s, 3))) ∧
  (∀ (s : State) (x : Acc) (v : Word), (writeReg s x 0x10118 v).1 = { s with esc := { s.esc with status := s.esc.status &&& ~~~v } } ∧
    (writeReg s x 0xA0000 v).1 = { s with int := { s.int with status := s.int.status &&& ~~~v } } ∧
    (writeReg s x 0x80200 v).1 = { s with net := { s.net with status := s.net.status &&& ~~~v } }) ∧
  (∀ (a : Acc) (addr v : Word) (s : State), running s = true →
    exec (.registerWrite a addr v) s = .next (writeReg (dropCapture s a.who) a addr.toNat v).1) ∧
  (∀ (a : Acc) (addr : Word) (s : State), running s = true → isLo addr.toNat = true →
    ∃ t, exec (.loWordCapture a addr) s = .next t ∧ t = { s with cap := t.cap } ∧ ((readReg s (addr.toNat + 4)).isSome = true →
      (readWord t a.who (addr.toNat + 4)).1 = readReg s (addr.toNat + 4))) ∧
  ∀ (s : State) (w : Who) (a : Nat), a ≠ 0xC0308 → ∃ cap, (readWord s w a).2 = { s with cap := cap }

/-- Crown answers every line once, and what its commands do (R513, R559, R560, R561, R562, R573,
14_resets_power_states_and_records.md). Out of boot halt id, rd of a mapped register that captures nothing, log, ilog of a present
report and dump with none stored write one answer and change nothing else. An allowed write acts as a non-secure access and leaves
event 0x0204 with its answer; one that crown_write forbids is err 3 with that event. A key is written only while no owner slot is.
A baud rate of the list takes effect after its answer, and an unknown or malformed line is err 1 or err 2. In boot halt rd, wr, log
and baud are err 3, and id is answered. -/
def Obligations.CrownCommands : Prop :=
  let Said := fun (s t : State) => ∃ line : List Byte, t = { s with recd := { s.recd with crownOut := s.recd.crownOut ++ [line] } }
  (∀ s : State, crownLive s = true → ∃ t, exec .crownId s = .next t ∧ Said s t) ∧
  (∀ (a : Word) (v : Word) (s : State), running s = true → a.toNat % 4 = 0 → a.toNat ≠ 0xC0308 → isLo a.toNat = false → s.cap = [] →
    readReg s a.toNat = some v → exec (.crownRd a 1) s = .next (crownOk s [hexN 8 v.toNat])) ∧
  (∀ (n : Nat) (s : State), running s = true → 1 ≤ n → n ≤ 8192 → ∃ t, exec (.crownLog n) s = .next t ∧ Said s t ∧
    t = crownOk s ((s.recd.live.drop (s.recd.live.length - n)).map fun r => hexBytes (eventBytes r))) ∧
  (∀ (i : Nat) (r : Report) (s : State), running s = true → s.ret.intLog[i]? = some r → exec (.crownIlog i) s = .next (crownOk s [hexBytes (reportBytes r)])) ∧
  (∀ s : State, running s = true → s.ret.dump = none → ∀ raw, exec (.crownDump raw) s = .next (crownOk s [ascii "none"])) ∧
  (∀ (a v : Word) (s : State) (x : State × Nat), running s = true → a.toNat % 4 = 0 → (s.recd.crownWrite = true ∨ s.sec.phase = 7) →
    x = writeReg (dropCapture s .crown) { who := .crown } a.toNat v → x.2 ≤ 2 →
    exec (.crownWr a v) s = .next (if x.2 = 0 then crownOk (crownEvent x.1 a.toNat v.toNat 0)
      else if x.2 = 1 then crownErr (crownEvent x.1 a.toNat v.toNat 4) 4 else crownErr (crownEvent x.1 a.toNat v.toNat 3) 3)) ∧
  (∀ (a v : Word) (s : State), running s = true → a.toNat % 4 = 0 → s.recd.crownWrite = false → s.sec.phase ≠ 7 →
    exec (.crownWr a v) s = .next (crownErr (crownEvent s a.toNat v.toNat 3) 3)) ∧
  (∀ (j : Fin 8) (alg : Bool) (u : Nat) (h : Digest) (s : State), running s = true → ownerWritten s = false → 2 ≤ j.val → u < 16 →
    ∃ t, exec (.crownKey j.val alg u h) s = .next t ∧ (t.fuse.keys[j]).written = true ∧ (t.fuse.keys[j]).hash = h ∧ (t.fuse.keys[j]).usage = u ∧
      (t.fuse.keys[j]).alg = alg ∧ ∀ k : Fin 8, k ≠ j → t.fuse.keys[k] = s.fuse.keys[k]) ∧
  (∀ (j u : Nat) (alg : Bool) (h : Digest) (s : State), running s = true → ownerWritten s = true → exec (.crownKey j alg u h) s = .next (crownErr s 3)) ∧
  (∀ (n : Nat) (s : State), running s = true → n ∈ [115200, 230400, 460800, 921600, 1500000, 3000000] →
    ∃ t, exec (.crownBaud n) s = .next t ∧ t.recd.baud = n ∧ t.recd.crownOut.length = s.recd.crownOut.length + 1 ∧ t = { s with recd := t.recd }) ∧
  (∀ s : State, running s = true → exec (.crownLineError .unknown) s = .next (crownErr s 1) ∧ exec (.crownLineError .malformed) s = .next (crownErr s 2)) ∧
  ∀ (s : State) (n : Nat) (a v : Word), crownLive s = true → s.sec.bootHalt = true →
    exec (.crownRd a n) s = .next (crownErr s 3) ∧ exec (.crownWr a v) s = .next (crownErr s 3) ∧ exec (.crownLog n) s = .next (crownErr s 3) ∧
    exec (.crownBaud n) s = .next (crownErr s 3)

/-- A write to ID_PART has no effect and is not reported as an error (R7). Whoever writes whatever value to ID_PART at address
0x0000_0000, the state is as it was and the status is 0, in every state. -/
def Obligations.IdPartWritesIgnored : Prop :=
  ∀ (s : State) (x : Acc) (v : Word), writeReg s x 0 v = (s, 0) ∧ readReg (writeReg s x 0 v).1 0 = readReg s 0

/-- PWR_RESET_CTRL and PWR_CTRL take effect only in the secure world, and a reset is answered before it acts (R565). A write of
PWR_RESET_CTRL or PWR_CTRL that is no secure-world access only records a violation with status 2. A secure one acts: the device or
the compute die resets, or the power state's request is taken. When a host asks for the device reset in a MGMT_WRITE, the response
is handed to the ports under the generation that was in force before the reset, and the reset then takes effect. -/
def Obligations.ResetCommandsAreSecure : Prop :=
  (∀ (s : State) (x : Acc) (v : Word), x.secure = false → writeReg s x 0xD0010 v = (violation s, 2) ∧ writeReg s x 0xD0004 v = (violation s, 2)) ∧
  (∀ (s : State) (x : Acc) (v : Word), x.secure = true →
    (bit v.toNat 0 = true → (writeReg s x 0xD0010 v).1 = deviceReset s 0x07) ∧
    (bit v.toNat 0 = false → bit v.toNat 1 = true → (writeReg s x 0xD0010 v).1 = dieReset s 0x07) ∧
    (bits v.toNat 0 2 < 3 → (writeReg s x 0xD0004 v).1 = writePwr s v.toNat)) ∧
  ∀ (r : Req) (v : Word) (y : Session) (s : State), running s = true → portLive s r.port = true → r.host.val < s.boot.hosts.length → r.full = false →
    r.ts = false → r.addr = 0xD0010 → bit v.toNat 0 = true → (∀ x ∈ s.net.responses[r.host], x.reqId ≠ r.reqId) →
    secureSession s r (reqBytes r 1 1 [v]) = some y →
    ∃ t d, exec (.mgmtWrite r v) s = .next t ∧ t.net.sent = s.net.sent ++ [d] ∧ d.typ = 0x11 ∧ d.gen = s.net.gen ∧ d.dst = 1 + r.host.val ∧
      AfterDeviceReset s t 0x07
end

