-- ==== Sys2Proof/Laws/Digest.lean ====
section
/-! SUPPORT. A SHA3-256 digest has 32 bytes: every step of the permutation keeps five planes of five lanes. -/

namespace Sys2Proof.Machine

open Sys2Proof

/-- A Keccak state of five planes of five lanes. -/
def Square (a : Keccak) : Prop := a.length = 5 ∧ ∀ p ∈ a, p.length = 5

theorem kMove_square (a : Keccak) : Square (kMove a) := by
  simp [Square, kMove]

theorem kChi_square {a : Keccak} (h : Square a) : Square (kChi a) := by
  refine ⟨by simp [kChi, h.1], ?_⟩
  simp only [kChi, List.mem_map, forall_exists_index, and_imp]
  rintro _ p hp rfl
  simp [planeNext, h.2 p hp]

theorem kIota_square {n : Nat} {a : Keccak} (h : Square a) : Square (kIota n a) := by
  unfold kIota
  split
  · exact ⟨by simpa using h.1, fun p hp => by
      rcases List.mem_cons.1 hp with rfl | hp
      · simpa using h.2 _ List.mem_cons_self
      · exact h.2 _ (List.mem_cons_of_mem _ hp)⟩
  · exact h

theorem kPerm_square (a : Keccak) : Square (kPerm a) := by
  have step : ∀ (l : List Nat) (a : Keccak), Square a → Square (l.foldl (fun a n => kIota n (kChi (kMove (kTheta a)))) a) := by
    intro l
    induction l with
    | nil => exact fun _ h => h
    | cons n l ih => exact fun a _ => ih _ (kIota_square (kChi_square (kMove_square _)))
  rw [kPerm, List.range_succ_eq_map, List.foldl_cons]
  exact step _ _ (kIota_square (kChi_square (kMove_square _)))

theorem kBlocks_square (n : Nat) : ∀ (a : Keccak) (bs : List Byte), Square a → Square (kBlocks n a bs) := by
  induction n with
  | zero => exact fun _ _ h => h
  | succ n ih => exact fun a bs _ => ih _ _ (kPerm_square _)

/-- A digest has 32 bytes (R281, R510, R520). -/
theorem sha3_length (bs : List Byte) : (sha3 bs).length = 32 := by
  have key : ∀ a : Keccak, Square a → (((a.headD []).take 4).flatMap fun l => leBytes 8 l.toNat).length = 32 := by
    rintro (_ | ⟨p, a⟩) h
    · simp [Square] at h
    · simp [List.length_flatMap, leBytes, h.2 p List.mem_cons_self]
  exact key _ (kBlocks_square _ _ _ (by simp [Square]))

end Sys2Proof.Machine
end

