-- ==== Sys2Proof/Laws/Frame.lean ====
section
/-! SUPPORT. What nearly every function of the model leaves alone: the queue of commands, the fuses and C. One lemma a function; those
that move time, burn a fuse or reset the device are in Laws/Moves.lean. -/

namespace Sys2Proof.Machine

open Sys2Proof

/-- The queue, the fuses and C. -/
def State.kept (s : State) : List Instr × Fuses × Nat := (s.pending, s.fuse, s.c)

@[simp] theorem kept_mk (a0 a1 a2 a3 a4 a5 a6 a7 a8 a9 a10 a11 a12 a13 a14 a15 a16 a17 a18 a19 a20 a21 a22 a23 a24 a25 a26 a27 a28 a29 a30 a31 a32) :
    State.kept ⟨a0, a1, a2, a3, a4, a5, a6, a7, a8, a9, a10, a11, a12, a13, a14, a15, a16, a17, a18, a19, a20, a21, a22, a23, a24, a25, a26, a27, a28, a29, a30, a31, a32⟩ = (a0, a4, a2) := (rfl)
@[simp] theorem kept_eta (s : State) : (s.pending, s.fuse, s.c) = s.kept := (rfl)
@[simp] theorem kept_ite (p : Prop) [Decidable p] (a b : State) : (if p then a else b).kept = if p then a.kept else b.kept := by split <;> rfl
@[simp] theorem kept_foldl {α : Type} (f : State → α → State) (h : ∀ s x, (f s x).kept = s.kept) (l : List α) (s : State) :
    (l.foldl f s).kept = s.kept := by
  induction l generalizing s with
  | nil => rfl
  | cons x l ih => simp [ih, h]
theorem kept_foldl_fst {α β : Type} (f : State × β → α → State × β) (h : ∀ s x, (f s x).1.kept = s.1.kept) (l : List α) (s : State × β) :
    (l.foldl f s).1.kept = s.1.kept := by
  induction l generalizing s with
  | nil => rfl
  | cons x l ih => simp [ih, h]
@[simp] theorem fresh_kept (s : State) : (fresh s).2.kept = s.kept := by
  unfold fresh
  simp
@[simp] theorem random_kept (s : State) : (random s).2.kept = s.kept := by
  unfold random
  simp
@[simp] theorem randomBytes_kept (v0 : Nat) (v1 : State) : (randomBytes v0 v1).2.kept = v1.kept := by
  induction v0 generalizing v1 with
  | zero => rfl
  | succ n ih => simp [randomBytes, ih]
@[simp] theorem latchTarget_kept (s : State) : (latchTarget s).kept = s.kept := by
  unfold latchTarget
  simp
@[simp] theorem alarmFn_kept (s : State) : (alarmFn s).kept = s.kept := by
  unfold alarmFn
  simp
@[simp] theorem alarmEntry_kept (s : State) (code : Nat) (phys : Nat) (lwing : Nat) (arg : List Byte) :
    (alarmEntry s code phys lwing arg).kept = s.kept := by
  unfold alarmEntry
  simp
@[simp] theorem putRecord_kept (s : State) (e : Ev) (again : Nat) : (putRecord s e again).kept = s.kept := by
  unfold putRecord
  simp
@[simp] theorem mergeRecord_kept (s : State) : (mergeRecord s).kept = s.kept := by
  unfold mergeRecord
  simp
@[simp] theorem logEvent_kept (s : State) (e : Ev) : (logEvent s e).kept = s.kept := by
  unfold logEvent
  simp
@[simp] theorem raiseAlarm_kept (s : State) (code : Nat) (phys : Nat) (lwing : Nat) (arg : List Byte) :
    (raiseAlarm s code phys lwing arg).kept = s.kept := by
  unfold raiseAlarm
  simp
@[simp] theorem flagEvent_kept (s : State) (addr : Nat) (mask : Nat) (detail : List Byte) (phys : Nat) (lwing : Nat) :
    (flagEvent s addr mask detail phys lwing).kept = s.kept := by
  unfold flagEvent
  simp
@[simp] theorem otherEvent_kept (s : State) (arg : List Byte) (phys : Nat) (lwing : Nat) : (otherEvent s arg phys lwing).kept = s.kept := by
  unfold otherEvent
  simp
@[simp] theorem linkEvent_kept (s : State) (index : Nat) (passed : Bool) : (linkEvent s index passed).kept = s.kept := by
  unfold linkEvent
  simp
@[simp] theorem resetEvent_kept (s : State) (kind : Nat) (index : Nat) (cause : Nat) (gen : Nat) :
    (resetEvent s kind index cause gen).kept = s.kept := by
  unfold resetEvent
  simp
@[simp] theorem addReport_kept (s : State) (r : Report) : (addReport s r).kept = s.kept := by
  unfold addReport
  simp
@[simp] theorem sendDg_kept (s : State) (typ : Nat) (dst : Nat) (payload : List Byte) (flags : Nat) :
    (sendDg s typ dst payload flags).kept = s.kept := by
  unfold sendDg
  simp
@[simp] theorem updPhys_kept (s : State) (p : PWing) (f : Phys → Phys) : (updPhys s p f).kept = s.kept := by
  unfold updPhys
  simp
@[simp] theorem updLw_kept (s : State) (k : LWing) (f : LogWing → LogWing) : (updLw s k f).kept = s.kept := by
  unfold updLw
  simp
@[simp] theorem setMap_kept (s : State) (k : Nat) (p : Option PWing) (n : Nat) : (setMap s k p n).kept = s.kept := by
  unfold setMap
  simp
@[simp] theorem dramWrite_kept (s : State) (a : Nat) (bs : List Byte) : (dramWrite s a bs).kept = s.kept := by
  unfold dramWrite
  simp
@[simp] theorem violation_kept (s : State) : (violation s).kept = s.kept := by
  unfold violation
  simp
@[simp] theorem stopCameras_kept (s : State) : (stopCameras s).kept = s.kept := by
  unfold stopCameras
  simp
@[simp] theorem emptyCalendar_kept (s : State) : (emptyCalendar s).kept = s.kept := by
  unfold emptyCalendar
  simp
@[simp] theorem stopBeats_kept (s : State) : (stopBeats s).kept = s.kept := by
  unfold stopBeats
  simp
@[simp] theorem enterHold_kept (s : State) (reason : Nat) (sect : Nat) (index : Nat) (offset : Nat) :
    (enterHold s reason sect index offset).kept = s.kept := by
  unfold enterHold
  simp
@[simp] theorem recoverTail_kept (s : State) : (recoverTail s).kept = s.kept := by
  unfold recoverTail
  simp
@[simp] theorem nextGeneration_kept (s : State) : (nextGeneration s).kept = s.kept := by
  unfold nextGeneration
  simp
@[simp] theorem configurePorts_kept (s : State) : (configurePorts s).kept = s.kept := by
  unfold configurePorts
  simp
@[simp] theorem bootVerified_kept (s : State) (cause : Nat) (dumped : Bool) : (bootVerified s cause dumped).kept = s.kept := by
  unfold bootVerified
  simp
@[simp] theorem boot_kept (s : State) (dumped : Bool) : (boot s dumped).kept = s.kept := by
  unfold boot
  simp
@[simp] theorem dieWings_kept (s : State) : (dieWings s).kept = s.kept := by
  unfold dieWings
  simp
@[simp] theorem dieIsp_kept (s : State) : (dieIsp s).kept = s.kept := by
  unfold dieIsp
  simp
@[simp] theorem dieMemory_kept (s : State) : (dieMemory s).kept = s.kept := by
  unfold dieMemory
  simp
@[simp] theorem dieRecords_kept (s : State) : (dieRecords s).kept = s.kept := by
  unfold dieRecords
  simp
@[simp] theorem dieReset_kept (s : State) (cause : Nat) : (dieReset s cause).kept = s.kept := by
  unfold dieReset
  (repeat' split) <;> simp [*]
@[simp] theorem captureDump_kept (s : State) (cause : Nat) : (captureDump s cause).kept = s.kept := by
  unfold captureDump
  (repeat' split) <;> simp [*]
@[simp] theorem logSummary_kept (s : State) (p : PWing) (bs : List Byte) : (logSummary s p bs).kept = s.kept := by
  unfold logSummary
  simp
@[simp] theorem sameVersion_kept (s : State) (p : Option PWing) (b : Nat) (r : Region) : (sameVersion s p b r).kept = s.kept := by
  unfold sameVersion
  (repeat' split) <;> simp [*]
@[simp] theorem rollBack_kept (s : State) (k : Nat) (p : Option PWing) (b : Nat) : (rollBack s k p b).kept = s.kept := by
  unfold rollBack
  simp
@[simp] theorem holdReason_kept (s : State) (k : Nat) (beat : Nat) (reason : Nat) (objs : List ObjRec) :
    (holdReason s k beat reason objs).kept = s.kept := by
  unfold holdReason
  simp
@[simp] theorem dueRetract_kept (s : State) (k : Nat) (b1 : Nat) (b2 : Nat) (cause : Nat) : (dueRetract s k b1 b2 cause).kept = s.kept := by
  unfold dueRetract
  simp
@[simp] theorem setJobRec_kept (s : State) (j : JobRec) : (setJobRec s j).kept = s.kept := by
  unfold setJobRec
  simp
@[simp] theorem discardStep_kept (s : State) (p : PWing) : (discardStep s p).kept = s.kept := by
  unfold discardStep
  (repeat' split) <;> simp [*]
@[simp] theorem doomInterval_kept (s : State) (k : LWing) (reason : Nat) (nextId : Nat) (done : List ObjRec) :
    (doomInterval s k reason nextId done).kept = s.kept := by
  unfold doomInterval
  simp
@[simp] theorem abandonWing_kept (s : State) (p : PWing) : (abandonWing s p).kept = s.kept := by
  unfold abandonWing
  (repeat' split) <;> simp [*]
@[simp] theorem loseWing_kept (s : State) (k : LWing) (p : Nat) (beat : Nat) (done : List ObjRec) (asm : Asm) :
    (loseWing s k p beat done asm).kept = s.kept := by
  unfold loseWing
  simp
@[simp] theorem isolate_kept (s : State) (p : PWing) (resetCause : Nat) (faultCause : Nat) :
    (isolate s p resetCause faultCause).kept = s.kept := by
  unfold isolate
  simp
@[simp] theorem afterFence_kept (s : State) (p : PWing) (role : Nat) (k : LWing) (w : Option Work) :
    (afterFence s p role k w).kept = s.kept := by
  unfold afterFence
  simp
@[simp] theorem fenceWing_kept (s : State) (p : PWing) (r : Report) : (fenceWing s p r).kept = s.kept := by
  unfold fenceWing
  simp
@[simp] theorem progressFault_kept (s : State) (p : PWing) (unit : Nat) (nj : Nat) (done : Nat) (deadline : Nat) (index : Nat) :
    (progressFault s p unit nj done deadline index).kept = s.kept := by
  unfold progressFault
  simp
@[simp] theorem rewriteBlock_kept (s : State) (a : Nat) : (rewriteBlock s a).kept = s.kept := by
  unfold rewriteBlock
  (repeat' split) <;> simp [*]
@[simp] theorem haltQueue_kept (s : State) (p : PWing) (qi : Nat) : (haltQueue s p qi).kept = s.kept := by
  unfold haltQueue
  simp
@[simp] theorem noteDefect_kept (s : State) (a : Nat) : (noteDefect s a).kept = s.kept := by
  unfold noteDefect
  simp
@[simp] theorem memoryFault_kept (s : State) (p : PWing) (qi : Nat) (block : Nat) (r : Report) :
    (memoryFault s p qi block r).kept = s.kept := by
  unfold memoryFault
  dsimp only
  (repeat' split) <;> simp [*]
@[simp] theorem unitFault_kept (s : State) (p : PWing) (unit : Nat) (beat : Nat) (r : Report) :
    (unitFault s p unit beat r).kept = s.kept := by
  unfold unitFault
  simp
@[simp] theorem faultAttrib_kept (s : State) (p : PWing) (qi : Nat) (f : CheckFail) (g : CheckFail) (beat : Nat) (r : Report) :
    (faultAttrib s p qi f g beat r).kept = s.kept := by
  unfold faultAttrib
  (repeat' split) <;> simp [*]
@[simp] theorem prioritise_kept (s : State) (p : PWing) : (prioritise s p).kept = s.kept := by
  unfold prioritise
  simp
@[simp] theorem countTransient_kept (s : State) (p : PWing) : (countTransient s p).kept = s.kept := by
  unfold countTransient
  simp
@[simp] theorem violations_kept (v0 : Nat) (v1 : State) : (violations v0 v1).kept = v1.kept := by
  induction v0 generalizing v1 with
  | zero => rfl
  | succ n ih => simp [violations, ih]
@[simp] theorem unitWrite_kept (s : State) (secure : SecMap → Bool) (a : Nat) (bs : List Byte) :
    (unitWrite s secure a bs).kept = s.kept := by
  unfold unitWrite
  (repeat' split) <;> simp [*]
@[simp] theorem flagWritten_kept (s : State) (p : Port) (j : Nat) (ivl : Nat) (mask : Nat) : (flagWritten s p j ivl mask).kept = s.kept := by
  unfold flagWritten
  (repeat' split) <;> simp [*]
@[simp] theorem ringWrite_kept (s : State) (p : Nat) (o : OutStream) (ivl : Nat) (index : Nat) (flags : Nat) (tag : Word) (vals : List Nat) :
    (ringWrite s p o ivl index flags tag vals).kept = s.kept := by
  unfold ringWrite
  simp
@[simp] theorem updPort_kept (s : State) (p : Port) (f : CamPort → CamPort) : (updPort s p f).kept = s.kept := by
  unfold updPort
  simp
@[simp] theorem updIsp_kept (s : State) (p : Port) (f : IspCam → IspCam) : (updIsp s p f).kept = s.kept := by
  unfold updIsp
  simp
@[simp] theorem camFlag_kept (s : State) (mask : Nat) : (camFlag s mask).kept = s.kept := by
  unfold camFlag
  simp
@[simp] theorem ispFlag_kept (s : State) (mask : Nat) : (ispFlag s mask).kept = s.kept := by
  unfold ispFlag
  simp
@[simp] theorem updLanes_kept (s : State) (p : Nat) (f : Nat → LaneSt → LaneSt) : (updLanes s p f).kept = s.kept := by
  unfold updLanes
  simp
@[simp] theorem sleepLanes_kept (s : State) (p : Nat) : (sleepLanes s p).kept = s.kept := by
  unfold sleepLanes
  simp
@[simp] theorem wakeLanes_kept (s : State) (p : Nat) : (wakeLanes s p).kept = s.kept := by
  unfold wakeLanes
  simp
@[simp] theorem lockLanes_kept (s : State) (p : Nat) : (lockLanes s p).kept = s.kept := by
  unfold lockLanes
  simp
@[simp] theorem sendControl_kept (s : State) (p : Port) : (sendControl s p).kept = s.kept := by
  unfold sendControl
  (repeat' split) <;> simp [*]
@[simp] theorem enterStage_kept (s : State) (p : Port) (st : Stage) : (enterStage s p st).kept = s.kept := by
  unfold enterStage
  simp
@[simp] theorem startAttempt_kept (s : State) (p : Port) : (startAttempt s p).kept = s.kept := by
  unfold startAttempt
  (repeat' split) <;> simp [*]
@[simp] theorem failAttempt_kept (s : State) (p : Port) (cause : Nat) (step : Option Nat) : (failAttempt s p cause step).kept = s.kept := by
  unfold failAttempt
  (repeat' split) <;> simp [*]
@[simp] theorem toStep_kept (s : State) (p : Port) (e : CamEntry) (j : Nat) : (toStep s p e j).kept = s.kept := by
  unfold toStep
  simp
@[simp] theorem ackOk_kept (s : State) (p : Port) (e : CamEntry) (v : Nat) : (ackOk s p e v).kept = s.kept := by
  unfold ackOk
  dsimp only
  (repeat' split) <;> simp [*]
@[simp] theorem unanswered_kept (s : State) (p : Port) : (unanswered s p).kept = s.kept := by
  unfold unanswered
  simp
@[simp] theorem codeErrors_kept (s : State) (p : Port) : (codeErrors s p).kept = s.kept := by
  unfold codeErrors
  simp
@[simp] theorem checkErrors_kept (s : State) (p : Port) : (checkErrors s p).kept = s.kept := by
  unfold checkErrors
  simp
@[simp] theorem speedCut_kept (s : State) (p : Port) : (speedCut s p).kept = s.kept := by
  unfold speedCut
  simp
@[simp] theorem padFrame_kept (s : State) (p : Port) : (padFrame s p).kept = s.kept := by
  unfold padFrame
  (repeat' split) <;> simp [*]
@[simp] theorem flagStream_kept (mask : Nat) (p : Port) (s : State) (j : Nat) : (flagStream mask p s j).kept = s.kept := by
  unfold flagStream
  simp
@[simp] theorem flagLast_kept (s : State) (p : Port) (mask : Nat) : (flagLast s p mask).kept = s.kept := by
  unfold flagLast
  simp
@[simp] theorem digestLine_kept (s : State) (p : Port) (tag : Word) (bs : List Byte) : (digestLine s p tag bs).kept = s.kept := by
  unfold digestLine
  simp
@[simp] theorem fillEntry_kept (s : State) (p : Port) (data : Option (List Nat)) : (fillEntry s p data).kept = s.kept := by
  unfold fillEntry
  dsimp only
  (repeat' split) <;> simp [*]
@[simp] theorem corruptLine_kept (s : State) (p : Port) (bs : List Byte) : (corruptLine s p bs).kept = s.kept := by
  unfold corruptLine
  (repeat' split) <;> simp [*]
@[simp] theorem portDown_kept (s : State) (p : Port) (cause : Nat) (resetCause : Nat) : (portDown s p cause resetCause).kept = s.kept := by
  unfold portDown
  (repeat' split) <;> simp [*]
@[simp] theorem lossAlarm_kept (s : State) (p : Port) (cause : Nat) : (lossAlarm s p cause).kept = s.kept := by
  unfold lossAlarm
  simp
@[simp] theorem losePort_kept (s : State) (p : Port) (cause : Nat) : (losePort s p cause).kept = s.kept := by
  unfold losePort
  simp
@[simp] theorem relinkPort_kept (s : State) (p : Port) : (relinkPort s p).kept = s.kept := by
  unfold relinkPort
  simp
@[simp] theorem stopPort_kept (s : State) (p : Port) : (stopPort s p).kept = s.kept := by
  unfold stopPort
  simp
@[simp] theorem landingPort_kept (s : State) (p : Port) : (landingPort s p).kept = s.kept := by
  unfold landingPort
  simp
@[simp] theorem landingPorts_kept (s : State) : (landingPorts s).kept = s.kept := by
  unfold landingPorts
  simp
@[simp] theorem countFmt_kept (s : State) (p : Port) (n : Nat) : (countFmt s p n).kept = s.kept := by
  unfold countFmt
  simp
@[simp] theorem unacceptedLine_kept (s : State) (p : Port) (e : LineEnd) : (unacceptedLine s p e).kept = s.kept := by
  unfold unacceptedLine
  simp
@[simp] theorem takeEvent_kept (s : State) (g : Fin 8) (t : Nat) : (takeEvent s g t).kept = s.kept := by
  unfold takeEvent
  (repeat' split) <;> simp [*]
@[simp] theorem fireGroup_kept (s : State) (g : Fin 8) (t : Nat) : (fireGroup s g t).kept = s.kept := by
  unfold fireGroup
  simp
@[simp] theorem emitLine_kept (s : State) (p : Port) (j : Nat) (o : OutStream) (ivl : Nat) (flags : Nat) (tag : Word) (vals : List Nat) :
    (emitLine s p j o ivl flags tag vals).kept = s.kept := by
  unfold emitLine
  simp
@[simp] theorem stage7_kept (s : State) (p : Port) (colour : Bool) (j : Nat) (o : OutStream) (l : StageLine) :
    (stage7 s p colour j o l).kept = s.kept := by
  unfold stage7
  simp
@[simp] theorem cutLine_kept (s : State) (p : Port) (ivl : Nat) : (cutLine s p ivl).kept = s.kept := by
  unfold cutLine
  simp
@[simp] theorem processLine_kept (s : State) (p : Port) (e : IspEntry) (w : Nat) (f : PixFmt) (l : FifoLine) :
    (processLine s p e w f l).kept = s.kept := by
  unfold processLine
  simp
@[simp] theorem resetPipe_kept (s : State) (q : Pipe) (cause : Nat) : (resetPipe s q cause).kept = s.kept := by
  unfold resetPipe
  simp
@[simp] theorem tblWrite_kept (s : State) (v : Word) : (tblWrite s v).kept = s.kept := by
  unfold tblWrite
  dsimp only
  (repeat' split) <;> simp [*]
@[simp] theorem commitMainCore_kept (s : State) : (commitMainCore s).kept = s.kept := by
  unfold commitMainCore
  simp
@[simp] theorem commitGainCore_kept (s : State) : (commitGainCore s).kept = s.kept := by
  unfold commitGainCore
  dsimp only
  (repeat' split) <;> simp [*]
@[simp] theorem landingTables_kept (s : State) (n : Nat) : (landingTables s n).kept = s.kept := by
  unfold landingTables
  exact kept_foldl _ (fun s x => by (repeat' split) <;> simp) _ _
@[simp] theorem calibrate_kept (s : State) (b : Nat) (complete : Nat → Bool) : (calibrate s b complete).kept = s.kept := by
  unfold calibrate
  refine kept_foldl _ (fun s x => ?_) _ _
  split
  · rfl
  · split
    · rfl
    · simp
@[simp] theorem reportCuts_kept (s : State) (n : Nat) : (reportCuts s n).kept = s.kept := by
  unfold reportCuts
  simp
@[simp] theorem startStep_kept (s : State) (p : PWing) : (startStep s p).kept = s.kept := by
  unfold startStep
  (repeat' split) <;> simp [*]
@[simp] theorem completeStep_kept (s : State) (p : PWing) : (completeStep s p).kept = s.kept := by
  unfold completeStep
  (repeat' split) <;> simp [*]
@[simp] theorem markVerified_kept (s : State) (w : Work) (c : Cmd) : (markVerified s w c).kept = s.kept := by
  unfold markVerified
  simp
@[simp] theorem asmFlags_kept (k : LWing) (s : State) (o : AsmNote) : (asmFlags k s o).kept = s.kept := by
  unfold asmFlags
  simp
@[simp] theorem flagTally_kept (s : State) (k : LWing) (t : Tally) : (flagTally s k t).kept = s.kept := by
  unfold flagTally
  (repeat' split) <;> simp [*]
@[simp] theorem applyEng_kept (s : State) (p : PWing) (w : Work) (e : Eng) : (applyEng s p w e).kept = s.kept := by
  unfold applyEng
  simp
@[simp] theorem runAssembler_kept (s : State) (p : PWing) (c : Cmd) : (runAssembler s p c).kept = s.kept := by
  unfold runAssembler
  (repeat' split) <;> simp [*]
@[simp] theorem popCmd_kept (s : State) (p : PWing) (qi : Nat) (be : Bool) (c : Cmd) : (popCmd s p qi be c).kept = s.kept := by
  unfold popCmd
  simp
@[simp] theorem noteExport_kept (s : State) (p : PWing) (w : Work) (c : Cmd) : (noteExport s p w c).kept = s.kept := by
  unfold noteExport
  (repeat' split) <;> simp [*]
@[simp] theorem completeCmd_kept (s : State) (p : PWing) (w : Work) (qi : Nat) (be : Bool) (c : Cmd) (e : Eng) :
    (completeCmd s p w qi be c e).kept = s.kept := by
  unfold completeCmd
  simp
@[simp] theorem failFlags_kept (s : State) (e : Option EngErr) : (failFlags s e).kept = s.kept := by
  unfold failFlags
  (repeat' split) <;> simp [*]
@[simp] theorem failCmd_kept (s : State) (p : PWing) (w : Work) (qi : Nat) (be : Bool) (idx : Nat) (c : Cmd) (f : CheckFail) :
    (failCmd s p w qi be idx c f).kept = s.kept := by
  unfold failCmd
  simp
@[simp] theorem linkErrors_kept (s : State) (hw : Hw) : (linkErrors s hw).kept = s.kept := by
  unfold linkErrors
  simp
@[simp] theorem lateStart_kept (s : State) (p : PWing) (w : Work) (qi : Nat) (idx : Nat) (c : Cmd) :
    (lateStart s p w qi idx c).kept = s.kept := by
  unfold lateStart
  simp
@[simp] theorem issueNow_kept (p : PWing) (qi : Nat) (be : Bool) (idx : Nat) (c : Cmd) (w : Work) (hw : Hw) (s : State) :
    (issueNow p qi be idx c w hw s).kept = s.kept := by
  unfold issueNow
  dsimp only
  split
  · simp
  · split <;> simp
@[simp] theorem confirmFault_kept (s : State) (p : PWing) (w : Work) (f : Failing) (g : CheckFail) (again : List Byte) :
    (confirmFault s p w f g again).kept = s.kept := by
  unfold confirmFault
  simp
@[simp] theorem repeatFailed_kept (s : State) (p : PWing) (w : Work) (f : Failing) (g : CheckFail) (sums : List (List Byte)) :
    (repeatFailed s p w f g sums).kept = s.kept := by
  unfold repeatFailed
  simp
@[simp] theorem repeatPassed_kept (s : State) (p : PWing) (qi : Nat) (w : Work) (f : Failing) (sums : List (List Byte)) (e : Eng) :
    (repeatPassed s p qi w f sums e).kept = s.kept := by
  unfold repeatPassed
  simp
@[simp] theorem repeatNow_kept (p : PWing) (qi : Nat) (r : Repeat) (w : Work) (f : Failing) (cycles : Nat) (s : State) :
    (repeatNow p qi r w f cycles s).kept = s.kept := by
  unfold repeatNow
  dsimp only
  (repeat' split) <;> simp [*]
@[simp] theorem makeCurrent_kept (s : State) (p : PWing) (b : Nat) (r : Region) : (makeCurrent s p b r).kept = s.kept := by
  unfold makeCurrent
  simp
@[simp] theorem commitRegions_kept (s : State) (k : LWing) (p : PWing) (b : Nat) (written : List Nat) :
    (commitRegions s k p b written).kept = s.kept := by
  unfold commitRegions
  simp
@[simp] theorem kvStore_kept (s : State) (k : LWing) (w : Work) : (kvStore s k w).kept = s.kept := by
  unfold kvStore
  simp
@[simp] theorem missingEvent_kept (s : State) (k : Nat) (beat : Nat) (slot : Nat) : (missingEvent s k beat slot).kept = s.kept := by
  unfold missingEvent
  simp
@[simp] theorem emptyResults_kept (s : State) (k : LWing) (p : PWing) : (emptyResults s k p).kept = s.kept := by
  unfold emptyResults
  simp
@[simp] theorem copyResults_kept (s : State) (k : LWing) (p : PWing) (w : Work) (replayed : Bool) :
    (copyResults s k p w replayed).kept = s.kept := by
  unfold copyResults
  simp
@[simp] theorem commitWork_kept (s : State) (k : LWing) (p : PWing) (w : Work) (replayed : Bool) :
    (commitWork s k p w replayed).kept = s.kept := by
  unfold commitWork
  simp
@[simp] theorem startWork_kept (s : State) (p : PWing) : (startWork s p).kept = s.kept := by
  unfold startWork
  simp
@[simp] theorem betweenTables_kept (s : State) (p : PWing) : (betweenTables s p).kept = s.kept := by
  unfold betweenTables
  (repeat' split) <;> simp [*]
@[simp] theorem closeAreas_kept (s : State) (i : Nat) : (closeAreas s i).kept = s.kept := by
  unfold closeAreas
  (repeat' split) <;> simp [*]
@[simp] theorem closeInterval_kept (s : State) (i : Nat) : (closeInterval s i).kept = s.kept := by
  unfold closeInterval
  simp
@[simp] theorem overrunAt_kept (s : State) (p : PWing) : (overrunAt s p).kept = s.kept := by
  unfold overrunAt
  (repeat' split) <;> simp [*]
@[simp] theorem issueEdge_kept (s : State) : (issueEdge s).kept = s.kept := by
  unfold issueEdge
  simp
@[simp] theorem graceWing_kept (s : State) (p : PWing) : (graceWing s p).kept = s.kept := by
  unfold graceWing
  (repeat' split) <;> simp [*]
@[simp] theorem holdLate_kept (s : State) (k : LWing) (b : Nat) : (holdLate s k b).kept = s.kept := by
  unfold holdLate
  simp
@[simp] theorem markLate_kept (s : State) (b : Nat) : (markLate s b).kept = s.kept := by
  unfold markLate
  simp
@[simp] theorem primaryItems_kept (s : State) (b : Nat) : (primaryItems s b).2.kept = s.kept := by
  unfold primaryItems
  simp
@[simp] theorem settleReviews_kept (s : State) (b : Nat) : (settleReviews s b).kept = s.kept := by
  unfold settleReviews
  simp
@[simp] theorem reviewItems_kept (s : State) (b : Nat) : (reviewItems s b).2.kept = s.kept := by
  unfold reviewItems
  simp
@[simp] theorem postFiring_kept (s : State) (e : EjEntry) : (postFiring s e).1.kept = s.kept := by
  unfold postFiring
  (repeat' split) <;> simp [*]
@[simp] theorem countUa_kept (s : State) (reason : Nat) (n : Nat) : (countUa s reason n).kept = s.kept := by
  unfold countUa
  simp
@[simp] theorem addRecord_kept (s : State) (r : VRec) : (addRecord s r).kept = s.kept := by
  unfold addRecord
  simp
@[simp] theorem postFirings_kept (s : State) (fs : List (Nat × SealItem × EjEntry)) : (postFirings s fs).1.kept = s.kept := by
  unfold postFirings
  exact kept_foldl_fst _ (by simp) _ _
@[simp] theorem postItem_kept (s : State) (x : SealItem) (missed : Bool) : (postItem s x missed).kept = s.kept := by
  unfold postItem
  simp
@[simp] theorem postSummary_kept (s : State) (b : Nat) (xs : List SealItem) (missed : Bool) : (postSummary s b xs missed).kept = s.kept := by
  unfold postSummary
  (repeat' split) <;> simp [*]
@[simp] theorem enqueueRecords_kept (s : State) (n : Nat) : (enqueueRecords s n).kept = s.kept := by
  unfold enqueueRecords
  simp
@[simp] theorem sealBeat_kept (s : State) (n : Nat) (b : Nat) : (sealBeat s n b).kept = s.kept := by
  unfold sealBeat
  dsimp only
  (repeat' split) <;> simp [*]
@[simp] theorem endTest_kept (s : State) (p : PWing) (result : Nat) : (endTest s p result).kept = s.kept := by
  unfold endTest
  simp
@[simp] theorem failTest_kept (s : State) (p : PWing) (b : Bist) (result : Nat) (cause : Nat) :
    (failTest s p b result cause).kept = s.kept := by
  unfold failTest
  simp
@[simp] theorem passTest_kept (s : State) (p : PWing) (b : Bist) : (passTest s p b).kept = s.kept := by
  unfold passTest
  simp
@[simp] theorem nextStep_kept (s : State) (p : PWing) (b : Bist) : (nextStep s p b).kept = s.kept := by
  unfold nextStep
  simp
@[simp] theorem requestTest_kept (s : State) (p : PWing) : (requestTest s p).kept = s.kept := by
  unfold requestTest
  simp
@[simp] theorem requestBurn_kept (s : State) (mvIo18 : Nat) (mvA : Nat) : (requestBurn s mvIo18 mvA).kept = s.kept := by
  unfold requestBurn
  simp
@[simp] theorem loadSlice_kept (s : State) (p : PWing) (dst : Nat) (src : Nat) (n : Nat) : (loadSlice s p dst src n).kept = s.kept := by
  unfold loadSlice
  simp
@[simp] theorem loadWeights_kept (s : State) (p : PWing) : (loadWeights s p).kept = s.kept := by
  unfold loadWeights
  (repeat' split) <;> simp [*]
@[simp] theorem loadBanks_kept (s : State) (p : PWing) (k : Nat) : (loadBanks s p k).kept = s.kept := by
  unfold loadBanks
  simp
@[simp] theorem loadCarried_kept (s : State) (p : PWing) (k : Nat) (w : Nat) : (loadCarried s p k w).kept = s.kept := by
  unfold loadCarried
  exact kept_foldl _ (fun s x => by (repeat' split) <;> simp) _ _
@[simp] theorem loadWing_kept (s : State) (p : PWing) (k : Nat) (w : Nat) : (loadWing s p k w).kept = s.kept := by
  unfold loadWing
  simp
@[simp] theorem drainWing_kept (s : State) (p : PWing) : (drainWing s p).kept = s.kept := by
  unfold drainWing
  (repeat' split) <;> simp [*]
@[simp] theorem commitAbandoned_kept (s : State) : (commitAbandoned s).kept = s.kept := by
  unfold commitAbandoned
  refine kept_foldl _ (fun s x => ?_) _ _
  split
  · exact kept_foldl _ (fun s r => by simp) _ _
  · rfl
@[simp] theorem kvRegisters_kept (n : Nat) (s : State) (k : LWing) : (kvRegisters n s k).kept = s.kept := by
  unfold kvRegisters
  simp
@[simp] theorem endShadow_kept (s : State) (q : PWing) (role : Nat) (k : LWing) : (endShadow s q role k).kept = s.kept := by
  unfold endShadow
  simp
@[simp] theorem startTest_kept (s : State) (p : PWing) : (startTest s p).kept = s.kept := by
  unfold startTest
  simp
@[simp] theorem startAsked_kept (s : State) (p : PWing) : (startAsked s p).kept = s.kept := by
  unfold startAsked
  simp
@[simp] theorem settleHandover_kept (s : State) (n : Nat) (equal : Bool) : (settleHandover s n equal).kept = s.kept := by
  unfold settleHandover
  (repeat' split) <;> simp [*]
@[simp] theorem updateRole_kept (s : State) (p : PWing) : (updateRole s p).kept = s.kept := by
  unfold updateRole
  (repeat' split) <;> simp [*]
@[simp] theorem skipBeat_kept (s : State) (k : LWing) (p : PWing) (b : Nat) : (skipBeat s k p b).kept = s.kept := by
  unfold skipBeat
  simp
@[simp] theorem substitute_kept (s : State) (n : Nat) (k : LWing) (q : PWing) (pd : Pending) : (substitute s n k q pd).kept = s.kept := by
  unfold substitute
  simp
@[simp] theorem settlePending_kept (n : Nat) (acc : State × List PWing) (x : LWing × Pending) : (settlePending n acc x).1.kept = acc.1.kept := by
  unfold settlePending
  (repeat' split) <;> simp [*]
@[simp] theorem updateLate_kept (n : Nat) (s : State) (k : LWing) : (updateLate n s k).kept = s.kept := by
  unfold updateLate
  dsimp only
  (repeat' split) <;> simp [*]
@[simp] theorem restartRegion_kept (s : State) (p : PWing) (b : Int) (r : Region) : (restartRegion s p b r).kept = s.kept := by
  unfold restartRegion
  (repeat' split) <;> simp [*]
@[simp] theorem carriedReset_kept (s : State) (k : LWing) : (carriedReset s k).kept = s.kept := by
  unfold carriedReset
  (repeat' split) <;> simp [*]
@[simp] theorem mismatch_kept (s : State) (n : Nat) (p : PWing) (j : Nat) (g : Segment) : (mismatch s n p j g).kept = s.kept := by
  unfold mismatch
  simp
@[simp] theorem judgeSegment_kept (n : Nat) (start : Nat) (unread : List (PWing × Nat)) (s : State) (x : PWing × Nat × Segment) :
    (judgeSegment n start unread s x).kept = s.kept := by
  unfold judgeSegment
  simp
@[simp] theorem compareRound_kept (s : State) (n : Nat) (unread : List (PWing × Nat)) : (compareRound s n unread).kept = s.kept := by
  unfold compareRound
  (repeat' split) <;> simp [*]
@[simp] theorem reloadSegments_kept (s : State) (p : PWing) : (reloadSegments s p).kept = s.kept := by
  unfold reloadSegments
  simp only [kept_mk, kept_eta]
  exact kept_foldl _ (fun s x => by split <;> simp) _ _
@[simp] theorem pushDigests_kept (s : State) (b : Nat) (prog : Digest) (wgt : Digest) : (pushDigests s b prog wgt).kept = s.kept := by
  unfold pushDigests
  simp
@[simp] theorem releaseFormer_kept (s : State) (n : Nat) : (releaseFormer s n).kept = s.kept := by
  unfold releaseFormer
  (repeat' split) <;> simp [*]
@[simp] theorem takeChangeover_kept (s : State) (n : Nat) (i : Image) : (takeChangeover s n i).kept = s.kept := by
  unfold takeChangeover
  simp only [pushDigests_kept]
  rw [kept_foldl _ (fun s x => by split <;> simp) _ _, kept_foldl _ (fun s x => by simp) _ _]
  rfl
@[simp] theorem refuseChangeover_kept (s : State) (r : Nat) : (refuseChangeover s r).kept = s.kept := by
  unfold refuseChangeover
  simp
@[simp] theorem changeoverLanding_kept (s : State) (n : Nat) : (changeoverLanding s n).kept = s.kept := by
  unfold changeoverLanding
  dsimp only
  rw [kept_ite]
  split
  · split
    · simp
    · (repeat' split) <;> simp
  · simp
@[simp] theorem adapterLanding_kept (s : State) (n : Nat) : (adapterLanding s n).kept = s.kept := by
  unfold adapterLanding
  simp
@[simp] theorem startRotation_kept (s : State) (n : Nat) : (startRotation s n).kept = s.kept := by
  unfold startRotation
  dsimp only
  (repeat' split) <;> simp [*]
@[simp] theorem setPower_kept (s : State) (new : Nat) (reason : Nat) : (setPower s new reason).kept = s.kept := by
  unfold setPower
  simp
@[simp] theorem idleLanding_kept (s : State) (n : Nat) : (idleLanding s n).kept = s.kept := by
  unfold idleLanding
  (repeat' split) <;> simp [*]
@[simp] theorem trackCounts_kept (s : State) (k : LWing) : (trackCounts s k).kept = s.kept := by
  unfold trackCounts
  simp
@[simp] theorem landingSteps_kept (s : State) (n : Nat) (equal : Bool) (unread : List (PWing × Nat)) :
    (landingSteps s n equal unread).kept = s.kept := by
  unfold landingSteps
  simp [kept_foldl_fst _ (settlePending_kept n)]
@[simp] theorem actionWrite_kept (s : State) (a : Acc) (die : Bool) (f : State → State) (h3 : ∀ s, (f s).kept = s.kept) :
    (actionWrite s a die f).kept = s.kept := by
  unfold actionWrite
  (repeat' split) <;> simp [*]
@[simp] theorem updAdpt_kept (s : State) (f : Adapter → Adapter) : (updAdpt s f).kept = s.kept := by
  unfold updAdpt
  simp
@[simp] theorem submitCore_kept (s : State) : (submitCore s).kept = s.kept := by
  unfold submitCore
  (repeat' split) <;> simp [*]
@[simp] theorem cancelCore_kept (s : State) : (cancelCore s).kept = s.kept := by
  unfold cancelCore
  simp
@[simp] theorem stageBank_kept (s : State) (k : LWing) : (stageBank s k).kept = s.kept := by
  unfold stageBank
  dsimp only
  (repeat' split) <;> simp [*]
@[simp] theorem markDefective_kept (s : State) (p : PWing) : (markDefective s p).kept = s.kept := by
  unfold markDefective
  simp
@[simp] theorem loadDieRegs_kept (i : Image) (s : State) : (loadDieRegs i s).kept = s.kept := by
  unfold loadDieRegs
  simp
@[simp] theorem loadAnnexRegs_kept (i : Image) (ab : Byte) (inputs : Dword) (s : State) : (loadAnnexRegs i ab inputs s).kept = s.kept := by
  unfold loadAnnexRegs
  simp
@[simp] theorem initValue_kept (s : State) (w : InitWrite) : (initValue s w).kept = s.kept := by
  simp only [initValue, kept_ite, kept_mk, kept_eta, ite_self]
@[simp] theorem initLock_kept (s : State) (w : InitWrite) : (initLock s w).kept = s.kept := by
  unfold initLock
  (repeat' split) <;> simp [*]
@[simp] theorem initWrite_kept (s : State) (w : InitWrite) : (initWrite s w).kept = s.kept := by
  unfold initWrite
  simp
@[simp] theorem initialRegion_kept (p : PWing) (s : State) (r : Region) : (initialRegion p s r).kept = s.kept := by
  unfold initialRegion
  simp
@[simp] theorem placeWing_kept (s : State) (x : Nat × PWing) : (placeWing s x).kept = s.kept := by
  unfold placeWing
  (repeat' split) <;> simp [*]
@[simp] theorem placeWings_kept (s : State) : (placeWings s).kept = s.kept := by
  unfold placeWings
  simp
@[simp] theorem acceptLines_kept (s : State) : (acceptLines s).kept = s.kept := by
  unfold acceptLines
  simp
@[simp] theorem reviveCameras_kept (s : State) : (reviveCameras s).kept = s.kept := by
  unfold reviveCameras
  simp
@[simp] theorem becomeReady_kept (s : State) : (becomeReady s).kept = s.kept := by
  unfold becomeReady
  simp
@[simp] theorem resumeDie_kept (s : State) : (resumeDie s).kept = s.kept := by
  unfold resumeDie
  simp
@[simp] theorem powerRefuse_kept (s : State) (r : Nat) : (powerRefuse s r).kept = s.kept := by
  unfold powerRefuse
  simp
@[simp] theorem requestIdle_kept (s : State) : (requestIdle s).kept = s.kept := by
  unfold requestIdle
  simp
@[simp] theorem requestRun_kept (s : State) : (requestRun s).kept = s.kept := by
  unfold requestRun
  simp
@[simp] theorem standbyPort_kept (s : State) (p : Port) : (standbyPort s p).kept = s.kept := by
  unfold standbyPort
  simp
@[simp] theorem standbyLoss_kept (s : State) : (standbyLoss s).kept = s.kept := by
  unfold standbyLoss
  simp
@[simp] theorem requestStandby_kept (s : State) : (requestStandby s).kept = s.kept := by
  unfold requestStandby
  simp
@[simp] theorem updSec_kept (s : State) (f : Security → Security) : (updSec s f).kept = s.kept := by
  unfold updSec
  simp
@[simp] theorem setSlot_kept (s : State) (j : Fin 2) (x : Slot) : (setSlot s j x).kept = s.kept := by
  unfold setSlot
  simp
@[simp] theorem armCore_kept (xfer : Half) (s : State) : (armCore xfer s).kept = s.kept := by
  unfold armCore
  simp
@[simp] theorem abortCore_kept (s : State) : (abortCore s).kept = s.kept := by
  unfold abortCore
  simp
@[simp] theorem refuseStaging_kept (s : State) (r : Nat) : (refuseStaging s r).kept = s.kept := by
  unfold refuseStaging
  simp
@[simp] theorem offerCore_kept (xfer : Half) (nChunk : Word) (len : Dword) (digest : Digest) (s : State) :
    (offerCore xfer nChunk len digest s).kept = s.kept := by
  unfold offerCore
  simp
@[simp] theorem dataCore_kept (xfer : Half) (chunk : Nat) (data : List Byte) (s : State) : (dataCore xfer chunk data s).kept = s.kept := by
  unfold dataCore
  (repeat' split) <;> simp [*]
@[simp] theorem passEndCore_kept (xfer : Half) (s : State) : (passEndCore xfer s).kept = s.kept := by
  unfold passEndCore
  simp
@[simp] theorem switchSlot_kept (s : State) : (switchSlot s).kept = s.kept := by
  unfold switchSlot
  simp
@[simp] theorem changeoverCore_kept (s : State) : (changeoverCore s).kept = s.kept := by
  unfold changeoverCore
  simp
@[simp] theorem actCancelCore_kept (s : State) : (actCancelCore s).kept = s.kept := by
  unfold actCancelCore
  simp
@[simp] theorem mboxDone_kept (s : State) (op : Nat) (status : Nat) (out : List Byte) : (mboxDone s op status out).kept = s.kept := by
  unfold mboxDone
  simp
@[simp] theorem opGetCert_kept (s : State) : (opGetCert s).kept = s.kept := by
  unfold opGetCert
  simp
@[simp] theorem opAttest_kept (s : State) : (opAttest s).kept = s.kept := by
  unfold opAttest
  simp
@[simp] theorem opOpen_kept (s : State) : (opOpen s).kept = s.kept := by
  unfold opOpen
  simp
@[simp] theorem opFinish_kept (s : State) : (opFinish s).kept = s.kept := by
  unfold opFinish
  dsimp only
  (repeat' split) <;> simp [*]
@[simp] theorem opClose_kept (s : State) (secure : Bool) : (opClose s secure).kept = s.kept := by
  unfold opClose
  simp
@[simp] theorem mboxData_kept (s : State) (w : Option Word) : (mboxData s w).kept = s.kept := by
  unfold mboxData
  simp
@[simp] theorem emptyLive_kept (s : State) : (emptyLive s).kept = s.kept := by
  unfold emptyLive
  simp
@[simp] theorem emptyNvm_kept (s : State) : (emptyNvm s).kept = s.kept := by
  unfold emptyNvm
  simp
@[simp] theorem recClear_kept (s : State) (mask : Nat) : (recClear s mask).kept = s.kept := by
  unfold recClear
  simp
@[simp] theorem intLogClear_kept (s : State) : (intLogClear s).kept = s.kept := by
  unfold intLogClear
  simp
@[simp] theorem recordEdge_kept (s : State) (n : Chan) (level : Bool) : (recordEdge s n level).kept = s.kept := by
  unfold recordEdge
  simp
@[simp] theorem ejPut_kept (s : State) (valve : Bool) (n : Fin 1024) (x : EjChan) : (ejPut s valve n x).kept = s.kept := by
  unfold ejPut
  simp
@[simp] theorem markOn_kept (s : State) (valve : Bool) (n : Fin 1024) : (markOn s valve n).kept = s.kept := by
  unfold markOn
  simp
@[simp] theorem evalChan_kept (s : State) (valve : Bool) (n : Fin 1024) : (evalChan s valve n).kept = s.kept := by
  unfold evalChan
  simp
@[simp] theorem pulseFor_kept (s : State) (e : EjEntry) : (pulseFor s e).kept = s.kept := by
  unfold pulseFor
  simp
@[simp] theorem stepEntry_kept (acc : State × List EjEntry) (e : EjEntry) : (stepEntry acc e).1.kept = acc.1.kept := by
  unfold stepEntry
  (repeat' split) <;> simp [*]
@[simp] theorem setRequests_kept (s : State) : (setRequests s).kept = s.kept := by
  unfold setRequests
  simp
@[simp] theorem evalCalendar_kept (s : State) : (evalCalendar s).kept = s.kept := by
  unfold evalCalendar
  split
  · rfl
  · simp [kept_foldl_fst]
@[simp] theorem sendFrame_kept (k : Nat) (s : State) (l : Fin 4) : (sendFrame k s l).kept = s.kept := by
  unfold sendFrame
  simp
@[simp] theorem clearVt_kept (s : State) (a : Nat) (v : Word) : (clearVt s a v).kept = s.kept := by
  unfold clearVt
  (repeat' split) <;> simp [*]
@[simp] theorem clearFlags_kept (s : State) (a : Nat) (v : Word) : (clearFlags s a v).kept = s.kept := by
  simp only [clearFlags, kept_ite, kept_mk, kept_eta, updSec_kept, clearVt_kept, ite_self]
@[simp] theorem writePwr_kept (s : State) (v : Nat) : (writePwr s v).kept = s.kept := by
  unfold writePwr
  (repeat' split) <;> simp [*]
@[simp] theorem writeBist_kept (s : State) (v : Nat) : (writeBist s v).kept = s.kept := by
  unfold writeBist
  simp
@[simp] theorem writeAdpt_kept (s : State) (a : Nat) (w : Word) : (writeAdpt s a w).kept = s.kept := by
  unfold writeAdpt
  (repeat' split) <;> simp [*]
@[simp] theorem writePortCtrl_kept (s : State) (a : Nat) (v : Nat) : (writePortCtrl s a v).kept = s.kept := by
  unfold writePortCtrl
  (repeat' split) <;> simp [*]
@[simp] theorem writeTblCtrl_kept (s : State) (a : Nat) (v : Nat) : (writeTblCtrl s a v).kept = s.kept := by
  unfold writeTblCtrl
  simp
@[simp] theorem writeRec_kept (s : State) (a : Nat) (w : Word) : (writeRec s a w).kept = s.kept := by
  unfold writeRec
  simp
@[simp] theorem writeXfer_kept (s : State) (v : Nat) : (writeXfer s v).kept = s.kept := by
  unfold writeXfer
  simp
@[simp] theorem writeTst_kept (s : State) (a : Nat) (v : Nat) : (writeTst s a v).kept = s.kept := by
  unfold writeTst
  simp
@[simp] theorem dropCapture_kept (s : State) (w : Who) : (dropCapture s w).kept = s.kept := by
  unfold dropCapture
  simp
@[simp] theorem readWord_kept (s : State) (w : Who) (a : Nat) : (readWord s w a).2.kept = s.kept := by
  unfold readWord
  simp
@[simp] theorem railEvent_kept (s : State) (r : Rail) (mv : Nat) : (railEvent s r mv).kept = s.kept := by
  unfold railEvent
  simp
@[simp] theorem clearRail_kept (s : State) (r : Rail) : (clearRail s r).kept = s.kept := by
  unfold clearRail
  simp
@[simp] theorem dipReport_kept (s : State) (r : Rail) (leastMv : Nat) (usecs : Nat) (cycles : Nat) :
    (dipReport s r leastMv usecs cycles).kept = s.kept := by
  unfold dipReport
  simp
@[simp] theorem tjEvent_kept (s : State) : (tjEvent s).kept = s.kept := by
  unfold tjEvent
  simp
@[simp] theorem updEth_kept (s : State) (e : EthPort) (f : EthSt → EthSt) : (updEth s e f).kept = s.kept := by
  unfold updEth
  simp
@[simp] theorem rxBad_kept (s : State) (e : EthPort) : (rxBad s e).kept = s.kept := by
  unfold rxBad
  simp
@[simp] theorem sendEth_kept (s : State) (e : EthPort) (kind : Nat) (seqId : Nat) : (sendEth s e kind seqId).kept = s.kept := by
  unfold sendEth
  simp
@[simp] theorem addStamp_kept (s : State) (e : EthPort) (x : TxStamp) : (addStamp s e x).kept = s.kept := by
  unfold addStamp
  simp
@[simp] theorem drainGptp_kept (s : State) (e : EthPort) : (drainGptp s e).kept = s.kept := by
  unfold drainGptp
  simp
@[simp] theorem rebase_kept (s : State) : (rebase s).kept = s.kept := by
  unfold rebase
  simp
@[simp] theorem applyBmca_kept (s : State) (e : EthPort) (st : Fin 4) : (applyBmca s e st).kept = s.kept := by
  unfold applyBmca
  simp
@[simp] theorem sendAlarms_kept (s : State) : (sendAlarms s).kept = s.kept := by
  unfold sendAlarms
  simp
@[simp] theorem noteSession_kept (s : State) (id : Nat) (reqId : Nat) : (noteSession s id reqId).kept = s.kept := by
  unfold noteSession
  simp
@[simp] theorem noteSecure_kept (s : State) (r : Req) (body : List Byte) : (noteSecure s r body).kept = s.kept := by
  unfold noteSecure
  (repeat' split) <;> simp [*]
@[simp] theorem sendRsp_kept (s : State) (r : Req) (x : Response) : (sendRsp s r x).kept = s.kept := by
  unfold sendRsp
  simp
@[simp] theorem respond_kept (s : State) (r : Req) (x : Response) : (respond s r x).kept = s.kept := by
  unfold respond
  simp
@[simp] theorem readBlock_kept (s : State) (w : Who) (a : Nat) (v3 : Nat) : (readBlock s w a v3).1.kept = s.kept := by
  induction v3 generalizing s a with
  | zero => rfl
  | succ n ih => simp [readBlock, ih]
@[simp] theorem crownSay_kept (s : State) (line : List Byte) : (crownSay s line).kept = s.kept := by
  unfold crownSay
  simp
@[simp] theorem crownOk_kept (s : State) (words : List (List Byte)) : (crownOk s words).kept = s.kept := by
  unfold crownOk
  simp
@[simp] theorem crownErr_kept (s : State) (c : Nat) : (crownErr s c).kept = s.kept := by
  unfold crownErr
  simp
@[simp] theorem crownEvent_kept (s : State) (addr : Nat) (value : Nat) (answer : Nat) : (crownEvent s addr value answer).kept = s.kept := by
  unfold crownEvent
  simp
@[simp] theorem updEnc_kept (s : State) (ch : EncCh) (f : Enc → Enc) : (updEnc s ch f).kept = s.kept := by
  unfold updEnc
  simp
@[simp] theorem latchTriggers_kept (s : State) (ch : EncCh) : (latchTriggers s ch).kept = s.kept := by
  unfold latchTriggers
  simp
@[simp] theorem countEnc_kept (s : State) (ch : EncCh) (f : Enc → Enc) : (countEnc s ch f).kept = s.kept := by
  unfold countEnc
  simp
@[simp] theorem enterFault_kept (s : State) (ch : EncCh) (cause : Nat) : (enterFault s ch cause).kept = s.kept := by
  unfold enterFault
  simp
@[simp] theorem rejectWord_kept (s : State) (ch : EncCh) (cause : Nat) (limit : Nat) : (rejectWord s ch cause limit).kept = s.kept := by
  unfold rejectWord
  simp
@[simp] theorem illegalStep_kept (s : State) (ch : EncCh) : (illegalStep s ch).kept = s.kept := by
  unfold illegalStep
  simp
@[simp] theorem chainMsg_kept (s : State) (bytes : List Byte) : (chainMsg s bytes).kept = s.kept := by
  unfold chainMsg
  simp
@[simp] theorem takeLine_kept (s : State) (channel : Nat) (bytes : List Byte) : (takeLine s channel bytes).kept = s.kept := by
  unfold takeLine
  simp
@[simp] theorem dropLd_kept (s : State) (h : Nat) (msgId : Nat) : (dropLd s h msgId).kept = s.kept := by
  unfold dropLd
  (repeat' split) <;> simp [*]
@[simp] theorem joinFragment_kept (s : State) (h : Nat) (e : EthPort) (f : Fragment) : (joinFragment s h e f).kept = s.kept := by
  unfold joinFragment
  simp
@[simp] theorem lineCore_kept (s : State) (h : Fin 8) (e : EthPort) (payload : List Byte) : (lineCore s h e payload).kept = s.kept := by
  unfold lineCore
  simp
@[simp] theorem tlmMiss_kept (s : State) : (tlmMiss s).kept = s.kept := by
  unfold tlmMiss
  simp
@[simp] theorem peerDrops_kept (s : State) (n : Nat) : (peerDrops s n).kept = s.kept := by
  unfold peerDrops
  simp
@[simp] theorem toPeers_kept (s : State) (typ : Nat) (payload : List Byte) : (toPeers s typ payload).kept = s.kept := by
  unfold toPeers
  simp
@[simp] theorem updPeer_kept (s : State) (p : Fin 16) (f : Peer → Peer) : (updPeer s p f).kept = s.kept := by
  unfold updPeer
  simp
@[simp] theorem placeImport_kept (bytes : List Byte) (s : State) (ch : Nat) : (placeImport bytes s ch).kept = s.kept := by
  unfold placeImport
  simp
@[simp] theorem deliverPeer_kept (s : State) (p : Fin 16) (typ : Nat) (stream : Option Nat) (payload : List Byte) :
    (deliverPeer s p typ stream payload).kept = s.kept := by
  unfold deliverPeer
  simp
@[simp] theorem retractPeer_kept (s : State) (p : Fin 16) : (retractPeer s p).kept = s.kept := by
  unfold retractPeer
  dsimp only
  (repeat' split) <;> simp [*]
@[simp] theorem checkGen_kept (s : State) (p : Fin 16) (gen : Nat) (isMark : Bool) : (checkGen s p gen isMark).1.kept = s.kept := by
  unfold checkGen
  dsimp only
  (repeat' split) <;> simp [*]
@[simp] theorem markCore_kept (s : State) (p : Fin 16) (beat : Nat) (sealed : Nat) (r : Nat) (pMax : Nat) :
    (markCore s p beat sealed r pMax).kept = s.kept := by
  unfold markCore
  simp
@[simp] theorem provisionalCore_kept (s : State) (p : Fin 16) (payload : List Byte) : (provisionalCore s p payload).kept = s.kept := by
  unfold provisionalCore
  simp
@[simp] theorem retractCore_kept (s : State) (p : Fin 16) (payload : List Byte) : (retractCore s p payload).kept = s.kept := by
  unfold retractCore
  simp
@[simp] theorem peerIn_kept (s : State) (p : Fin 16) (gen : Nat) (isMark : Bool) (f : State → State) (h4 : ∀ s, (f s).kept = s.kept) :
    (peerIn s p gen isMark f).kept = s.kept := by
  unfold peerIn
  (repeat' split) <;> simp [*]
@[simp] theorem markSeen_kept (s : State) (h : OlpHeader) : (markSeen s h).kept = s.kept := by
  unfold markSeen
  simp
@[simp] theorem peerFrame_kept (s : State) (j : Fin 16) (x : OlpHeader) (p : List Byte) : (peerFrame s j x p).kept = s.kept := by
  unfold peerFrame
  (repeat' split) <;> simp [*]
@[simp] theorem answerPdelay_kept (s : State) (e : EthPort) (seqId : Nat) : (answerPdelay s e seqId).kept = s.kept := by
  unfold answerPdelay
  simp

end Sys2Proof.Machine
end

