-- ==== Sys2Proof/Laws/Mem.lean ====
section
/-! SUPPORT. Memory: what one stored byte does to reads and to the canonical form, that every operation that stores bytes keeps the form,
and that the memories of the reset state have it. -/

namespace Sys2Proof.Machine

open Sys2Proof

@[simp] theorem memRead_nil (a : Nat) : memRead [] a = memDefault := rfl

@[simp] theorem memWrites_nil (m : Memory) (a : Nat) : memWrites m a [] = m := rfl

theorem memWrites_cons (m : Memory) (a : Nat) (b : Byte) (bs : List Byte) :
    memWrites m a (b :: bs) = memWrites (memWrite m a b) (a + 1) bs := rfl

@[simp] theorem memReads_length (m : Memory) (a n : Nat) : (memReads m a n).length = n := by simp [memReads]

/-- Nothing is listed below every address of a memory. -/
theorem memRead_below (m : Memory) (a : Nat) (h : ∀ c ∈ m, a < c.1) : memRead m a = memDefault := by
  induction m with
  | nil => rfl
  | cons c m ih =>
    have hc : c.1 ≠ a := by have := h c (by simp); omega
    simp only [memRead, if_neg hc]
    exact ih fun d hd => h d (by simp [hd])

/-- Every cell after a stored byte is a cell from before or the byte's own, which is not the default. -/
theorem mem_memWrite (m : Memory) (a : Nat) (b : Byte) (c : Host.Cell) (h : c ∈ memWrite m a b) :
    c ∈ m ∨ (c = (a, b) ∧ b ≠ memDefault) := by
  induction m with
  | nil =>
    simp only [memWrite] at h
    split at h
    · simp at h
    · exact .inr ⟨by simpa using h, ‹_›⟩
  | cons d m ih =>
    simp only [memWrite] at h
    split at h
    · split at h
      · exact .inl h
      · rcases List.mem_cons.1 h with h | h
        · exact .inr ⟨h, ‹_›⟩
        · exact .inl h
    · split at h
      · split at h
        · exact .inl (by simp [h])
        · rcases List.mem_cons.1 h with h | h
          · exact .inr ⟨h, ‹_›⟩
          · exact .inl (by simp [h])
      · rcases List.mem_cons.1 h with h | h
        · exact .inl (by simp [h])
        · rcases ih h with h | h
          · exact .inl (by simp [h])
          · exact .inr h

/-- A stored byte keeps the canonical form. -/
theorem memWrite_wf (m : Memory) (a : Nat) (b : Byte) (h : Memory.wf m) : Memory.wf (memWrite m a b) := by
  refine ⟨?_, fun c hc => ?_⟩
  · obtain ⟨hp, -⟩ := h
    induction m with
    | nil => simp only [memWrite]; split <;> simp
    | cons d m ih =>
      have hd := List.pairwise_cons.1 hp
      simp only [memWrite]
      split
      · split
        · exact hp
        · refine List.pairwise_cons.2 ⟨fun x hx => ?_, hp⟩
          rcases List.mem_cons.1 hx with rfl | hx
          · assumption
          · exact Nat.lt_trans ‹a < d.1› (hd.1 x hx)
      · split
        · split
          · exact hd.2
          · exact List.pairwise_cons.2 ⟨fun x hx => ‹a = d.1› ▸ hd.1 x hx, hd.2⟩
        · refine List.pairwise_cons.2 ⟨fun x hx => ?_, ih hd.2⟩
          rcases mem_memWrite m a b x hx with hx | ⟨rfl, -⟩
          · exact hd.1 x hx
          · show d.1 < a
            omega
  · rcases mem_memWrite m a b c hc with hc | ⟨rfl, hb⟩
    · exact h.2 c hc
    · exact hb

/-- A run of stored bytes keeps the canonical form. -/
theorem memWrites_keeps_wf (bs : List Byte) (m : Memory) (a : Nat) (h : Memory.wf m) : Memory.wf (memWrites m a bs) := by
  induction bs generalizing m a with
  | nil => exact h
  | cons b bs ih => exact ih _ _ (memWrite_wf m a b h)

/-- A fold whose steps keep the form keeps it. -/
theorem foldl_keeps_wf {α : Type} (l : List α) (f : Memory → α → Memory) (hf : ∀ m x, Memory.wf m → Memory.wf (f m x)) (m : Memory)
    (h : Memory.wf m) : Memory.wf (l.foldl f m) := by
  induction l generalizing m with
  | nil => exact h
  | cons x l ih => exact ih _ (hf m x h)

/-- Storing an element's code keeps the form (R99, R100). -/
theorem elemPut_wf (m : Memory) (base : Nat) (f : Fmt) (i code : Nat) (h : Memory.wf m) : Memory.wf (elemPut m base f i code) := by
  unfold elemPut
  split
  · exact memWrites_keeps_wf _ _ _ (memWrites_keeps_wf _ _ _ h)
  · exact memWrites_keeps_wf _ _ _ h

/-- Loading the DRAM contents of an image keeps the form (R510). -/
theorem loadedDram_wf (m : Memory) (i : Image) (h : Memory.wf m) : Memory.wf (loadedDram m i) :=
  foldl_keeps_wf _ _ (fun _ _ hm => memWrites_keeps_wf _ _ _ hm) m h

/-- Copying bytes within DRAM keeps the form (R35). -/
theorem memCopy_wf (m : Memory) (a b n : Nat) (h : Memory.wf m) : Memory.wf (memCopy m a b n) := memWrites_keeps_wf _ _ _ h

/-- Laying cells over a memory keeps the form. -/
theorem overlay_wf (m : Memory) (cs : List Host.Cell) (h : Memory.wf m) : Memory.wf (overlay m cs) := by
  induction cs with
  | nil => exact h
  | cons c cs ih => exact memWrite_wf _ _ _ ih

/-- Putting back the bytes of secure granules keeps the form (R518). -/
theorem keepSecure_wf (m : SecMap) (k sp : Nat) (old new : Memory) (h : Memory.wf new) : Memory.wf (keepSecure m k sp old new) :=
  foldl_keeps_wf _ _ (fun x c hx => by
    split
    · exact memWrite_wf _ _ _ hx
    · exact hx) new h

/-- Storing bytes in DRAM keeps the form. -/
theorem dramWrite_wf (s : State) (a : Nat) (bs : List Byte) (h : Memory.wf s.mem.dram) : Memory.wf (dramWrite s a bs).mem.dram :=
  memWrites_keeps_wf _ _ _ h

/-- The empty memory, which every memory of the reset state is, has the form. -/
@[simp] theorem wf_nil : Memory.wf [] := by simp [Memory.wf]

/-- The memories of the reset state: DRAM, the Gallery slices and tiles of every Wing, and the mailbox buffer (R208, R214, R532). -/
theorem reset_memories_wf : Memory.wf State.reset.mem.dram ∧ Memory.wf State.reset.sec.mboxBuf ∧
    ∀ p : Fin 8, Memory.wf (State.reset.phys[p]).gallery ∧ ∀ j : Fin 6, Memory.wf (State.reset.phys[p]).tiles[j] :=
  ⟨wf_nil, wf_nil, by decide⟩

end Sys2Proof.Machine
end

