-- ==== Sys2Proof/Laws/Moves.lean ====
section
/-! SUPPORT. What the functions do that move time, burn a fuse, write a key or reset the device: the queue stays, fuses move one way, and C
stays below 2^64. The others leave all three alone (Laws/Frame.lean). -/

namespace Sys2Proof.Machine

open Sys2Proof

/-- The queue is as it was, the fuses moved one way, and C stays a 64-bit counter (R463, R513). -/
def Moves (s t : State) : Prop := t.pending = s.pending ∧ FuseLe s.fuse t.fuse ∧ (s.c < 2 ^ 64 → t.c < 2 ^ 64)

theorem KeyLe.refl (a : KeySlot) : KeyLe a a := ⟨fun h => ⟨h, rfl, rfl, rfl⟩, id⟩

theorem KeyLe.trans {a b c : KeySlot} (h : KeyLe a b) (k : KeyLe b c) : KeyLe a c := by
  refine ⟨fun ha => ?_, fun ha => k.2 (h.2 ha)⟩
  obtain ⟨h0, h1, h2, h3⟩ := h.1 ha
  obtain ⟨k0, k1, k2, k3⟩ := k.1 h0
  exact ⟨k0, k1.trans h1, k2.trans h2, k3.trans h3⟩

theorem FuseLe.refl (a : Fuses) : FuseLe a a :=
  ⟨rfl, rfl, rfl, rfl, le_refl _, fun _ => le_refl _, fun _ h => h, fun _ => KeyLe.refl _⟩

theorem FuseLe.trans {a b c : Fuses} (h : FuseLe a b) (k : FuseLe b c) : FuseLe a c := by
  obtain ⟨h1, h2, h3, h4, h5, h6, h7, h8⟩ := h
  obtain ⟨k1, k2, k3, k4, k5, k6, k7, k8⟩ := k
  exact ⟨k1.trans h1, k2.trans h2, k3.trans h3, k4.trans h4, h5.trans k5, fun p => (h6 p).trans (k6 p), fun x hx => k7 x (h7 x hx),
    fun j => (h8 j).trans (k8 j)⟩

theorem Moves.refl (s : State) : Moves s s := ⟨rfl, FuseLe.refl _, id⟩

theorem Moves.trans {s t u : State} (h : Moves s t) (k : Moves t u) : Moves s u :=
  ⟨k.1.trans h.1, h.2.1.trans k.2.1, fun hs => k.2.2 (h.2.2 hs)⟩

/-- What keeps the queue, the fuses and C moves nothing. -/
theorem Moves.of_kept {s t : State} (h : t.kept = s.kept) : Moves s t := by
  have hp : t.pending = s.pending := congrArg (·.1) h
  have hf : t.fuse = s.fuse := congrArg (·.2.1) h
  have hc : t.c = s.c := congrArg (·.2.2) h
  exact ⟨hp, hf ▸ FuseLe.refl _, fun hs => hc ▸ hs⟩

/-- A function that keeps the three, after one that moves. -/
theorem Moves.then_kept {s t u : State} (h : Moves s t) (k : u.kept = t.kept) : Moves s u := h.trans (.of_kept k)

theorem Moves.ite {p : Prop} [Decidable p] {s t u : State} (h : Moves s t) (k : Moves s u) : Moves s (if p then t else u) := by
  split <;> assumption

theorem Moves.foldl {α : Type} (f : State → α → State) (hf : ∀ s x, Moves s (f s x)) (l : List α) (s : State) : Moves s (l.foldl f s) := by
  induction l generalizing s with
  | nil => exact .refl s
  | cons x l ih => exact (hf s x).trans (ih _)

/-! ### Time (R463) -/

theorem advance_moves (s : State) (dt : Nat) : Moves s (advance s dt) := ⟨rfl, FuseLe.refl _, fun _ => Nat.mod_lt _ (by decide)⟩

theorem reach_moves (s : State) (t : Nat) : Moves s (reach s t) := ⟨rfl, FuseLe.refl _, fun _ => Nat.mod_lt _ (by decide)⟩

/-! ### Fuses (R442, R506, R513, R514) -/

/-- More repair entries of one Wing (R442). -/
theorem moves_repair (s : State) (p : PWing) (n : Nat) :
    Moves s { s with fuse := { s.fuse with repairUsed := s.fuse.repairUsed.set p (s.fuse.repairUsed[p] + n) } } := by
  refine ⟨rfl, ⟨rfl, rfl, rfl, rfl, le_refl _, fun q => ?_, fun _ h => h, fun _ => KeyLe.refl _⟩, id⟩
  by_cases h : p = q
  · subst h; simp
  · have : (p : Nat) ≠ q := fun e => h (Fin.ext e)
    simp [Vector.getElem_set_ne, this]

/-- A key slot that takes a key or is revoked moves one way (R513). -/
theorem moves_key (s : State) (j : Nat) (f : KeySlot → KeySlot) (h : ∀ k, vGet? s.fuse.keys j = some k → KeyLe k (f k)) :
    Moves s { s with fuse := { s.fuse with keys := vUpd s.fuse.keys j f } } := by
  refine ⟨rfl, ⟨rfl, rfl, rfl, rfl, le_refl _, fun _ => le_refl _, fun _ h => h, fun q => ?_⟩, id⟩
  by_cases hj : j < 8
  · by_cases e : j = q
    · subst e
      simpa [vUpd, hj] using h s.fuse.keys[q] (by simp [vGet?])
    · simp [vUpd, hj, Vector.getElem_set_ne, e, KeyLe.refl]
  · simp [vUpd, hj, KeyLe.refl]

theorem repairWing_moves (s : State) (p : PWing) (rows cols : Nat) (burn : Bool) : Moves s (repairWing s p rows cols burn) := by
  unfold repairWing
  dsimp only
  split
  · refine Moves.trans (.of_kept ?_) ((moves_repair _ p (rows + cols)).then_kept (updPhys_kept ..))
    simp
  · exact .of_kept (by simp)

theorem burnWing_moves (good : Bool) (s : State) (p : PWing) : Moves s (burnWing good s p) := by
  unfold burnWing
  cases good
  · exact (Moves.of_kept (fresh_kept s)).trans ((moves_repair _ p _).then_kept (updPhys_kept ..))
  · exact (moves_repair _ p _).then_kept (updPhys_kept ..)

theorem addDefect_moves (s : State) (p : PWing) : Moves s (addDefect s p) := by
  unfold addDefect
  split
  · exact .refl s
  · exact ⟨rfl, ⟨rfl, rfl, rfl, rfl, le_refl _, fun _ => le_refl _, fun x h => List.mem_append_left _ h, fun _ => KeyLe.refl _⟩, id⟩

theorem testResult_moves (t : StartTest) (s : State) (p : PWing) : Moves s (testResult t s p) := by
  unfold testResult
  split
  · exact .of_kept (updPhys_kept ..)
  · exact repairWing_moves ..
  all_goals exact (addDefect_moves s p).then_kept (updPhys_kept ..)

theorem testWing_moves (t : StartTest) (s : State) (p : PWing) : Moves s (testWing t s p) := by
  unfold testWing
  split
  · exact .refl s
  · exact (testResult_moves t s p).then_kept (markDefective_kept ..)

theorem commitCore_moves (s : State) : Moves s (commitCore s) := by
  unfold commitCore
  split
  · rename_i h
    exact ⟨rfl, ⟨rfl, rfl, rfl, rfl, h.2.le, fun _ => le_refl _, fun _ h => h, fun _ => KeyLe.refl _⟩, id⟩
  · exact .refl s

theorem writeKey_moves (s : State) (slot : Nat) (alg : Bool) (usage : Nat) (hash : Digest) : Moves s (writeKey s slot alg usage hash).1 := by
  unfold writeKey
  split
  · rename_i k hk
    split
    · exact .refl s
    · rename_i hn
      refine moves_key s slot _ fun k' hk' => ⟨fun hw => ?_, id⟩
      rw [hk] at hk'
      cases hk'
      exact absurd (Or.inr (Or.inl hw)) hn
  · exact .refl s

theorem opKeyWrite_moves (s : State) (a : Acc) : Moves s (opKeyWrite s a) := by
  unfold opKeyWrite
  exact .ite (.of_kept (mboxDone_kept ..)) (.ite (.of_kept (mboxDone_kept ..)) ((writeKey_moves ..).then_kept (mboxDone_kept ..)))

theorem opKeyRevoke_moves (s : State) (secure : Bool) : Moves s (opKeyRevoke s secure) := by
  unfold opKeyRevoke
  refine .ite (.of_kept (mboxDone_kept ..)) (.ite (.of_kept (mboxDone_kept ..)) ?_)
  split
  · exact .ite (.of_kept (mboxDone_kept ..))
      ((moves_key s _ (fun k => { k with revoked := true }) fun k _ => ⟨fun h => ⟨h, rfl, rfl, rfl⟩, fun _ => rfl⟩).then_kept
        (mboxDone_kept ..))
  · exact .of_kept (mboxDone_kept ..)

theorem mboxGo_moves (s : State) (a : Acc) (op : Nat) : Moves s (mboxGo s a op) := by
  unfold mboxGo
  split
  all_goals first
    | exact opKeyWrite_moves ..
    | exact opKeyRevoke_moves ..
    | exact .of_kept (by simp)

/-! ### Resets (R534, R535) -/

theorem resetState_moves (s : State) (cause : Nat) : Moves s (resetState s cause) := ⟨rfl, FuseLe.refl _, fun _ => Nat.two_pow_pos 64⟩

theorem deviceReset_moves (s : State) (cause : Nat) (dumped : Bool) : Moves s (deviceReset s cause dumped) := by
  unfold deviceReset
  dsimp only
  split
  · exact (resetState_moves s cause).then_kept (by simp)
  · exact resetState_moves s cause

theorem dumpReset_moves (s : State) (cause : Nat) : Moves s (dumpReset s cause) :=
  (Moves.of_kept (by simp)).trans (deviceReset_moves ..)

/-! ### Register writes (R571) -/

theorem writeAct_moves (s : State) (v : Nat) : Moves s (writeAct s v) := by
  unfold writeAct
  dsimp only
  split
  · exact .of_kept (by simp)
  · split
    · exact (Moves.of_kept (by simp)).trans (deviceReset_moves ..)
    · exact (Moves.of_kept (by simp)).trans (deviceReset_moves ..)
    · exact .of_kept (by simp)
    · exact .of_kept (by simp)

theorem writeSec_moves (s : State) (a : Nat) (w : Word) : Moves s (writeSec s a w) := by
  unfold writeSec
  repeat' split
  all_goals first
    | exact commitCore_moves s
    | exact writeAct_moves ..
    | exact .of_kept (by simp)

theorem writeReset_moves (s : State) (v : Nat) : Moves s (writeReset s v) := by
  unfold writeReset
  repeat' split
  all_goals first
    | exact deviceReset_moves ..
    | exact .of_kept (by simp)

theorem writePwrReg_moves (s : State) (a : Nat) (w : Word) : Moves s (writePwrReg s a w) := by
  unfold writePwrReg
  repeat' split
  all_goals first
    | exact writeReset_moves ..
    | exact .of_kept (by simp)

theorem writeRws_moves (s : State) (a : Nat) (w : Word) : Moves s (writeRws s a w) := by
  unfold writeRws
  split
  all_goals first
    | exact writeSec_moves ..
    | exact writePwrReg_moves ..
    | exact .of_kept (by simp)

theorem writeRw_moves (s : State) (x : Acc) (a : Nat) (w : Word) : Moves s (writeRw s x a w) := by
  unfold writeRw
  dsimp only
  repeat' split
  all_goals first
    | exact mboxGo_moves ..
    | exact .of_kept (by simp)

theorem writeReg_moves (s : State) (x : Acc) (a : Nat) (v : Word) : Moves s (writeReg s x a v).1 := by
  unfold writeReg
  repeat' split
  all_goals first
    | exact writeRws_moves ..
    | exact writeRw_moves ..
    | exact .of_kept (by simp)

theorem writeBlock_moves (x : Acc) (vs : List Word) (s : State) (a : Nat) : Moves s (writeBlock x s a vs).1 := by
  induction vs generalizing s a with
  | nil => exact .refl s
  | cons v vs ih =>
    unfold writeBlock
    split
    · exact (Moves.of_kept (by simp)).trans (ih ..)
    · exact (Moves.of_kept (by simp)).trans ((writeReg_moves ..).trans (ih ..))

theorem mgmtCore_moves (s : State) (r : Req) (op n : Nat) (vs : List Word) (wf : Bool) (body : List Byte) :
    Moves s (mgmtCore s r op n vs wf body) := by
  unfold mgmtCore
  split
  · exact .refl s
  split
  · exact .of_kept (by simp)
  · dsimp only
    split
    · exact .of_kept (by simp)
    · split
      · exact .of_kept (by simp)
      · let x : Acc := { who := .host r.host, session := (secureSession s r body).isSome }
        refine ((Moves.of_kept (noteSecure_kept s r body)).trans (writeBlock_moves x vs _ r.addr.toNat)).trans ?_
        exact (Moves.of_kept (respond_kept ..)).trans (.foldl _ (fun _ _ => writeReg_moves ..) _ _)

theorem mgmtIn_moves (s : State) (r : Req) (op n : Nat) (vs : List Word) (wf : Bool) : Moves s (mgmtIn s r op n vs wf) := by
  unfold mgmtIn
  split
  · exact mgmtCore_moves ..
  · exact .refl s

/-! ### Datagrams (R470) -/

theorem hostFrame_moves (s : State) (h : Fin 8) (e : EthPort) (x : OlpHeader) (p : List Byte) : Moves s (hostFrame s h e x p) := by
  unfold hostFrame
  split
  all_goals first
    | exact mgmtCore_moves ..
    | exact .of_kept (by simp)

theorem olpIn_moves (s : State) (e : EthPort) (b : List Byte) : Moves s (olpIn s e b) := by
  unfold olpIn
  dsimp only
  repeat' split
  all_goals first
    | exact (Moves.of_kept (by simp)).trans (hostFrame_moves ..)
    | exact .of_kept (by simp)

/-! ### Engines (R134, R255) -/

theorem engineStep_moves (p : PWing) (qi : Nat) (want : WingPlan → Cmd → Bool) (hw : Hw) (s : State) : Moves s (engineStep p qi want hw s) := by
  unfold engineStep
  dsimp only
  repeat' split
  all_goals first
    | exact (advance_moves s hw.dt).then_kept (issueNow_kept ..)
    | exact .of_kept (by simp)

theorem repeatStep_moves (p : PWing) (qi : Nat) (r : Repeat) (s : State) : Moves s (repeatStep p qi r s) := by
  unfold repeatStep
  repeat' split
  all_goals first
    | exact (advance_moves s _).then_kept (repeatNow_kept ..)
    | exact .of_kept (by simp)

end Sys2Proof.Machine
end

