-- ==== Sys2Proof/Laws/Records.lean ====
section
/-! SUPPORT. What recording does: an event, an alarm or a report changes records only, and what that leaves alone. -/

namespace Sys2Proof.Machine

open Sys2Proof

theorem RecordsOnly.refl (s : State) : RecordsOnly s s := ⟨_, _, _, _, _, _, _, _, _, _, _, rfl⟩

theorem RecordsOnly.trans {s t u : State} (h : RecordsOnly s t) (k : RecordsOnly t u) : RecordsOnly s u := by
  obtain ⟨_, _, _, _, _, _, _, _, _, _, _, rfl⟩ := h
  obtain ⟨_, _, _, _, _, _, _, _, _, _, _, rfl⟩ := k
  exact ⟨_, _, _, _, _, _, _, _, _, _, _, rfl⟩

theorem RecordsOnly.reportsOnly {s t : State} (h : RecordsOnly s t) : ReportsOnly s t := ⟨_, _, _, _, h⟩

/-- What records leave as it was (R444, R551). -/
theorem RecordsOnly.frame {s t : State} (h : RecordsOnly s t) :
    t.pending = s.pending ∧ t.freeCtr = s.freeCtr ∧ t.c = s.c ∧ t.reg = s.reg ∧ t.fuse = s.fuse ∧ t.nvm = s.nvm ∧ t.pins = s.pins ∧
    t.pwr = s.pwr ∧ t.sec = s.sec ∧ t.start = s.start ∧ t.boot = s.boot ∧ t.img = s.img ∧ t.imgNew = s.imgNew ∧ t.esc = s.esc ∧
    t.wng = s.wng ∧ t.phys = s.phys ∧ t.lw = s.lw ∧ t.mem = s.mem ∧ t.sealer = s.sealer ∧ t.cam = s.cam ∧ t.isp = s.isp ∧
    t.enc = s.enc ∧ t.encStatus = s.encStatus ∧ t.ejc = s.ejc ∧ t.cap = s.cap ∧ t.int = s.int ∧ t.tst = s.tst ∧ t.supply = s.supply ∧
    t.therm = s.therm := by
  obtain ⟨_, _, _, _, _, _, _, _, _, _, _, rfl⟩ := h
  simp

/-- Both branches of a choice that records either way. -/
theorem RecordsOnly.ite {p : Prop} [Decidable p] {s t u : State} (h : RecordsOnly s t) (k : RecordsOnly s u) :
    RecordsOnly s (if p then t else u) := by
  split <;> assumption

theorem alarmEntry_recordsOnly (s : State) (code phys lwing : Nat) (arg : List Byte) : RecordsOnly s (alarmEntry s code phys lwing arg) :=
  ⟨_, _, _, _, _, _, _, _, _, _, _, rfl⟩

theorem mergeRecord_recordsOnly (s : State) : RecordsOnly s (mergeRecord s) := ⟨_, _, _, _, _, _, _, _, _, _, _, rfl⟩

theorem putRecord_recordsOnly (s : State) (e : Ev) (n : Nat) : RecordsOnly s (putRecord s e n) := by
  unfold putRecord
  split
  · exact .ite ⟨_, _, _, _, _, _, _, _, _, _, _, rfl⟩
      (.trans ⟨_, _, _, _, _, _, _, _, _, _, _, rfl⟩ (alarmEntry_recordsOnly ..))
  · exact ⟨_, _, _, _, _, _, _, _, _, _, _, rfl⟩

/-- The shared recorder: an event changes records only (R551-R556). -/
theorem logEvent_recordsOnly (s : State) (e : Ev) : RecordsOnly s (logEvent s e) := by
  unfold logEvent
  split
  · exact .ite (.trans ⟨_, _, _, _, _, _, _, _, _, _, _, rfl⟩ (putRecord_recordsOnly ..)) ⟨_, _, _, _, _, _, _, _, _, _, _, rfl⟩
  · exact .ite (mergeRecord_recordsOnly s) (putRecord_recordsOnly ..)

theorem raiseAlarm_recordsOnly (s : State) (code phys lwing : Nat) (arg : List Byte) :
    RecordsOnly s (raiseAlarm s code phys lwing arg) :=
  (alarmEntry_recordsOnly ..).trans (logEvent_recordsOnly ..)

theorem flagEvent_recordsOnly (s : State) (a m : Nat) (d : List Byte) (p k : Nat) : RecordsOnly s (flagEvent s a m d p k) :=
  logEvent_recordsOnly ..

theorem otherEvent_recordsOnly (s : State) (a : List Byte) (p k : Nat) : RecordsOnly s (otherEvent s a p k) := logEvent_recordsOnly ..

/-- A link check also draws one free value. -/
theorem linkEvent_recordsOnly (s : State) (i : Nat) (b : Bool) :
    RecordsOnly { s with freeCtr := s.freeCtr + 1 } (linkEvent s i b) := logEvent_recordsOnly ..

theorem resetEvent_recordsOnly (s : State) (a b c d : Nat) : RecordsOnly s (resetEvent s a b c d) := logEvent_recordsOnly ..

/-- A report changes the integrity log, its number and its flag, and the records of its event (R444). -/
theorem addReport_reportsOnly (s : State) (r : Report) : ReportsOnly s (addReport s r) := by
  unfold addReport
  generalize decide (512 ≤ s.ret.intLog.length) = full
  cases full
  · exact ⟨s.ret.intLog ++ [fillReport s r], s.ret.intLost, _, s.int.status, logEvent_recordsOnly ..⟩
  · exact ⟨s.ret.intLog, Nat.min 0xFFFF (s.ret.intLost + 1), _, orW s.int.status 0x800, logEvent_recordsOnly ..⟩

end Sys2Proof.Machine
end

