-- ==== Sys2Proof/Laws/State.lean ====
section
/-! SUPPORT. What each update of the state does to each field: one lemma a field, true by rfl, so that no proof unfolds a record. -/

namespace Sys2Proof.Machine

open Sys2Proof

/-! ### Time moves on (R463) -/

@[simp] theorem advance_c (s : State) (dt : Nat) : (advance s dt).c = (s.c + dt) % 2 ^ 64 := rfl
@[simp] theorem advance_pending (s : State) (dt : Nat) : (advance s dt).pending = s.pending := rfl
@[simp] theorem advance_freeCtr (s : State) (dt : Nat) : (advance s dt).freeCtr = s.freeCtr := rfl
@[simp] theorem advance_reg (s : State) (dt : Nat) : (advance s dt).reg = s.reg := rfl
@[simp] theorem advance_fuse (s : State) (dt : Nat) : (advance s dt).fuse = s.fuse := rfl
@[simp] theorem advance_nvm (s : State) (dt : Nat) : (advance s dt).nvm = s.nvm := rfl
@[simp] theorem advance_ret (s : State) (dt : Nat) : (advance s dt).ret = s.ret := rfl
@[simp] theorem advance_pins (s : State) (dt : Nat) : (advance s dt).pins = s.pins := rfl
@[simp] theorem advance_pwr (s : State) (dt : Nat) : (advance s dt).pwr = s.pwr := rfl
@[simp] theorem advance_sec (s : State) (dt : Nat) : (advance s dt).sec = s.sec := rfl
@[simp] theorem advance_start (s : State) (dt : Nat) : (advance s dt).start = s.start := rfl
@[simp] theorem advance_boot (s : State) (dt : Nat) : (advance s dt).boot = s.boot := rfl
@[simp] theorem advance_img (s : State) (dt : Nat) : (advance s dt).img = s.img := rfl
@[simp] theorem advance_imgNew (s : State) (dt : Nat) : (advance s dt).imgNew = s.imgNew := rfl
@[simp] theorem advance_esc (s : State) (dt : Nat) : (advance s dt).esc = s.esc := rfl
@[simp] theorem advance_wng (s : State) (dt : Nat) : (advance s dt).wng = s.wng := rfl
@[simp] theorem advance_phys (s : State) (dt : Nat) : (advance s dt).phys = s.phys := rfl
@[simp] theorem advance_lw (s : State) (dt : Nat) : (advance s dt).lw = s.lw := rfl
@[simp] theorem advance_mem (s : State) (dt : Nat) : (advance s dt).mem = s.mem := rfl
@[simp] theorem advance_sealer (s : State) (dt : Nat) : (advance s dt).sealer = s.sealer := rfl
@[simp] theorem advance_cam (s : State) (dt : Nat) : (advance s dt).cam = s.cam := rfl
@[simp] theorem advance_isp (s : State) (dt : Nat) : (advance s dt).isp = s.isp := rfl
@[simp] theorem advance_enc (s : State) (dt : Nat) : (advance s dt).enc = s.enc := rfl
@[simp] theorem advance_encStatus (s : State) (dt : Nat) : (advance s dt).encStatus = s.encStatus := rfl
@[simp] theorem advance_iio (s : State) (dt : Nat) : (advance s dt).iio = s.iio := rfl
@[simp] theorem advance_ejc (s : State) (dt : Nat) : (advance s dt).ejc = s.ejc := rfl
@[simp] theorem advance_net (s : State) (dt : Nat) : (advance s dt).net = s.net := rfl
@[simp] theorem advance_cap (s : State) (dt : Nat) : (advance s dt).cap = s.cap := rfl
@[simp] theorem advance_int (s : State) (dt : Nat) : (advance s dt).int = s.int := rfl
@[simp] theorem advance_tst (s : State) (dt : Nat) : (advance s dt).tst = s.tst := rfl
@[simp] theorem advance_supply (s : State) (dt : Nat) : (advance s dt).supply = s.supply := rfl
@[simp] theorem advance_therm (s : State) (dt : Nat) : (advance s dt).therm = s.therm := rfl
@[simp] theorem advance_recd (s : State) (dt : Nat) : (advance s dt).recd = s.recd := rfl

/-! ### A deadline passes (R463) -/

@[simp] theorem reach_c (s : State) (t : Nat) : (reach s t).c = (Nat.max s.c t) % 2 ^ 64 := rfl
@[simp] theorem reach_pending (s : State) (t : Nat) : (reach s t).pending = s.pending := rfl
@[simp] theorem reach_freeCtr (s : State) (t : Nat) : (reach s t).freeCtr = s.freeCtr := rfl
@[simp] theorem reach_reg (s : State) (t : Nat) : (reach s t).reg = s.reg := rfl
@[simp] theorem reach_fuse (s : State) (t : Nat) : (reach s t).fuse = s.fuse := rfl
@[simp] theorem reach_nvm (s : State) (t : Nat) : (reach s t).nvm = s.nvm := rfl
@[simp] theorem reach_ret (s : State) (t : Nat) : (reach s t).ret = s.ret := rfl
@[simp] theorem reach_pins (s : State) (t : Nat) : (reach s t).pins = s.pins := rfl
@[simp] theorem reach_pwr (s : State) (t : Nat) : (reach s t).pwr = s.pwr := rfl
@[simp] theorem reach_sec (s : State) (t : Nat) : (reach s t).sec = s.sec := rfl
@[simp] theorem reach_start (s : State) (t : Nat) : (reach s t).start = s.start := rfl
@[simp] theorem reach_boot (s : State) (t : Nat) : (reach s t).boot = s.boot := rfl
@[simp] theorem reach_img (s : State) (t : Nat) : (reach s t).img = s.img := rfl
@[simp] theorem reach_imgNew (s : State) (t : Nat) : (reach s t).imgNew = s.imgNew := rfl
@[simp] theorem reach_esc (s : State) (t : Nat) : (reach s t).esc = s.esc := rfl
@[simp] theorem reach_wng (s : State) (t : Nat) : (reach s t).wng = s.wng := rfl
@[simp] theorem reach_phys (s : State) (t : Nat) : (reach s t).phys = s.phys := rfl
@[simp] theorem reach_lw (s : State) (t : Nat) : (reach s t).lw = s.lw := rfl
@[simp] theorem reach_mem (s : State) (t : Nat) : (reach s t).mem = s.mem := rfl
@[simp] theorem reach_sealer (s : State) (t : Nat) : (reach s t).sealer = s.sealer := rfl
@[simp] theorem reach_cam (s : State) (t : Nat) : (reach s t).cam = s.cam := rfl
@[simp] theorem reach_isp (s : State) (t : Nat) : (reach s t).isp = s.isp := rfl
@[simp] theorem reach_enc (s : State) (t : Nat) : (reach s t).enc = s.enc := rfl
@[simp] theorem reach_encStatus (s : State) (t : Nat) : (reach s t).encStatus = s.encStatus := rfl
@[simp] theorem reach_iio (s : State) (t : Nat) : (reach s t).iio = s.iio := rfl
@[simp] theorem reach_ejc (s : State) (t : Nat) : (reach s t).ejc = s.ejc := rfl
@[simp] theorem reach_net (s : State) (t : Nat) : (reach s t).net = s.net := rfl
@[simp] theorem reach_cap (s : State) (t : Nat) : (reach s t).cap = s.cap := rfl
@[simp] theorem reach_int (s : State) (t : Nat) : (reach s t).int = s.int := rfl
@[simp] theorem reach_tst (s : State) (t : Nat) : (reach s t).tst = s.tst := rfl
@[simp] theorem reach_supply (s : State) (t : Nat) : (reach s t).supply = s.supply := rfl
@[simp] theorem reach_therm (s : State) (t : Nat) : (reach s t).therm = s.therm := rfl
@[simp] theorem reach_recd (s : State) (t : Nat) : (reach s t).recd = s.recd := rfl

/-! ### A physical Wing changes (R78) -/

@[simp] theorem updPhys_phys (s : State) (p : PWing) (f : Phys → Phys) : (updPhys s p f).phys = s.phys.set p (f s.phys[p]) := rfl
@[simp] theorem updPhys_pending (s : State) (p : PWing) (f : Phys → Phys) : (updPhys s p f).pending = s.pending := rfl
@[simp] theorem updPhys_freeCtr (s : State) (p : PWing) (f : Phys → Phys) : (updPhys s p f).freeCtr = s.freeCtr := rfl
@[simp] theorem updPhys_c (s : State) (p : PWing) (f : Phys → Phys) : (updPhys s p f).c = s.c := rfl
@[simp] theorem updPhys_reg (s : State) (p : PWing) (f : Phys → Phys) : (updPhys s p f).reg = s.reg := rfl
@[simp] theorem updPhys_fuse (s : State) (p : PWing) (f : Phys → Phys) : (updPhys s p f).fuse = s.fuse := rfl
@[simp] theorem updPhys_nvm (s : State) (p : PWing) (f : Phys → Phys) : (updPhys s p f).nvm = s.nvm := rfl
@[simp] theorem updPhys_ret (s : State) (p : PWing) (f : Phys → Phys) : (updPhys s p f).ret = s.ret := rfl
@[simp] theorem updPhys_pins (s : State) (p : PWing) (f : Phys → Phys) : (updPhys s p f).pins = s.pins := rfl
@[simp] theorem updPhys_pwr (s : State) (p : PWing) (f : Phys → Phys) : (updPhys s p f).pwr = s.pwr := rfl
@[simp] theorem updPhys_sec (s : State) (p : PWing) (f : Phys → Phys) : (updPhys s p f).sec = s.sec := rfl
@[simp] theorem updPhys_start (s : State) (p : PWing) (f : Phys → Phys) : (updPhys s p f).start = s.start := rfl
@[simp] theorem updPhys_boot (s : State) (p : PWing) (f : Phys → Phys) : (updPhys s p f).boot = s.boot := rfl
@[simp] theorem updPhys_img (s : State) (p : PWing) (f : Phys → Phys) : (updPhys s p f).img = s.img := rfl
@[simp] theorem updPhys_imgNew (s : State) (p : PWing) (f : Phys → Phys) : (updPhys s p f).imgNew = s.imgNew := rfl
@[simp] theorem updPhys_esc (s : State) (p : PWing) (f : Phys → Phys) : (updPhys s p f).esc = s.esc := rfl
@[simp] theorem updPhys_wng (s : State) (p : PWing) (f : Phys → Phys) : (updPhys s p f).wng = s.wng := rfl
@[simp] theorem updPhys_lw (s : State) (p : PWing) (f : Phys → Phys) : (updPhys s p f).lw = s.lw := rfl
@[simp] theorem updPhys_mem (s : State) (p : PWing) (f : Phys → Phys) : (updPhys s p f).mem = s.mem := rfl
@[simp] theorem updPhys_sealer (s : State) (p : PWing) (f : Phys → Phys) : (updPhys s p f).sealer = s.sealer := rfl
@[simp] theorem updPhys_cam (s : State) (p : PWing) (f : Phys → Phys) : (updPhys s p f).cam = s.cam := rfl
@[simp] theorem updPhys_isp (s : State) (p : PWing) (f : Phys → Phys) : (updPhys s p f).isp = s.isp := rfl
@[simp] theorem updPhys_enc (s : State) (p : PWing) (f : Phys → Phys) : (updPhys s p f).enc = s.enc := rfl
@[simp] theorem updPhys_encStatus (s : State) (p : PWing) (f : Phys → Phys) : (updPhys s p f).encStatus = s.encStatus := rfl
@[simp] theorem updPhys_iio (s : State) (p : PWing) (f : Phys → Phys) : (updPhys s p f).iio = s.iio := rfl
@[simp] theorem updPhys_ejc (s : State) (p : PWing) (f : Phys → Phys) : (updPhys s p f).ejc = s.ejc := rfl
@[simp] theorem updPhys_net (s : State) (p : PWing) (f : Phys → Phys) : (updPhys s p f).net = s.net := rfl
@[simp] theorem updPhys_cap (s : State) (p : PWing) (f : Phys → Phys) : (updPhys s p f).cap = s.cap := rfl
@[simp] theorem updPhys_int (s : State) (p : PWing) (f : Phys → Phys) : (updPhys s p f).int = s.int := rfl
@[simp] theorem updPhys_tst (s : State) (p : PWing) (f : Phys → Phys) : (updPhys s p f).tst = s.tst := rfl
@[simp] theorem updPhys_supply (s : State) (p : PWing) (f : Phys → Phys) : (updPhys s p f).supply = s.supply := rfl
@[simp] theorem updPhys_therm (s : State) (p : PWing) (f : Phys → Phys) : (updPhys s p f).therm = s.therm := rfl
@[simp] theorem updPhys_recd (s : State) (p : PWing) (f : Phys → Phys) : (updPhys s p f).recd = s.recd := rfl

/-! ### A logical Wing changes (R78) -/

@[simp] theorem updLw_lw (s : State) (k : LWing) (f : LogWing → LogWing) : (updLw s k f).lw = s.lw.set k (f s.lw[k]) := rfl
@[simp] theorem updLw_pending (s : State) (k : LWing) (f : LogWing → LogWing) : (updLw s k f).pending = s.pending := rfl
@[simp] theorem updLw_freeCtr (s : State) (k : LWing) (f : LogWing → LogWing) : (updLw s k f).freeCtr = s.freeCtr := rfl
@[simp] theorem updLw_c (s : State) (k : LWing) (f : LogWing → LogWing) : (updLw s k f).c = s.c := rfl
@[simp] theorem updLw_reg (s : State) (k : LWing) (f : LogWing → LogWing) : (updLw s k f).reg = s.reg := rfl
@[simp] theorem updLw_fuse (s : State) (k : LWing) (f : LogWing → LogWing) : (updLw s k f).fuse = s.fuse := rfl
@[simp] theorem updLw_nvm (s : State) (k : LWing) (f : LogWing → LogWing) : (updLw s k f).nvm = s.nvm := rfl
@[simp] theorem updLw_ret (s : State) (k : LWing) (f : LogWing → LogWing) : (updLw s k f).ret = s.ret := rfl
@[simp] theorem updLw_pins (s : State) (k : LWing) (f : LogWing → LogWing) : (updLw s k f).pins = s.pins := rfl
@[simp] theorem updLw_pwr (s : State) (k : LWing) (f : LogWing → LogWing) : (updLw s k f).pwr = s.pwr := rfl
@[simp] theorem updLw_sec (s : State) (k : LWing) (f : LogWing → LogWing) : (updLw s k f).sec = s.sec := rfl
@[simp] theorem updLw_start (s : State) (k : LWing) (f : LogWing → LogWing) : (updLw s k f).start = s.start := rfl
@[simp] theorem updLw_boot (s : State) (k : LWing) (f : LogWing → LogWing) : (updLw s k f).boot = s.boot := rfl
@[simp] theorem updLw_img (s : State) (k : LWing) (f : LogWing → LogWing) : (updLw s k f).img = s.img := rfl
@[simp] theorem updLw_imgNew (s : State) (k : LWing) (f : LogWing → LogWing) : (updLw s k f).imgNew = s.imgNew := rfl
@[simp] theorem updLw_esc (s : State) (k : LWing) (f : LogWing → LogWing) : (updLw s k f).esc = s.esc := rfl
@[simp] theorem updLw_wng (s : State) (k : LWing) (f : LogWing → LogWing) : (updLw s k f).wng = s.wng := rfl
@[simp] theorem updLw_phys (s : State) (k : LWing) (f : LogWing → LogWing) : (updLw s k f).phys = s.phys := rfl
@[simp] theorem updLw_mem (s : State) (k : LWing) (f : LogWing → LogWing) : (updLw s k f).mem = s.mem := rfl
@[simp] theorem updLw_sealer (s : State) (k : LWing) (f : LogWing → LogWing) : (updLw s k f).sealer = s.sealer := rfl
@[simp] theorem updLw_cam (s : State) (k : LWing) (f : LogWing → LogWing) : (updLw s k f).cam = s.cam := rfl
@[simp] theorem updLw_isp (s : State) (k : LWing) (f : LogWing → LogWing) : (updLw s k f).isp = s.isp := rfl
@[simp] theorem updLw_enc (s : State) (k : LWing) (f : LogWing → LogWing) : (updLw s k f).enc = s.enc := rfl
@[simp] theorem updLw_encStatus (s : State) (k : LWing) (f : LogWing → LogWing) : (updLw s k f).encStatus = s.encStatus := rfl
@[simp] theorem updLw_iio (s : State) (k : LWing) (f : LogWing → LogWing) : (updLw s k f).iio = s.iio := rfl
@[simp] theorem updLw_ejc (s : State) (k : LWing) (f : LogWing → LogWing) : (updLw s k f).ejc = s.ejc := rfl
@[simp] theorem updLw_net (s : State) (k : LWing) (f : LogWing → LogWing) : (updLw s k f).net = s.net := rfl
@[simp] theorem updLw_cap (s : State) (k : LWing) (f : LogWing → LogWing) : (updLw s k f).cap = s.cap := rfl
@[simp] theorem updLw_int (s : State) (k : LWing) (f : LogWing → LogWing) : (updLw s k f).int = s.int := rfl
@[simp] theorem updLw_tst (s : State) (k : LWing) (f : LogWing → LogWing) : (updLw s k f).tst = s.tst := rfl
@[simp] theorem updLw_supply (s : State) (k : LWing) (f : LogWing → LogWing) : (updLw s k f).supply = s.supply := rfl
@[simp] theorem updLw_therm (s : State) (k : LWing) (f : LogWing → LogWing) : (updLw s k f).therm = s.therm := rfl
@[simp] theorem updLw_recd (s : State) (k : LWing) (f : LogWing → LogWing) : (updLw s k f).recd = s.recd := rfl

/-! ### Bytes go to DRAM (R208) -/

@[simp] theorem dramWrite_mem (s : State) (a : Nat) (bs : List Byte) : (dramWrite s a bs).mem = { s.mem with dram := memWrites s.mem.dram a bs, bad := s.mem.bad.filter fun b => !within (512 * b) 512 a bs.length } := rfl
@[simp] theorem dramWrite_pending (s : State) (a : Nat) (bs : List Byte) : (dramWrite s a bs).pending = s.pending := rfl
@[simp] theorem dramWrite_freeCtr (s : State) (a : Nat) (bs : List Byte) : (dramWrite s a bs).freeCtr = s.freeCtr := rfl
@[simp] theorem dramWrite_c (s : State) (a : Nat) (bs : List Byte) : (dramWrite s a bs).c = s.c := rfl
@[simp] theorem dramWrite_reg (s : State) (a : Nat) (bs : List Byte) : (dramWrite s a bs).reg = s.reg := rfl
@[simp] theorem dramWrite_fuse (s : State) (a : Nat) (bs : List Byte) : (dramWrite s a bs).fuse = s.fuse := rfl
@[simp] theorem dramWrite_nvm (s : State) (a : Nat) (bs : List Byte) : (dramWrite s a bs).nvm = s.nvm := rfl
@[simp] theorem dramWrite_ret (s : State) (a : Nat) (bs : List Byte) : (dramWrite s a bs).ret = s.ret := rfl
@[simp] theorem dramWrite_pins (s : State) (a : Nat) (bs : List Byte) : (dramWrite s a bs).pins = s.pins := rfl
@[simp] theorem dramWrite_pwr (s : State) (a : Nat) (bs : List Byte) : (dramWrite s a bs).pwr = s.pwr := rfl
@[simp] theorem dramWrite_sec (s : State) (a : Nat) (bs : List Byte) : (dramWrite s a bs).sec = s.sec := rfl
@[simp] theorem dramWrite_start (s : State) (a : Nat) (bs : List Byte) : (dramWrite s a bs).start = s.start := rfl
@[simp] theorem dramWrite_boot (s : State) (a : Nat) (bs : List Byte) : (dramWrite s a bs).boot = s.boot := rfl
@[simp] theorem dramWrite_img (s : State) (a : Nat) (bs : List Byte) : (dramWrite s a bs).img = s.img := rfl
@[simp] theorem dramWrite_imgNew (s : State) (a : Nat) (bs : List Byte) : (dramWrite s a bs).imgNew = s.imgNew := rfl
@[simp] theorem dramWrite_esc (s : State) (a : Nat) (bs : List Byte) : (dramWrite s a bs).esc = s.esc := rfl
@[simp] theorem dramWrite_wng (s : State) (a : Nat) (bs : List Byte) : (dramWrite s a bs).wng = s.wng := rfl
@[simp] theorem dramWrite_phys (s : State) (a : Nat) (bs : List Byte) : (dramWrite s a bs).phys = s.phys := rfl
@[simp] theorem dramWrite_lw (s : State) (a : Nat) (bs : List Byte) : (dramWrite s a bs).lw = s.lw := rfl
@[simp] theorem dramWrite_sealer (s : State) (a : Nat) (bs : List Byte) : (dramWrite s a bs).sealer = s.sealer := rfl
@[simp] theorem dramWrite_cam (s : State) (a : Nat) (bs : List Byte) : (dramWrite s a bs).cam = s.cam := rfl
@[simp] theorem dramWrite_isp (s : State) (a : Nat) (bs : List Byte) : (dramWrite s a bs).isp = s.isp := rfl
@[simp] theorem dramWrite_enc (s : State) (a : Nat) (bs : List Byte) : (dramWrite s a bs).enc = s.enc := rfl
@[simp] theorem dramWrite_encStatus (s : State) (a : Nat) (bs : List Byte) : (dramWrite s a bs).encStatus = s.encStatus := rfl
@[simp] theorem dramWrite_iio (s : State) (a : Nat) (bs : List Byte) : (dramWrite s a bs).iio = s.iio := rfl
@[simp] theorem dramWrite_ejc (s : State) (a : Nat) (bs : List Byte) : (dramWrite s a bs).ejc = s.ejc := rfl
@[simp] theorem dramWrite_net (s : State) (a : Nat) (bs : List Byte) : (dramWrite s a bs).net = s.net := rfl
@[simp] theorem dramWrite_cap (s : State) (a : Nat) (bs : List Byte) : (dramWrite s a bs).cap = s.cap := rfl
@[simp] theorem dramWrite_int (s : State) (a : Nat) (bs : List Byte) : (dramWrite s a bs).int = s.int := rfl
@[simp] theorem dramWrite_tst (s : State) (a : Nat) (bs : List Byte) : (dramWrite s a bs).tst = s.tst := rfl
@[simp] theorem dramWrite_supply (s : State) (a : Nat) (bs : List Byte) : (dramWrite s a bs).supply = s.supply := rfl
@[simp] theorem dramWrite_therm (s : State) (a : Nat) (bs : List Byte) : (dramWrite s a bs).therm = s.therm := rfl
@[simp] theorem dramWrite_recd (s : State) (a : Nat) (bs : List Byte) : (dramWrite s a bs).recd = s.recd := rfl

/-! ### A world violation (R571) -/

@[simp] theorem violation_sec (s : State) : (violation s).sec = { s.sec with viol := true, violCnt := incW s.sec.violCnt } := rfl
@[simp] theorem violation_pending (s : State) : (violation s).pending = s.pending := rfl
@[simp] theorem violation_freeCtr (s : State) : (violation s).freeCtr = s.freeCtr := rfl
@[simp] theorem violation_c (s : State) : (violation s).c = s.c := rfl
@[simp] theorem violation_reg (s : State) : (violation s).reg = s.reg := rfl
@[simp] theorem violation_fuse (s : State) : (violation s).fuse = s.fuse := rfl
@[simp] theorem violation_nvm (s : State) : (violation s).nvm = s.nvm := rfl
@[simp] theorem violation_ret (s : State) : (violation s).ret = s.ret := rfl
@[simp] theorem violation_pins (s : State) : (violation s).pins = s.pins := rfl
@[simp] theorem violation_pwr (s : State) : (violation s).pwr = s.pwr := rfl
@[simp] theorem violation_start (s : State) : (violation s).start = s.start := rfl
@[simp] theorem violation_boot (s : State) : (violation s).boot = s.boot := rfl
@[simp] theorem violation_img (s : State) : (violation s).img = s.img := rfl
@[simp] theorem violation_imgNew (s : State) : (violation s).imgNew = s.imgNew := rfl
@[simp] theorem violation_esc (s : State) : (violation s).esc = s.esc := rfl
@[simp] theorem violation_wng (s : State) : (violation s).wng = s.wng := rfl
@[simp] theorem violation_phys (s : State) : (violation s).phys = s.phys := rfl
@[simp] theorem violation_lw (s : State) : (violation s).lw = s.lw := rfl
@[simp] theorem violation_mem (s : State) : (violation s).mem = s.mem := rfl
@[simp] theorem violation_sealer (s : State) : (violation s).sealer = s.sealer := rfl
@[simp] theorem violation_cam (s : State) : (violation s).cam = s.cam := rfl
@[simp] theorem violation_isp (s : State) : (violation s).isp = s.isp := rfl
@[simp] theorem violation_enc (s : State) : (violation s).enc = s.enc := rfl
@[simp] theorem violation_encStatus (s : State) : (violation s).encStatus = s.encStatus := rfl
@[simp] theorem violation_iio (s : State) : (violation s).iio = s.iio := rfl
@[simp] theorem violation_ejc (s : State) : (violation s).ejc = s.ejc := rfl
@[simp] theorem violation_net (s : State) : (violation s).net = s.net := rfl
@[simp] theorem violation_cap (s : State) : (violation s).cap = s.cap := rfl
@[simp] theorem violation_int (s : State) : (violation s).int = s.int := rfl
@[simp] theorem violation_tst (s : State) : (violation s).tst = s.tst := rfl
@[simp] theorem violation_supply (s : State) : (violation s).supply = s.supply := rfl
@[simp] theorem violation_therm (s : State) : (violation s).therm = s.therm := rfl
@[simp] theorem violation_recd (s : State) : (violation s).recd = s.recd := rfl

/-! ### The alarm function (R388) -/

@[simp] theorem alarmFn_iio (s : State) : (alarmFn s).iio = { s.iio with alarmEnd := s.c + 100000000 } := rfl
@[simp] theorem alarmFn_pending (s : State) : (alarmFn s).pending = s.pending := rfl
@[simp] theorem alarmFn_freeCtr (s : State) : (alarmFn s).freeCtr = s.freeCtr := rfl
@[simp] theorem alarmFn_c (s : State) : (alarmFn s).c = s.c := rfl
@[simp] theorem alarmFn_reg (s : State) : (alarmFn s).reg = s.reg := rfl
@[simp] theorem alarmFn_fuse (s : State) : (alarmFn s).fuse = s.fuse := rfl
@[simp] theorem alarmFn_nvm (s : State) : (alarmFn s).nvm = s.nvm := rfl
@[simp] theorem alarmFn_ret (s : State) : (alarmFn s).ret = s.ret := rfl
@[simp] theorem alarmFn_pins (s : State) : (alarmFn s).pins = s.pins := rfl
@[simp] theorem alarmFn_pwr (s : State) : (alarmFn s).pwr = s.pwr := rfl
@[simp] theorem alarmFn_sec (s : State) : (alarmFn s).sec = s.sec := rfl
@[simp] theorem alarmFn_start (s : State) : (alarmFn s).start = s.start := rfl
@[simp] theorem alarmFn_boot (s : State) : (alarmFn s).boot = s.boot := rfl
@[simp] theorem alarmFn_img (s : State) : (alarmFn s).img = s.img := rfl
@[simp] theorem alarmFn_imgNew (s : State) : (alarmFn s).imgNew = s.imgNew := rfl
@[simp] theorem alarmFn_esc (s : State) : (alarmFn s).esc = s.esc := rfl
@[simp] theorem alarmFn_wng (s : State) : (alarmFn s).wng = s.wng := rfl
@[simp] theorem alarmFn_phys (s : State) : (alarmFn s).phys = s.phys := rfl
@[simp] theorem alarmFn_lw (s : State) : (alarmFn s).lw = s.lw := rfl
@[simp] theorem alarmFn_mem (s : State) : (alarmFn s).mem = s.mem := rfl
@[simp] theorem alarmFn_sealer (s : State) : (alarmFn s).sealer = s.sealer := rfl
@[simp] theorem alarmFn_cam (s : State) : (alarmFn s).cam = s.cam := rfl
@[simp] theorem alarmFn_isp (s : State) : (alarmFn s).isp = s.isp := rfl
@[simp] theorem alarmFn_enc (s : State) : (alarmFn s).enc = s.enc := rfl
@[simp] theorem alarmFn_encStatus (s : State) : (alarmFn s).encStatus = s.encStatus := rfl
@[simp] theorem alarmFn_ejc (s : State) : (alarmFn s).ejc = s.ejc := rfl
@[simp] theorem alarmFn_net (s : State) : (alarmFn s).net = s.net := rfl
@[simp] theorem alarmFn_cap (s : State) : (alarmFn s).cap = s.cap := rfl
@[simp] theorem alarmFn_int (s : State) : (alarmFn s).int = s.int := rfl
@[simp] theorem alarmFn_tst (s : State) : (alarmFn s).tst = s.tst := rfl
@[simp] theorem alarmFn_supply (s : State) : (alarmFn s).supply = s.supply := rfl
@[simp] theorem alarmFn_therm (s : State) : (alarmFn s).therm = s.therm := rfl
@[simp] theorem alarmFn_recd (s : State) : (alarmFn s).recd = s.recd := rfl

/-! ### The security unit changes (R495) -/

@[simp] theorem updSec_sec (s : State) (f : Security → Security) : (updSec s f).sec = f s.sec := rfl
@[simp] theorem updSec_pending (s : State) (f : Security → Security) : (updSec s f).pending = s.pending := rfl
@[simp] theorem updSec_freeCtr (s : State) (f : Security → Security) : (updSec s f).freeCtr = s.freeCtr := rfl
@[simp] theorem updSec_c (s : State) (f : Security → Security) : (updSec s f).c = s.c := rfl
@[simp] theorem updSec_reg (s : State) (f : Security → Security) : (updSec s f).reg = s.reg := rfl
@[simp] theorem updSec_fuse (s : State) (f : Security → Security) : (updSec s f).fuse = s.fuse := rfl
@[simp] theorem updSec_nvm (s : State) (f : Security → Security) : (updSec s f).nvm = s.nvm := rfl
@[simp] theorem updSec_ret (s : State) (f : Security → Security) : (updSec s f).ret = s.ret := rfl
@[simp] theorem updSec_pins (s : State) (f : Security → Security) : (updSec s f).pins = s.pins := rfl
@[simp] theorem updSec_pwr (s : State) (f : Security → Security) : (updSec s f).pwr = s.pwr := rfl
@[simp] theorem updSec_start (s : State) (f : Security → Security) : (updSec s f).start = s.start := rfl
@[simp] theorem updSec_boot (s : State) (f : Security → Security) : (updSec s f).boot = s.boot := rfl
@[simp] theorem updSec_img (s : State) (f : Security → Security) : (updSec s f).img = s.img := rfl
@[simp] theorem updSec_imgNew (s : State) (f : Security → Security) : (updSec s f).imgNew = s.imgNew := rfl
@[simp] theorem updSec_esc (s : State) (f : Security → Security) : (updSec s f).esc = s.esc := rfl
@[simp] theorem updSec_wng (s : State) (f : Security → Security) : (updSec s f).wng = s.wng := rfl
@[simp] theorem updSec_phys (s : State) (f : Security → Security) : (updSec s f).phys = s.phys := rfl
@[simp] theorem updSec_lw (s : State) (f : Security → Security) : (updSec s f).lw = s.lw := rfl
@[simp] theorem updSec_mem (s : State) (f : Security → Security) : (updSec s f).mem = s.mem := rfl
@[simp] theorem updSec_sealer (s : State) (f : Security → Security) : (updSec s f).sealer = s.sealer := rfl
@[simp] theorem updSec_cam (s : State) (f : Security → Security) : (updSec s f).cam = s.cam := rfl
@[simp] theorem updSec_isp (s : State) (f : Security → Security) : (updSec s f).isp = s.isp := rfl
@[simp] theorem updSec_enc (s : State) (f : Security → Security) : (updSec s f).enc = s.enc := rfl
@[simp] theorem updSec_encStatus (s : State) (f : Security → Security) : (updSec s f).encStatus = s.encStatus := rfl
@[simp] theorem updSec_iio (s : State) (f : Security → Security) : (updSec s f).iio = s.iio := rfl
@[simp] theorem updSec_ejc (s : State) (f : Security → Security) : (updSec s f).ejc = s.ejc := rfl
@[simp] theorem updSec_net (s : State) (f : Security → Security) : (updSec s f).net = s.net := rfl
@[simp] theorem updSec_cap (s : State) (f : Security → Security) : (updSec s f).cap = s.cap := rfl
@[simp] theorem updSec_int (s : State) (f : Security → Security) : (updSec s f).int = s.int := rfl
@[simp] theorem updSec_tst (s : State) (f : Security → Security) : (updSec s f).tst = s.tst := rfl
@[simp] theorem updSec_supply (s : State) (f : Security → Security) : (updSec s f).supply = s.supply := rfl
@[simp] theorem updSec_therm (s : State) (f : Security → Security) : (updSec s f).therm = s.therm := rfl
@[simp] theorem updSec_recd (s : State) (f : Security → Security) : (updSec s f).recd = s.recd := rfl

/-! ### A camera port changes (R299) -/

@[simp] theorem updPort_cam (s : State) (p : Port) (f : CamPort → CamPort) : (updPort s p f).cam = { s.cam with port := s.cam.port.set p (f s.cam.port[p]) } := rfl
@[simp] theorem updPort_pending (s : State) (p : Port) (f : CamPort → CamPort) : (updPort s p f).pending = s.pending := rfl
@[simp] theorem updPort_freeCtr (s : State) (p : Port) (f : CamPort → CamPort) : (updPort s p f).freeCtr = s.freeCtr := rfl
@[simp] theorem updPort_c (s : State) (p : Port) (f : CamPort → CamPort) : (updPort s p f).c = s.c := rfl
@[simp] theorem updPort_reg (s : State) (p : Port) (f : CamPort → CamPort) : (updPort s p f).reg = s.reg := rfl
@[simp] theorem updPort_fuse (s : State) (p : Port) (f : CamPort → CamPort) : (updPort s p f).fuse = s.fuse := rfl
@[simp] theorem updPort_nvm (s : State) (p : Port) (f : CamPort → CamPort) : (updPort s p f).nvm = s.nvm := rfl
@[simp] theorem updPort_ret (s : State) (p : Port) (f : CamPort → CamPort) : (updPort s p f).ret = s.ret := rfl
@[simp] theorem updPort_pins (s : State) (p : Port) (f : CamPort → CamPort) : (updPort s p f).pins = s.pins := rfl
@[simp] theorem updPort_pwr (s : State) (p : Port) (f : CamPort → CamPort) : (updPort s p f).pwr = s.pwr := rfl
@[simp] theorem updPort_sec (s : State) (p : Port) (f : CamPort → CamPort) : (updPort s p f).sec = s.sec := rfl
@[simp] theorem updPort_start (s : State) (p : Port) (f : CamPort → CamPort) : (updPort s p f).start = s.start := rfl
@[simp] theorem updPort_boot (s : State) (p : Port) (f : CamPort → CamPort) : (updPort s p f).boot = s.boot := rfl
@[simp] theorem updPort_img (s : State) (p : Port) (f : CamPort → CamPort) : (updPort s p f).img = s.img := rfl
@[simp] theorem updPort_imgNew (s : State) (p : Port) (f : CamPort → CamPort) : (updPort s p f).imgNew = s.imgNew := rfl
@[simp] theorem updPort_esc (s : State) (p : Port) (f : CamPort → CamPort) : (updPort s p f).esc = s.esc := rfl
@[simp] theorem updPort_wng (s : State) (p : Port) (f : CamPort → CamPort) : (updPort s p f).wng = s.wng := rfl
@[simp] theorem updPort_phys (s : State) (p : Port) (f : CamPort → CamPort) : (updPort s p f).phys = s.phys := rfl
@[simp] theorem updPort_lw (s : State) (p : Port) (f : CamPort → CamPort) : (updPort s p f).lw = s.lw := rfl
@[simp] theorem updPort_mem (s : State) (p : Port) (f : CamPort → CamPort) : (updPort s p f).mem = s.mem := rfl
@[simp] theorem updPort_sealer (s : State) (p : Port) (f : CamPort → CamPort) : (updPort s p f).sealer = s.sealer := rfl
@[simp] theorem updPort_isp (s : State) (p : Port) (f : CamPort → CamPort) : (updPort s p f).isp = s.isp := rfl
@[simp] theorem updPort_enc (s : State) (p : Port) (f : CamPort → CamPort) : (updPort s p f).enc = s.enc := rfl
@[simp] theorem updPort_encStatus (s : State) (p : Port) (f : CamPort → CamPort) : (updPort s p f).encStatus = s.encStatus := rfl
@[simp] theorem updPort_iio (s : State) (p : Port) (f : CamPort → CamPort) : (updPort s p f).iio = s.iio := rfl
@[simp] theorem updPort_ejc (s : State) (p : Port) (f : CamPort → CamPort) : (updPort s p f).ejc = s.ejc := rfl
@[simp] theorem updPort_net (s : State) (p : Port) (f : CamPort → CamPort) : (updPort s p f).net = s.net := rfl
@[simp] theorem updPort_cap (s : State) (p : Port) (f : CamPort → CamPort) : (updPort s p f).cap = s.cap := rfl
@[simp] theorem updPort_int (s : State) (p : Port) (f : CamPort → CamPort) : (updPort s p f).int = s.int := rfl
@[simp] theorem updPort_tst (s : State) (p : Port) (f : CamPort → CamPort) : (updPort s p f).tst = s.tst := rfl
@[simp] theorem updPort_supply (s : State) (p : Port) (f : CamPort → CamPort) : (updPort s p f).supply = s.supply := rfl
@[simp] theorem updPort_therm (s : State) (p : Port) (f : CamPort → CamPort) : (updPort s p f).therm = s.therm := rfl
@[simp] theorem updPort_recd (s : State) (p : Port) (f : CamPort → CamPort) : (updPort s p f).recd = s.recd := rfl

/-! ### The pipeline of a camera changes (R328) -/

@[simp] theorem updIsp_isp (s : State) (p : Port) (f : IspCam → IspCam) : (updIsp s p f).isp = { s.isp with cam := s.isp.cam.set p (f s.isp.cam[p]) } := rfl
@[simp] theorem updIsp_pending (s : State) (p : Port) (f : IspCam → IspCam) : (updIsp s p f).pending = s.pending := rfl
@[simp] theorem updIsp_freeCtr (s : State) (p : Port) (f : IspCam → IspCam) : (updIsp s p f).freeCtr = s.freeCtr := rfl
@[simp] theorem updIsp_c (s : State) (p : Port) (f : IspCam → IspCam) : (updIsp s p f).c = s.c := rfl
@[simp] theorem updIsp_reg (s : State) (p : Port) (f : IspCam → IspCam) : (updIsp s p f).reg = s.reg := rfl
@[simp] theorem updIsp_fuse (s : State) (p : Port) (f : IspCam → IspCam) : (updIsp s p f).fuse = s.fuse := rfl
@[simp] theorem updIsp_nvm (s : State) (p : Port) (f : IspCam → IspCam) : (updIsp s p f).nvm = s.nvm := rfl
@[simp] theorem updIsp_ret (s : State) (p : Port) (f : IspCam → IspCam) : (updIsp s p f).ret = s.ret := rfl
@[simp] theorem updIsp_pins (s : State) (p : Port) (f : IspCam → IspCam) : (updIsp s p f).pins = s.pins := rfl
@[simp] theorem updIsp_pwr (s : State) (p : Port) (f : IspCam → IspCam) : (updIsp s p f).pwr = s.pwr := rfl
@[simp] theorem updIsp_sec (s : State) (p : Port) (f : IspCam → IspCam) : (updIsp s p f).sec = s.sec := rfl
@[simp] theorem updIsp_start (s : State) (p : Port) (f : IspCam → IspCam) : (updIsp s p f).start = s.start := rfl
@[simp] theorem updIsp_boot (s : State) (p : Port) (f : IspCam → IspCam) : (updIsp s p f).boot = s.boot := rfl
@[simp] theorem updIsp_img (s : State) (p : Port) (f : IspCam → IspCam) : (updIsp s p f).img = s.img := rfl
@[simp] theorem updIsp_imgNew (s : State) (p : Port) (f : IspCam → IspCam) : (updIsp s p f).imgNew = s.imgNew := rfl
@[simp] theorem updIsp_esc (s : State) (p : Port) (f : IspCam → IspCam) : (updIsp s p f).esc = s.esc := rfl
@[simp] theorem updIsp_wng (s : State) (p : Port) (f : IspCam → IspCam) : (updIsp s p f).wng = s.wng := rfl
@[simp] theorem updIsp_phys (s : State) (p : Port) (f : IspCam → IspCam) : (updIsp s p f).phys = s.phys := rfl
@[simp] theorem updIsp_lw (s : State) (p : Port) (f : IspCam → IspCam) : (updIsp s p f).lw = s.lw := rfl
@[simp] theorem updIsp_mem (s : State) (p : Port) (f : IspCam → IspCam) : (updIsp s p f).mem = s.mem := rfl
@[simp] theorem updIsp_sealer (s : State) (p : Port) (f : IspCam → IspCam) : (updIsp s p f).sealer = s.sealer := rfl
@[simp] theorem updIsp_cam (s : State) (p : Port) (f : IspCam → IspCam) : (updIsp s p f).cam = s.cam := rfl
@[simp] theorem updIsp_enc (s : State) (p : Port) (f : IspCam → IspCam) : (updIsp s p f).enc = s.enc := rfl
@[simp] theorem updIsp_encStatus (s : State) (p : Port) (f : IspCam → IspCam) : (updIsp s p f).encStatus = s.encStatus := rfl
@[simp] theorem updIsp_iio (s : State) (p : Port) (f : IspCam → IspCam) : (updIsp s p f).iio = s.iio := rfl
@[simp] theorem updIsp_ejc (s : State) (p : Port) (f : IspCam → IspCam) : (updIsp s p f).ejc = s.ejc := rfl
@[simp] theorem updIsp_net (s : State) (p : Port) (f : IspCam → IspCam) : (updIsp s p f).net = s.net := rfl
@[simp] theorem updIsp_cap (s : State) (p : Port) (f : IspCam → IspCam) : (updIsp s p f).cap = s.cap := rfl
@[simp] theorem updIsp_int (s : State) (p : Port) (f : IspCam → IspCam) : (updIsp s p f).int = s.int := rfl
@[simp] theorem updIsp_tst (s : State) (p : Port) (f : IspCam → IspCam) : (updIsp s p f).tst = s.tst := rfl
@[simp] theorem updIsp_supply (s : State) (p : Port) (f : IspCam → IspCam) : (updIsp s p f).supply = s.supply := rfl
@[simp] theorem updIsp_therm (s : State) (p : Port) (f : IspCam → IspCam) : (updIsp s p f).therm = s.therm := rfl
@[simp] theorem updIsp_recd (s : State) (p : Port) (f : IspCam → IspCam) : (updIsp s p f).recd = s.recd := rfl

/-! ### The adapter registers change (R289) -/

@[simp] theorem updAdpt_wng (s : State) (f : Adapter → Adapter) : (updAdpt s f).wng = { s.wng with adpt := f s.wng.adpt } := rfl
@[simp] theorem updAdpt_pending (s : State) (f : Adapter → Adapter) : (updAdpt s f).pending = s.pending := rfl
@[simp] theorem updAdpt_freeCtr (s : State) (f : Adapter → Adapter) : (updAdpt s f).freeCtr = s.freeCtr := rfl
@[simp] theorem updAdpt_c (s : State) (f : Adapter → Adapter) : (updAdpt s f).c = s.c := rfl
@[simp] theorem updAdpt_reg (s : State) (f : Adapter → Adapter) : (updAdpt s f).reg = s.reg := rfl
@[simp] theorem updAdpt_fuse (s : State) (f : Adapter → Adapter) : (updAdpt s f).fuse = s.fuse := rfl
@[simp] theorem updAdpt_nvm (s : State) (f : Adapter → Adapter) : (updAdpt s f).nvm = s.nvm := rfl
@[simp] theorem updAdpt_ret (s : State) (f : Adapter → Adapter) : (updAdpt s f).ret = s.ret := rfl
@[simp] theorem updAdpt_pins (s : State) (f : Adapter → Adapter) : (updAdpt s f).pins = s.pins := rfl
@[simp] theorem updAdpt_pwr (s : State) (f : Adapter → Adapter) : (updAdpt s f).pwr = s.pwr := rfl
@[simp] theorem updAdpt_sec (s : State) (f : Adapter → Adapter) : (updAdpt s f).sec = s.sec := rfl
@[simp] theorem updAdpt_start (s : State) (f : Adapter → Adapter) : (updAdpt s f).start = s.start := rfl
@[simp] theorem updAdpt_boot (s : State) (f : Adapter → Adapter) : (updAdpt s f).boot = s.boot := rfl
@[simp] theorem updAdpt_img (s : State) (f : Adapter → Adapter) : (updAdpt s f).img = s.img := rfl
@[simp] theorem updAdpt_imgNew (s : State) (f : Adapter → Adapter) : (updAdpt s f).imgNew = s.imgNew := rfl
@[simp] theorem updAdpt_esc (s : State) (f : Adapter → Adapter) : (updAdpt s f).esc = s.esc := rfl
@[simp] theorem updAdpt_phys (s : State) (f : Adapter → Adapter) : (updAdpt s f).phys = s.phys := rfl
@[simp] theorem updAdpt_lw (s : State) (f : Adapter → Adapter) : (updAdpt s f).lw = s.lw := rfl
@[simp] theorem updAdpt_mem (s : State) (f : Adapter → Adapter) : (updAdpt s f).mem = s.mem := rfl
@[simp] theorem updAdpt_sealer (s : State) (f : Adapter → Adapter) : (updAdpt s f).sealer = s.sealer := rfl
@[simp] theorem updAdpt_cam (s : State) (f : Adapter → Adapter) : (updAdpt s f).cam = s.cam := rfl
@[simp] theorem updAdpt_isp (s : State) (f : Adapter → Adapter) : (updAdpt s f).isp = s.isp := rfl
@[simp] theorem updAdpt_enc (s : State) (f : Adapter → Adapter) : (updAdpt s f).enc = s.enc := rfl
@[simp] theorem updAdpt_encStatus (s : State) (f : Adapter → Adapter) : (updAdpt s f).encStatus = s.encStatus := rfl
@[simp] theorem updAdpt_iio (s : State) (f : Adapter → Adapter) : (updAdpt s f).iio = s.iio := rfl
@[simp] theorem updAdpt_ejc (s : State) (f : Adapter → Adapter) : (updAdpt s f).ejc = s.ejc := rfl
@[simp] theorem updAdpt_net (s : State) (f : Adapter → Adapter) : (updAdpt s f).net = s.net := rfl
@[simp] theorem updAdpt_cap (s : State) (f : Adapter → Adapter) : (updAdpt s f).cap = s.cap := rfl
@[simp] theorem updAdpt_int (s : State) (f : Adapter → Adapter) : (updAdpt s f).int = s.int := rfl
@[simp] theorem updAdpt_tst (s : State) (f : Adapter → Adapter) : (updAdpt s f).tst = s.tst := rfl
@[simp] theorem updAdpt_supply (s : State) (f : Adapter → Adapter) : (updAdpt s f).supply = s.supply := rfl
@[simp] theorem updAdpt_therm (s : State) (f : Adapter → Adapter) : (updAdpt s f).therm = s.therm := rfl
@[simp] theorem updAdpt_recd (s : State) (f : Adapter → Adapter) : (updAdpt s f).recd = s.recd := rfl

/-! ### An encoder channel changes (R374) -/

@[simp] theorem updEnc_enc (s : State) (ch : EncCh) (f : Enc → Enc) : (updEnc s ch f).enc = s.enc.set ch (f s.enc[ch]) := rfl
@[simp] theorem updEnc_pending (s : State) (ch : EncCh) (f : Enc → Enc) : (updEnc s ch f).pending = s.pending := rfl
@[simp] theorem updEnc_freeCtr (s : State) (ch : EncCh) (f : Enc → Enc) : (updEnc s ch f).freeCtr = s.freeCtr := rfl
@[simp] theorem updEnc_c (s : State) (ch : EncCh) (f : Enc → Enc) : (updEnc s ch f).c = s.c := rfl
@[simp] theorem updEnc_reg (s : State) (ch : EncCh) (f : Enc → Enc) : (updEnc s ch f).reg = s.reg := rfl
@[simp] theorem updEnc_fuse (s : State) (ch : EncCh) (f : Enc → Enc) : (updEnc s ch f).fuse = s.fuse := rfl
@[simp] theorem updEnc_nvm (s : State) (ch : EncCh) (f : Enc → Enc) : (updEnc s ch f).nvm = s.nvm := rfl
@[simp] theorem updEnc_ret (s : State) (ch : EncCh) (f : Enc → Enc) : (updEnc s ch f).ret = s.ret := rfl
@[simp] theorem updEnc_pins (s : State) (ch : EncCh) (f : Enc → Enc) : (updEnc s ch f).pins = s.pins := rfl
@[simp] theorem updEnc_pwr (s : State) (ch : EncCh) (f : Enc → Enc) : (updEnc s ch f).pwr = s.pwr := rfl
@[simp] theorem updEnc_sec (s : State) (ch : EncCh) (f : Enc → Enc) : (updEnc s ch f).sec = s.sec := rfl
@[simp] theorem updEnc_start (s : State) (ch : EncCh) (f : Enc → Enc) : (updEnc s ch f).start = s.start := rfl
@[simp] theorem updEnc_boot (s : State) (ch : EncCh) (f : Enc → Enc) : (updEnc s ch f).boot = s.boot := rfl
@[simp] theorem updEnc_img (s : State) (ch : EncCh) (f : Enc → Enc) : (updEnc s ch f).img = s.img := rfl
@[simp] theorem updEnc_imgNew (s : State) (ch : EncCh) (f : Enc → Enc) : (updEnc s ch f).imgNew = s.imgNew := rfl
@[simp] theorem updEnc_esc (s : State) (ch : EncCh) (f : Enc → Enc) : (updEnc s ch f).esc = s.esc := rfl
@[simp] theorem updEnc_wng (s : State) (ch : EncCh) (f : Enc → Enc) : (updEnc s ch f).wng = s.wng := rfl
@[simp] theorem updEnc_phys (s : State) (ch : EncCh) (f : Enc → Enc) : (updEnc s ch f).phys = s.phys := rfl
@[simp] theorem updEnc_lw (s : State) (ch : EncCh) (f : Enc → Enc) : (updEnc s ch f).lw = s.lw := rfl
@[simp] theorem updEnc_mem (s : State) (ch : EncCh) (f : Enc → Enc) : (updEnc s ch f).mem = s.mem := rfl
@[simp] theorem updEnc_sealer (s : State) (ch : EncCh) (f : Enc → Enc) : (updEnc s ch f).sealer = s.sealer := rfl
@[simp] theorem updEnc_cam (s : State) (ch : EncCh) (f : Enc → Enc) : (updEnc s ch f).cam = s.cam := rfl
@[simp] theorem updEnc_isp (s : State) (ch : EncCh) (f : Enc → Enc) : (updEnc s ch f).isp = s.isp := rfl
@[simp] theorem updEnc_encStatus (s : State) (ch : EncCh) (f : Enc → Enc) : (updEnc s ch f).encStatus = s.encStatus := rfl
@[simp] theorem updEnc_iio (s : State) (ch : EncCh) (f : Enc → Enc) : (updEnc s ch f).iio = s.iio := rfl
@[simp] theorem updEnc_ejc (s : State) (ch : EncCh) (f : Enc → Enc) : (updEnc s ch f).ejc = s.ejc := rfl
@[simp] theorem updEnc_net (s : State) (ch : EncCh) (f : Enc → Enc) : (updEnc s ch f).net = s.net := rfl
@[simp] theorem updEnc_cap (s : State) (ch : EncCh) (f : Enc → Enc) : (updEnc s ch f).cap = s.cap := rfl
@[simp] theorem updEnc_int (s : State) (ch : EncCh) (f : Enc → Enc) : (updEnc s ch f).int = s.int := rfl
@[simp] theorem updEnc_tst (s : State) (ch : EncCh) (f : Enc → Enc) : (updEnc s ch f).tst = s.tst := rfl
@[simp] theorem updEnc_supply (s : State) (ch : EncCh) (f : Enc → Enc) : (updEnc s ch f).supply = s.supply := rfl
@[simp] theorem updEnc_therm (s : State) (ch : EncCh) (f : Enc → Enc) : (updEnc s ch f).therm = s.therm := rfl
@[simp] theorem updEnc_recd (s : State) (ch : EncCh) (f : Enc → Enc) : (updEnc s ch f).recd = s.recd := rfl

/-! ### An Ethernet port changes (R458) -/

@[simp] theorem updEth_net (s : State) (e : EthPort) (f : EthSt → EthSt) : (updEth s e f).net = { s.net with port := s.net.port.set e (f s.net.port[e]) } := rfl
@[simp] theorem updEth_pending (s : State) (e : EthPort) (f : EthSt → EthSt) : (updEth s e f).pending = s.pending := rfl
@[simp] theorem updEth_freeCtr (s : State) (e : EthPort) (f : EthSt → EthSt) : (updEth s e f).freeCtr = s.freeCtr := rfl
@[simp] theorem updEth_c (s : State) (e : EthPort) (f : EthSt → EthSt) : (updEth s e f).c = s.c := rfl
@[simp] theorem updEth_reg (s : State) (e : EthPort) (f : EthSt → EthSt) : (updEth s e f).reg = s.reg := rfl
@[simp] theorem updEth_fuse (s : State) (e : EthPort) (f : EthSt → EthSt) : (updEth s e f).fuse = s.fuse := rfl
@[simp] theorem updEth_nvm (s : State) (e : EthPort) (f : EthSt → EthSt) : (updEth s e f).nvm = s.nvm := rfl
@[simp] theorem updEth_ret (s : State) (e : EthPort) (f : EthSt → EthSt) : (updEth s e f).ret = s.ret := rfl
@[simp] theorem updEth_pins (s : State) (e : EthPort) (f : EthSt → EthSt) : (updEth s e f).pins = s.pins := rfl
@[simp] theorem updEth_pwr (s : State) (e : EthPort) (f : EthSt → EthSt) : (updEth s e f).pwr = s.pwr := rfl
@[simp] theorem updEth_sec (s : State) (e : EthPort) (f : EthSt → EthSt) : (updEth s e f).sec = s.sec := rfl
@[simp] theorem updEth_start (s : State) (e : EthPort) (f : EthSt → EthSt) : (updEth s e f).start = s.start := rfl
@[simp] theorem updEth_boot (s : State) (e : EthPort) (f : EthSt → EthSt) : (updEth s e f).boot = s.boot := rfl
@[simp] theorem updEth_img (s : State) (e : EthPort) (f : EthSt → EthSt) : (updEth s e f).img = s.img := rfl
@[simp] theorem updEth_imgNew (s : State) (e : EthPort) (f : EthSt → EthSt) : (updEth s e f).imgNew = s.imgNew := rfl
@[simp] theorem updEth_esc (s : State) (e : EthPort) (f : EthSt → EthSt) : (updEth s e f).esc = s.esc := rfl
@[simp] theorem updEth_wng (s : State) (e : EthPort) (f : EthSt → EthSt) : (updEth s e f).wng = s.wng := rfl
@[simp] theorem updEth_phys (s : State) (e : EthPort) (f : EthSt → EthSt) : (updEth s e f).phys = s.phys := rfl
@[simp] theorem updEth_lw (s : State) (e : EthPort) (f : EthSt → EthSt) : (updEth s e f).lw = s.lw := rfl
@[simp] theorem updEth_mem (s : State) (e : EthPort) (f : EthSt → EthSt) : (updEth s e f).mem = s.mem := rfl
@[simp] theorem updEth_sealer (s : State) (e : EthPort) (f : EthSt → EthSt) : (updEth s e f).sealer = s.sealer := rfl
@[simp] theorem updEth_cam (s : State) (e : EthPort) (f : EthSt → EthSt) : (updEth s e f).cam = s.cam := rfl
@[simp] theorem updEth_isp (s : State) (e : EthPort) (f : EthSt → EthSt) : (updEth s e f).isp = s.isp := rfl
@[simp] theorem updEth_enc (s : State) (e : EthPort) (f : EthSt → EthSt) : (updEth s e f).enc = s.enc := rfl
@[simp] theorem updEth_encStatus (s : State) (e : EthPort) (f : EthSt → EthSt) : (updEth s e f).encStatus = s.encStatus := rfl
@[simp] theorem updEth_iio (s : State) (e : EthPort) (f : EthSt → EthSt) : (updEth s e f).iio = s.iio := rfl
@[simp] theorem updEth_ejc (s : State) (e : EthPort) (f : EthSt → EthSt) : (updEth s e f).ejc = s.ejc := rfl
@[simp] theorem updEth_cap (s : State) (e : EthPort) (f : EthSt → EthSt) : (updEth s e f).cap = s.cap := rfl
@[simp] theorem updEth_int (s : State) (e : EthPort) (f : EthSt → EthSt) : (updEth s e f).int = s.int := rfl
@[simp] theorem updEth_tst (s : State) (e : EthPort) (f : EthSt → EthSt) : (updEth s e f).tst = s.tst := rfl
@[simp] theorem updEth_supply (s : State) (e : EthPort) (f : EthSt → EthSt) : (updEth s e f).supply = s.supply := rfl
@[simp] theorem updEth_therm (s : State) (e : EthPort) (f : EthSt → EthSt) : (updEth s e f).therm = s.therm := rfl
@[simp] theorem updEth_recd (s : State) (e : EthPort) (f : EthSt → EthSt) : (updEth s e f).recd = s.recd := rfl

/-! ### A peer changes (R487) -/

@[simp] theorem updPeer_net (s : State) (p : Fin 16) (f : Peer → Peer) : (updPeer s p f).net = { s.net with peers := s.net.peers.set p (f s.net.peers[p]) } := rfl
@[simp] theorem updPeer_pending (s : State) (p : Fin 16) (f : Peer → Peer) : (updPeer s p f).pending = s.pending := rfl
@[simp] theorem updPeer_freeCtr (s : State) (p : Fin 16) (f : Peer → Peer) : (updPeer s p f).freeCtr = s.freeCtr := rfl
@[simp] theorem updPeer_c (s : State) (p : Fin 16) (f : Peer → Peer) : (updPeer s p f).c = s.c := rfl
@[simp] theorem updPeer_reg (s : State) (p : Fin 16) (f : Peer → Peer) : (updPeer s p f).reg = s.reg := rfl
@[simp] theorem updPeer_fuse (s : State) (p : Fin 16) (f : Peer → Peer) : (updPeer s p f).fuse = s.fuse := rfl
@[simp] theorem updPeer_nvm (s : State) (p : Fin 16) (f : Peer → Peer) : (updPeer s p f).nvm = s.nvm := rfl
@[simp] theorem updPeer_ret (s : State) (p : Fin 16) (f : Peer → Peer) : (updPeer s p f).ret = s.ret := rfl
@[simp] theorem updPeer_pins (s : State) (p : Fin 16) (f : Peer → Peer) : (updPeer s p f).pins = s.pins := rfl
@[simp] theorem updPeer_pwr (s : State) (p : Fin 16) (f : Peer → Peer) : (updPeer s p f).pwr = s.pwr := rfl
@[simp] theorem updPeer_sec (s : State) (p : Fin 16) (f : Peer → Peer) : (updPeer s p f).sec = s.sec := rfl
@[simp] theorem updPeer_start (s : State) (p : Fin 16) (f : Peer → Peer) : (updPeer s p f).start = s.start := rfl
@[simp] theorem updPeer_boot (s : State) (p : Fin 16) (f : Peer → Peer) : (updPeer s p f).boot = s.boot := rfl
@[simp] theorem updPeer_img (s : State) (p : Fin 16) (f : Peer → Peer) : (updPeer s p f).img = s.img := rfl
@[simp] theorem updPeer_imgNew (s : State) (p : Fin 16) (f : Peer → Peer) : (updPeer s p f).imgNew = s.imgNew := rfl
@[simp] theorem updPeer_esc (s : State) (p : Fin 16) (f : Peer → Peer) : (updPeer s p f).esc = s.esc := rfl
@[simp] theorem updPeer_wng (s : State) (p : Fin 16) (f : Peer → Peer) : (updPeer s p f).wng = s.wng := rfl
@[simp] theorem updPeer_phys (s : State) (p : Fin 16) (f : Peer → Peer) : (updPeer s p f).phys = s.phys := rfl
@[simp] theorem updPeer_lw (s : State) (p : Fin 16) (f : Peer → Peer) : (updPeer s p f).lw = s.lw := rfl
@[simp] theorem updPeer_mem (s : State) (p : Fin 16) (f : Peer → Peer) : (updPeer s p f).mem = s.mem := rfl
@[simp] theorem updPeer_sealer (s : State) (p : Fin 16) (f : Peer → Peer) : (updPeer s p f).sealer = s.sealer := rfl
@[simp] theorem updPeer_cam (s : State) (p : Fin 16) (f : Peer → Peer) : (updPeer s p f).cam = s.cam := rfl
@[simp] theorem updPeer_isp (s : State) (p : Fin 16) (f : Peer → Peer) : (updPeer s p f).isp = s.isp := rfl
@[simp] theorem updPeer_enc (s : State) (p : Fin 16) (f : Peer → Peer) : (updPeer s p f).enc = s.enc := rfl
@[simp] theorem updPeer_encStatus (s : State) (p : Fin 16) (f : Peer → Peer) : (updPeer s p f).encStatus = s.encStatus := rfl
@[simp] theorem updPeer_iio (s : State) (p : Fin 16) (f : Peer → Peer) : (updPeer s p f).iio = s.iio := rfl
@[simp] theorem updPeer_ejc (s : State) (p : Fin 16) (f : Peer → Peer) : (updPeer s p f).ejc = s.ejc := rfl
@[simp] theorem updPeer_cap (s : State) (p : Fin 16) (f : Peer → Peer) : (updPeer s p f).cap = s.cap := rfl
@[simp] theorem updPeer_int (s : State) (p : Fin 16) (f : Peer → Peer) : (updPeer s p f).int = s.int := rfl
@[simp] theorem updPeer_tst (s : State) (p : Fin 16) (f : Peer → Peer) : (updPeer s p f).tst = s.tst := rfl
@[simp] theorem updPeer_supply (s : State) (p : Fin 16) (f : Peer → Peer) : (updPeer s p f).supply = s.supply := rfl
@[simp] theorem updPeer_therm (s : State) (p : Fin 16) (f : Peer → Peer) : (updPeer s p f).therm = s.therm := rfl
@[simp] theorem updPeer_recd (s : State) (p : Fin 16) (f : Peer → Peer) : (updPeer s p f).recd = s.recd := rfl

/-! ### One element of an array after an update -/

theorem updPhys_same (s : State) (p : PWing) (f : Phys → Phys) : (updPhys s p f).phys[p] = f s.phys[p] := by simp [updPhys]
theorem updPhys_other (s : State) (p : PWing) (f : Phys → Phys) (q : PWing) (h : q ≠ p) : (updPhys s p f).phys[q] = s.phys[q] := by
  simpa [updPhys] using Vector.getElem_set_ne _ _ fun e => h (Fin.ext e.symm)
theorem updLw_same (s : State) (k : LWing) (f : LogWing → LogWing) : (updLw s k f).lw[k] = f s.lw[k] := by simp [updLw]
theorem updLw_other (s : State) (k : LWing) (f : LogWing → LogWing) (q : LWing) (h : q ≠ k) : (updLw s k f).lw[q] = s.lw[q] := by
  simpa [updLw] using Vector.getElem_set_ne _ _ fun e => h (Fin.ext e.symm)
theorem updPort_same (s : State) (p : Port) (f : CamPort → CamPort) : (updPort s p f).cam.port[p] = f s.cam.port[p] := by simp [updPort]
theorem updPort_other (s : State) (p : Port) (f : CamPort → CamPort) (q : Port) (h : q ≠ p) : (updPort s p f).cam.port[q] = s.cam.port[q] := by
  simpa [updPort] using Vector.getElem_set_ne _ _ fun e => h (Fin.ext e.symm)
theorem updIsp_same (s : State) (p : Port) (f : IspCam → IspCam) : (updIsp s p f).isp.cam[p] = f s.isp.cam[p] := by simp [updIsp]
theorem updIsp_other (s : State) (p : Port) (f : IspCam → IspCam) (q : Port) (h : q ≠ p) : (updIsp s p f).isp.cam[q] = s.isp.cam[q] := by
  simpa [updIsp] using Vector.getElem_set_ne _ _ fun e => h (Fin.ext e.symm)
theorem updEnc_same (s : State) (ch : EncCh) (f : Enc → Enc) : (updEnc s ch f).enc[ch] = f s.enc[ch] := by simp [updEnc]
theorem updEnc_other (s : State) (ch : EncCh) (f : Enc → Enc) (q : EncCh) (h : q ≠ ch) : (updEnc s ch f).enc[q] = s.enc[q] := by
  simpa [updEnc] using Vector.getElem_set_ne _ _ fun e => h (Fin.ext e.symm)
theorem updEth_same (s : State) (e : EthPort) (f : EthSt → EthSt) : (updEth s e f).net.port[e] = f s.net.port[e] := by simp [updEth]
theorem updEth_other (s : State) (e : EthPort) (f : EthSt → EthSt) (q : EthPort) (h : q ≠ e) : (updEth s e f).net.port[q] = s.net.port[q] := by
  simpa [updEth] using Vector.getElem_set_ne _ _ fun e => h (Fin.ext e.symm)
theorem updPeer_same (s : State) (p : Fin 16) (f : Peer → Peer) : (updPeer s p f).net.peers[p] = f s.net.peers[p] := by simp [updPeer]
theorem updPeer_other (s : State) (p : Fin 16) (f : Peer → Peer) (q : Fin 16) (h : q ≠ p) : (updPeer s p f).net.peers[q] = s.net.peers[q] := by
  simpa [updPeer] using Vector.getElem_set_ne _ _ fun e => h (Fin.ext e.symm)

end Sys2Proof.Machine
end

