-- ==== Sys2Proof/Machine/Package.lean ====
section
/-! DEFINITION. The package: rows and regions of the ball grid, the ball of every signal, the rails with their balls and limits, the
levels that the D8 drives on its pins, and the lid limit (R585-R589, R591, R592, R599). -/

namespace Sys2Proof.Machine

open Sys2Proof

/-! ### Rows and regions (R585, R586) -/

def rowLetters : List Char := ['A', 'B', 'C', 'D', 'E', 'F', 'G', 'H', 'J', 'K', 'L', 'M', 'N', 'P', 'T', 'U', 'V', 'W', 'Y']

/-- The letters of row i, 1 to 70: rows past 19 carry the prefix A, B or C. -/
def rowName (i : Nat) : List Char :=
  ([[], ['A'], ['B'], ['C']].getD ((i - 1) / 19) []) ++ [rowLetters.getD ((i - 1) % 19) 'A']

/-- The index of a row from its letters (R585). -/
def rowIndex : List Char → Option Nat
  | [c] => if rowLetters.contains c then some (rowLetters.idxOf c + 1) else none
  | [p, c] => if ['A', 'B', 'C'].contains p && rowLetters.contains c then some (19 * (['A', 'B', 'C'].idxOf p + 1) + rowLetters.idxOf c + 1) else none
  | _ => none

inductive Region where
  | serdes | lvcmos | annexSupply | coreSupply | memSupply | lpddr
  deriving DecidableEq, Repr

/-- The region of a row (R586). -/
def rowRegion (i : Nat) : Region :=
  if i ≤ 4 then .serdes else if i ≤ 8 then .lvcmos else if i ≤ 17 then .annexSupply else if i ≤ 44 then .coreSupply
  else if i ≤ 51 then .memSupply else .lpddr

/-- Rows of a region: the first, and how many. -/
def regionRows : Region → Nat × Nat
  | .serdes => (1, 4) | .lvcmos => (5, 4) | .annexSupply => (9, 9) | .coreSupply => (18, 27) | .memSupply => (45, 7) | .lpddr => (52, 19)

/-! ### Signals (R588) -/

/-- The pin groups in fill order. -/
inductive PinGroup where
  | cxl | eth | ufs | sysRefclk | ethRefclk
  | resets | therm | boot | emmc | ufsControl | ethControl | avs | vsense | crn | pocxp | enc | vsl | iio
  | mem
  deriving DecidableEq, Repr

/-- A signal: its group, its index in the group and its place in the order of the group's row. -/
structure Signal where
  group : PinGroup
  index : Nat := 0
  line  : Nat := 0
  deriving DecidableEq, Repr

/-- What takes balls together: a signal, or the two of a pair. -/
abbrev PinUnit := Signal × Option Signal

def singles (g : PinGroup) (i from' n : Nat) : List PinUnit := (List.range n).map fun j => ({ group := g, index := i, line := from' + j }, none)
def pairs (g : PinGroup) (i from' n : Nat) : List PinUnit :=
  (List.range n).map fun j => ({ group := g, index := i, line := from' + 2 * j }, some { group := g, index := i, line := from' + 2 * j + 1 })

/-- Pairs and single signals of the SerDes region. -/
def serdesUnits : List PinUnit :=
  ((List.range 32).flatMap fun i => pairs .cxl i 0 2) ++ ((List.range 2).flatMap fun i => pairs .eth i 0 2) ++ pairs .ufs 0 0 4 ++
    pairs .sysRefclk 0 0 1 ++ pairs .ethRefclk 0 0 1

/-- Of the LVCMOS region; the two sense lines are pairs. -/
def lvcmosUnits : List PinUnit :=
  singles .resets 0 0 3 ++ singles .therm 0 0 1 ++ singles .boot 0 0 14 ++ singles .emmc 0 0 12 ++ singles .ufsControl 0 0 2 ++
    ((List.range 2).flatMap fun i => singles .ethControl i 0 3) ++ singles .avs 0 0 3 ++ pairs .vsense 0 0 2 ++ singles .crn 0 0 2 ++
    ((List.range 16).flatMap fun i => singles .pocxp i 0 1) ++ ((List.range 4).flatMap fun i => singles .enc i 0 7) ++
    ((List.range 4).flatMap fun i => singles .vsl i 0 3) ++ ((List.range 64).flatMap fun i => singles .iio i 0 2)

/-- Of the LPDDR region: the 38 signals of each channel in their order. A pair of R587 is what R588 writes as one, P/N: with the strobes and
clocks taken as pairs, the 1,216 signals would not fit (log entry 111). -/
def lpddrUnits : List PinUnit := (List.range 32).flatMap fun i => singles .mem i 0 38

/-! ### Balls (R587) -/

structure Ball where
  row : Nat
  col : Nat
  deriving DecidableEq, Repr

inductive BallUse where
  | signal (x : Signal) | supply (r : Rail) | vss
  deriving DecidableEq, Repr

/-- The balls of a region in row-major order. -/
def regionBalls (g : Region) : List Ball :=
  (List.range (regionRows g).2).flatMap fun i => (List.range 70).map fun c => { row := (regionRows g).1 + i, col := c + 1 }

/-- Pair after pair over the free balls: a SerDes row has 23 pairs, pair j in columns 3j − 1 and 3j. -/
def serdesMap : List (Ball × Signal) :=
  serdesUnits.zipIdx.flatMap fun u => ((u.1.1 :: u.1.2.toList).zipIdx).map fun x => ({ row := 1 + u.2 / 23, col := 3 * (u.2 % 23 + 1) - 1 + x.2 }, x.1)

/-- Units take free balls in order; a pair skips a ball whose neighbour is not free. -/
def fillBalls : List Ball → List PinUnit → List (Ball × Signal)
  | b :: bs, (x, none) :: us => (b, x) :: fillBalls bs us
  | b :: c :: bs, (x, some y) :: us =>
    if c.row = b.row ∧ c.col = b.col + 1 then (b, x) :: (c, y) :: fillBalls bs us else fillBalls (c :: bs) ((x, some y) :: us)
  | _, _ => []

/-- The balls that signals may take in the LVCMOS and LPDDR regions: every fourteenth column is VSS. -/
def signalBalls (g : Region) : List Ball := (regionBalls g).filter fun b => b.col % 14 != 0

def lvcmosMap : List (Ball × Signal) := fillBalls (signalBalls .lvcmos) lvcmosUnits
def lpddrMap : List (Ball × Signal) := fillBalls (signalBalls .lpddr) lpddrUnits

/-- Rails of a supply region with their counts of balls, in the order of R591. -/
def regionRails : Region → List (Rail × Nat)
  | .annexSupply => [(.vddSd, 80), (.vddhSd, 40), (.vddA, 96), (.vddRet, 4), (.vddIo18, 48), (.vddIo33, 24), (.vddAn, 8)]
  | .coreSupply => [(.vddG, 120), (.vddW, 800)]
  | .memSupply => [(.vdd2hM, 96), (.vddqM, 128)]
  | _ => []

/-- The even balls of a supply region with the rails that take them. -/
def supplyMap (g : Region) : List (Ball × Rail) :=
  ((regionBalls g).filter fun b => (b.row + b.col) % 2 == 0).zip ((regionRails g).flatMap fun r => List.replicate r.2 r.1)

/-- What a ball carries. -/
def ballUse (b : Ball) : BallUse :=
  let sig := fun (l : List (Ball × Signal)) => match l.find? fun x => x.1 == b with | some x => BallUse.signal x.2 | none => .vss
  match rowRegion b.row with
  | .serdes => sig serdesMap
  | .lvcmos => sig lvcmosMap
  | .lpddr => sig lpddrMap
  | g => match (supplyMap g).find? fun x => x.1 == b with | some x => .supply x.2 | none => .vss

/-! ### Levels on the pins (R589) -/

/-- What stands on a pin that the D8 may drive. -/
inductive PinDrive where
  | highZ | idle | off | low | high
  /-- Driven, or received, as the unit that owns the pin does. -/
  | active
  deriving DecidableEq, Repr

def driven (b : Bool) : PinDrive := if b then .high else .low

/-- A lane of the camera ports is in use (R299). -/
def cxlDrive (s : State) (i : Nat) (tx : Bool) : PinDrive := match vGet? s.cam.lane i with
  | some x => if (if tx then x.tx else x.rx != 0) then .active else .off
  | none => .off

/-- Signals that the D8 drives: in a CXL or ETH group the transmit pair, of the other groups what R588 lists as an output. -/
def isOutput (x : Signal) : Bool := match x.group with
  | .cxl => decide (2 ≤ x.line)
  | .eth => decide (x.line < 2)
  | .ufs => decide (x.line < 4)
  | .sysRefclk | .ethRefclk | .resets | .vsense => false
  | .boot => decide (2 ≤ x.line)
  | .avs => decide (x.line < 2)
  | .crn => x.line == 0
  | .enc => x.line == 3
  | .iio => x.line == 1
  | .therm | .emmc | .ufsControl | .ethControl | .pocxp | .vsl | .mem => true

/-- What the D8 drives on a signal: nothing but SYS_THERM_N and idle transmitters in a device reset, and afterwards what its unit says. -/
def pinDrive (s : State) (x : Signal) : PinDrive :=
  if x.group = .therm then (if s.pins.thermLow then .low else .highZ)
  else if s.pwr.held then (if (x.group = .cxl ∨ x.group = .eth ∨ x.group = .ufs) ∧ isOutput x then .idle else .highZ)
  else match x.group with
    | .cxl => cxlDrive s x.index (decide (2 ≤ x.line))
    | .pocxp => match vGet? s.cam.port x.index with
      | some p => match p.enable with
        | some e => driven e
        | none => .highZ
      | none => .highZ
    | .ethControl => if x.line = 2 then (match vGet? s.pins.ethRst x.index with | some r => if r then .high else .highZ | none => .highZ) else .active
    | .iio => if x.line = 1 then (if h : x.index < 64 then driven (outLevel s ⟨x.index, h⟩) else .highZ) else .highZ
    | .mem => if s.sec.phase = 0 then .highZ else .active
    | _ => if isOutput x || x.group == .eth || x.group == .ufs then .active else .highZ

/-! ### Limits (R591, R592, R599) -/

/-- Current of a rail at most, in mA (R591). -/
def railMa : Rail → Nat
  | .vddSd => 20000 | .vddhSd => 4000 | .vddA => 45000 | .vddRet => 500 | .vddIo18 => 1500 | .vddIo33 => 500 | .vddAn => 300
  | .vddG => 40000 | .vddW => 320000 | .vdd2hM => 12000 | .vddqM => 10000

/-- A voltage in mV lies in the operating limits of a rail: 3 % on either side of the nominal value (R591). -/
def railInRange (s : State) (r : Rail) (mv : Nat) : Bool := decide (97 * railMv s r ≤ 100 * mv ∧ 100 * mv ≤ 103 * railMv s r)

/-- A voltage lies below the warning level, or the reset level, of the monitors, at their typical thresholds (R592). -/
def belowWarning (s : State) (r : Rail) (mv : Nat) : Bool := decide (100 * mv < 95 * railMv s r)
def belowReset (s : State) (r : Rail) (mv : Nat) : Bool := decide (100 * mv < 91 * railMv s r)

/-- The highest lid temperature in units of 0.1 °C: the grade's maximum less 0.08 °C/W × 240 W (R599). -/
def lidLimit (s : State) : Int := tjMax s * 10 / 8 - 192

end Sys2Proof.Machine
end

