-- ==== Sys2Proof/Tests/Slice0.lean ====
section
/-! SUPPORT. Tests of the model: an ill-formed command for each check, examples that the manual works out, and for every obligation
with hypotheses a witness, a state and operands that meet the hypotheses of each of its clauses together. -/

open Sys2Proof Sys2Proof.Machine

namespace Sys2Proof.Tests

set_option Elab.async false

/-- The state after a command. -/
def run (i : Instr) (s : State) : State := match exec i s with
  | .next t => t
  | _ => s

/-- A device out of reset in a phase of the start. -/
def atPhase (n : Nat) : State := { State.reset with pins := { porst := true }, pwr := { held := false }, sec := { phase := n } }

/-- A device that was declared ready. -/
def up : State := atPhase 6

def secure : Acc := { who := .host 0, session := true }
def plain : Acc := { who := .host 1 }
def onCrown : Acc := { who := .crown }

/-! ### Records written out byte by byte from the layouts of R256, R263, R302 and R305 -/

def cmdBytes (c : Cmd) : List Byte :=
  leBytes 1 c.opcode ++ leBytes 1 c.flags ++ leBytes 1 c.waitTok ++ leBytes 1 c.sigTok ++ leBytes 2 c.waitVal ++ leBytes 2 c.job ++
  leBytes 4 c.wcc ++ leBytes 4 c.slot ++ c.opnd.flatMap (leBytes 2) ++ c.param.flatMap (leBytes 4)

def descBytes (d : Desc) : List Byte :=
  leBytes 8 d.addr ++ leBytes 1 d.space ++ leBytes 1 (d.fmt + 16 * d.layout) ++
  leBytes 1 ((if d.scaled then 1 else 0) + 2 * d.vsel + (if d.adp then 8 else 0) + 16 * (d.resv % 16)) ++ leBytes 1 (d.resv / 16) ++
  leBytes 4 d.d0 ++ leBytes 4 d.d1 ++ leBytes 2 d.d2 ++ leBytes 2 d.d3 ++ leBytes 4 d.pitch ++ leBytes 2 d.scaleIdx ++ leBytes 2 d.region

def stepBytes (x : SetupStep) : List Byte :=
  leBytes 1 x.op ++ leBytes 1 (x.width + 4 * (x.resv % 64)) ++ leBytes 2 (x.resv / 64) ++ leBytes 4 x.addr ++ leBytes 4 x.value ++ leBytes 4 x.mask

def camBytes (c : CamEntry) : List Byte :=
  let flag := fun (b : Bool) (n : Nat) => if b then n else 0
  leBytes 1 c.port ++ leBytes 1 (c.laneBase + 32 * c.laneCount) ++ leBytes 1 c.speed ++
  leBytes 1 (flag c.required 1 + flag c.hsUplink 2 + flag c.adaptive 4 + flag c.pocxp 8 + flag c.faultUsed 16 + 32 * (c.resv % 8)) ++
  leBytes 1 c.peak ++ leBytes 1 c.lockGroup ++ leBytes 1 c.faultIn ++ leBytes 1 c.relinkMax ++ leBytes 4 c.pfnc ++ leBytes 4 c.hdrCode ++
  leBytes 4 c.hdrMask ++ leBytes 4 c.width ++ leBytes 4 c.streamId ++ leBytes 2 c.hbTimeout ++ leBytes 2 c.pwrDelay ++ leBytes 4 c.seqOff ++
  leBytes 2 c.seq.length ++ leBytes 2 c.minRev ++ leBytes 24 (c.resv / 8)

/-- An MM of R256 and a descriptor of R263 at their offsets: opcode 0x10 at 0, a wait for token 5 at 2, job 0x0102 at 6, operand C at 20. -/
theorem test_command_layout :
    let c := cmdOf ([0x10, 6, 5, 9, 2, 0, 2, 1, 8, 0, 0, 0, 100, 0, 0, 0, 1, 0, 2, 0, 3, 0] ++ List.replicate 10 255 ++ [7, 0, 0, 128] ++ List.replicate 28 0)
    c.opcode = 0x10 ∧ c.waitTok = 5 ∧ c.sigTok = 9 ∧ c.waitVal = 2 ∧ c.job = 258 ∧ c.wcc = 8 ∧ c.slot = 100 ∧
    c.opnd = [1, 2, 3, 65535, 65535, 65535, 65535, 65535] ∧ c.param = [0x80000007, 0, 0, 0, 0, 0, 0, 0] := by decide +kernel

/-- Format and layout share byte 9 of a descriptor; scaled, vsel and adp share byte 10 (R263). -/
theorem test_descriptor_layout :
    descOf ([0, 2, 0, 0, 0, 0, 0, 0, 1, 0x1B, 0x0D, 0, 3, 1, 0, 0, 4, 0, 0, 0, 5, 0, 6, 0, 32, 3, 0, 0, 7, 0, 8, 0]) =
      { addr := 512, space := 1, fmt := 11, layout := 1, scaled := true, vsel := 2, adp := true, d0 := 259, d1 := 4, d2 := 5, d3 := 6
        pitch := 800, scaleIdx := 7, region := 8 } := by decide +kernel

/-! ### Ill-formed commands are refused by each check -/

theorem test_gate_memory_is_bounded : Instr.wf (.bringupGatePass { gib := 31 }) = false := by decide
theorem test_startup_has_eight_results : Instr.wf (.startupTestComplete { wings := List.replicate 9 .pass }) = false := by decide
theorem test_header_fields_are_words : Instr.wf (.imageHeader 0 { fmt := 2 ^ 32, width := 1 }) = false := by decide
theorem test_eye_scan_counts_samples : Instr.wf (.eyeScanDone 0 0 4097 0) = false := by decide
theorem test_adc_sample_is_signed_16 : Instr.wf (.sincosSample 0 32768 0 0) = false := by decide
theorem test_read_block_has_a_word : Instr.wf (.mgmtReadBlock { host := 0 } 0) = false := by decide
theorem test_write_block_has_64_words : Instr.wf (.mgmtWriteBlock { host := 0 } (List.replicate 65 0)) = false := by decide
theorem test_line_payload_is_bounded : Instr.wf (.lineData 0 0 (List.replicate 1365 0) 0) = false := by decide +kernel
theorem test_chunk_is_bounded : Instr.wf (.imgData 0 0 (List.replicate 1281 0)) = false := by decide +kernel
theorem test_offer_digest_is_32_bytes : Instr.wf (.imgOffer 0 1 1280 []) = false := by decide
theorem test_crown_key_slot : Instr.wf (.crownKey 8 false 0 (List.replicate 32 0)) = false := by decide
theorem test_crown_read_counts_words : Instr.wf (.crownRd 0 65) = false := by decide
theorem test_crown_log_counts_records : Instr.wf (.crownLog 8193) = false := by decide

/-! ### The manual's own examples and tables -/

/-- 03_number_formats.md, the example after R114: FP32 300, 464, 465 and −0.001 as E4M3 under RNE, saturating and not, and RTZ. -/
theorem test_e4m3_conversions :
    ([0x43960000, 0x43E80000, 0x43E88000, 0xBA83126F].map fun x =>
      let v := decodeVal .fp32 x
      [encodeVal .e4m3 true .rne v, encodeVal .e4m3 false .rne v, encodeVal .e4m3 true .rtz v]) =
    [[0x79, 0x79, 0x79], [0x7E, 0x7E, 0x7E], [0x7E, 0x7F, 0x7E], [0x81, 0x81, 0x80]] := by decide +kernel

/-- 03_number_formats.md, the example of R116: 0x3F80C000 to BF16 under SR with u = 10,879 and u = 20,480, and under RNE. -/
theorem test_stochastic_rounding :
    ([Rnd.sr 10879, Rnd.sr 20480, Rnd.rne].map fun r => encodeVal .bf16 true r (decodeVal .fp32 0x3F80C000)) = [0x3F80, 0x3F81, 0x3F81] := by
  decide +kernel

/-- 03_number_formats.md, the example of R121: the Barrel keeps 2^−32 beside two products that cancel. -/
theorem test_barrel_keeps_small_terms :
    encodeVal .fp32 false .rne ((([(0x7B, 0x7B), (0x7B, 0xFB), (0x01, 0x01)] : List (Nat × Nat)).foldl
      (fun b x => b.addVal (vMul (decodeVal .e5m2 x.1) (decodeVal .e5m2 x.2))) ({} : Barrel)).val) = 0x2F800000 := by decide +kernel

/-- 03_number_formats.md, the example of R128: a Mono12p line that begins 0xA5, 0x3C, 0x7E. -/
theorem test_mono12p : unpack ⟨12, 12, .mono⟩ 2 [0xA5, 0x3C, 0x7E] = [0x0CA5, 0x07E3] := by decide +kernel

/-- 09_image_pipeline_and_objects.md, the example of R349: with o = 40 and g = 16,448 a sample of 2,800 gives 2,771, with g = 16,384 it
gives 2,760. -/
theorem test_flat_field :
    ([16448, 16384].map fun g => stage3 ⟨12, 16, .mono⟩ { offsets := [40], gains := [g] } 0 [2800]) = [[2771], [2760]] := by decide +kernel

/-- 09_image_pipeline_and_objects.md, the example of R365: "LOT-A12" tokenizes to 301, 303 and 50. -/
theorem test_tokenizer :
    tokenize [(300, [76, 79, 84]), (301, [76, 79, 84, 45]), (302, [45, 65]), (303, [65, 49])] 7 [76, 79, 84, 45, 65, 49, 50] = [301, 303, 50] := by
  decide +kernel

/-- 10_encoders_io_and_ejectors.md, the example of R374: the counts and the direction after the raw steps. -/
theorem test_direction_rule :
    let steps : List Int := [1, 1, -1, 1, -1, -1, -1]
    ((List.range 8).map fun n => (((steps.take n).foldl encStep { count := 100, fwd := true }).count.toNat)) =
      [100, 101, 102, 102, 102, 102, 101, 100] := by decide +kernel

/-- 15_management_space.md, the example of R577: a LO word read before an edge keeps its HI word. -/
theorem test_capture_keeps_hi_word :
    let s : State := { up with esc := { up.esc with beat := 0xFFFFFFFF } }
    let x := readWord s (.host 0) 0x10110
    let t : State := { x.2 with esc := { up.esc with beat := 0x100000000 } }
    x.1 = some 0xFFFFFFFF ∧ (readWord t (.host 0) 0x10114).1 = some 0 ∧ (readWord t (.host 1) 0x10114).1 = some 1 := by decide +kernel

/-! ### Witnesses of the obligations -/

def queued : State := { atPhase 1 with pending := [.crownId, .ready] }

/-- A state and operands that meet the hypotheses of Obligations.FrontRuns. -/
theorem witness_frontRuns :
    (queued.pending = .crownId :: [.ready]) := by
  decide +kernel

/-- A state and operands that meet the hypotheses of Obligations.EmptyQueueTicks. -/
theorem witness_emptyQueueTicks :
    (State.reset.pending = []) := by
  decide +kernel

/-- A state and operands that meet the hypotheses of Obligations.StepKeepsTime. -/
theorem witness_stepKeepsTime :
    (queued.c < 2 ^ 64 ∧ (match step queued with | .next _ => true | _ => false) = true) := by
  decide +kernel

/-- A state and operands that meet the hypotheses of Obligations.StepMovesFusesOneWay. -/
theorem witness_stepMovesFusesOneWay :
    (queued.fuse = queued.fuse ∧ (match step queued with | .next _ => true | _ => false) = true) := by
  decide +kernel

/-- A state and operands that meet the hypotheses of Obligations.MemoryCanonical. -/
theorem witness_memoryCanonical :
    (Memory.wf [(3, 1), (7, 255)] = true) := by
  decide +kernel

/-- A state and operands that meet the hypotheses of Obligations.CounterTime. -/
theorem witness_counterTime :
    (State.reset.c < 2 ^ 64 ∧ State.reset.reg.a = 0 ∧ State.reset.reg.ck = 0 ∧ State.reset.reg.o = 0) := by
  decide +kernel

def ev : Ev := { code := 0x0201, arg := [1, 2] }
def full : State := { up with recd := { live := List.replicate 8192 default } }
def limited : State := { up with recd := { mode := true, buckets := [((0x0201, 0), 0, 0, 3)] } }

def fullTold : State := { full with recd := { full.recd with fullAlarm := true } }

/-- A state and operands that meet the hypotheses of Obligations.EventRecords. -/
theorem witness_eventRecords :
    (up.recd.mode = false ∧ sameAsLast up ev = false ∧ up.recd.live.length < 8192) ∧
    ((logEvent up ev).recd.mode = false ∧ sameAsLast (logEvent up ev) ev = true) ∧
    (full.recd.mode = false ∧ sameAsLast full ev = false ∧ 8192 ≤ full.recd.live.length) ∧
    (limited.recd.mode = true ∧ (takeToken limited (ev.code, if ev.code = 0x0300 ∨ ev.code = 0x0302 then leAt ev.arg 0 4 else 0)).1 = false) ∧
    ((logEvent up ev).recd.live.getLast? = some (mkRecord up ev 0) ∧ (logEvent (logEvent up ev) ev).recd.live.length = 1) ∧
    (full.recd.fullAlarm = false ∧ fullTold.recd.mode = false ∧ sameAsLast fullTold ev = false ∧ 8192 ≤ fullTold.recd.live.length ∧ fullTold.recd.fullAlarm = true) :=
  ⟨by decide +kernel, by decide +kernel, by decide +kernel, by decide +kernel, by decide +kernel, by decide +kernel⟩

def alarmed : State := alarmEntry up 5 1 2 [3]

/-- A state and operands that meet the hypotheses of Obligations.AlarmEntries. -/
theorem witness_alarmEntries :
    (∀ a ∈ up.net.alarms, a.code ≠ 5) ∧
    ((alarmed.net.alarms[0]?).map (fun x => x.code) = some 5) :=
  ⟨by decide +kernel, by decide +kernel⟩

/-- A state and operands that meet the hypotheses of Obligations.DeviceResets. -/
theorem witness_deviceResets :
    (up.pwr.held = false ∧ running up = true ∧ secure.secure = true ∧ crownLive up = true ∧ crownMayReset up = true) ∧
    (tjMax up + 80 ≤ tjMax up + 80) ∧
    (wingRail .vddIo18 = false ∧ up.pwr.held = false) :=
  ⟨by decide +kernel, by decide +kernel, by decide +kernel⟩

def clamped : State := updPhys up 3 fun x => { x with softReset := some 7, clamping := true }
def dieHeld : State := { up with pwr := { up.pwr with dieSince := some 9 } }

/-- A state and operands that meet the hypotheses of Obligations.DieResets. -/
theorem witness_dieResets :
    (dieCanReset up = true ∧ secure.secure = true ∧ dieUp up = true ∧ crownLive up = true ∧ crownMayReset up = true) ∧
    (dieUp clamped = true ∧ (clamped.phys[(3 : Fin 8)]).softReset = some 7 ∧ (clamped.phys[(3 : Fin 8)]).clamping = true) ∧
    (wingRail .vddW = true ∧ dieCanReset up = true) ∧
    (running dieHeld = true ∧ secure.secure = true ∧ dieHeld.pwr.dieSince = some 9) :=
  ⟨by decide +kernel, by decide +kernel, by decide +kernel, by decide +kernel⟩

def heldDie (phase : Nat) (ok : Bool) : State := { atPhase phase with pwr := { held := false, dieSince := some 100 }, nvm := { genWriteOk := ok } }

/-- A state and operands that meet the hypotheses of Obligations.DieRelease. -/
theorem witness_dieRelease :
    ((heldDie 6 true).pwr.dieSince = some 100 ∧ running (heldDie 6 true) = true ∧ .vddW ∉ (heldDie 6 true).supply.down ∧ .vddG ∉ (heldDie 6 true).supply.down ∧ (heldDie 6 true).sec.phase ≠ 7 ∧ (heldDie 6 true).nvm.genWriteOk = true) ∧
    ((heldDie 7 true).pwr.dieSince = some 100 ∧ running (heldDie 7 true) = true ∧ .vddW ∉ (heldDie 7 true).supply.down ∧ .vddG ∉ (heldDie 7 true).supply.down ∧ (heldDie 7 true).sec.phase = 7) ∧
    ((heldDie 4 false).pwr.dieSince = some 100 ∧ running (heldDie 4 false) = true ∧ .vddW ∉ (heldDie 4 false).supply.down ∧ .vddG ∉ (heldDie 4 false).supply.down ∧ (heldDie 4 false).sec.phase ≠ 7 ∧ (heldDie 4 false).nvm.genWriteOk = false) ∧
    (running (heldDie 6 true) = true ∧ domainInReset (heldDie 6 true) .die = true) :=
  ⟨by decide +kernel, by decide +kernel, by decide +kernel, by decide +kernel⟩

def theCfg : BootCfg := { hosts := [1] }
def off (mode : Fin 4) : State := { State.reset with pins := { xspiMode := mode } }
def held : State := { State.reset with pins := { porst := true }, supply := { down := [.vddIo18] } }
def noCfg : State := { State.reset with nvm := { cfgA := none } }

/-- A state and operands that meet the hypotheses of Obligations.PhaseZero. -/
theorem witness_phaseZero :
    ((off 0).pins.porst = false ∧ (off 0).supply.low = [] ∧ (off 0).supply.down = [] ∧ (off 0).pwr.hot = false ∧ (off 0).pins.xspiMode ≠ 3 ∧ (fwOk (off 0) (off 0).nvm.fwA = true ∨ fwOk (off 0) (off 0).nvm.fwB = true) ∧ chosenCfg (off 0) = some theCfg ∧ (off 0).nvm.genWriteOk = true) ∧
    (held.pins.porst = true ∧ held.pwr.held = true ∧ held.pwr.hot = false ∧ held.pins.xspiMode ≠ 3 ∧ (fwOk held held.nvm.fwA = true ∨ fwOk held held.nvm.fwB = true) ∧ chosenCfg held = some theCfg ∧ held.nvm.genWriteOk = true) ∧
    ((let s := { held with supply := {} }; tjMax s - 40 ≤ tjMax s - 40 ∧ s.pins.porst = true ∧ s.pwr.held = true ∧ s.supply.low = [] ∧ s.supply.down = [] ∧ s.pins.xspiMode ≠ 3 ∧ (fwOk s s.nvm.fwA = true ∨ fwOk s s.nvm.fwB = true) ∧ chosenCfg s = some theCfg ∧ s.nvm.genWriteOk = true)) ∧
    ((off 3).pins.porst = false ∧ (off 3).supply.low = [] ∧ (off 3).supply.down = [] ∧ (off 3).pwr.hot = false ∧ ((off 3).pins.xspiMode = 3 ∨ fwOk (off 3) (off 3).nvm.fwA = false ∧ fwOk (off 3) (off 3).nvm.fwB = false)) ∧
    (noCfg.pins.porst = false ∧ noCfg.supply.low = [] ∧ noCfg.supply.down = [] ∧ noCfg.pwr.hot = false ∧ noCfg.pins.xspiMode ≠ 3 ∧ (fwOk noCfg noCfg.nvm.fwA = true ∨ fwOk noCfg noCfg.nvm.fwB = true) ∧ chosenCfg noCfg = none) :=
  ⟨by decide +kernel, by decide +kernel, by decide +kernel, by decide +kernel, by decide +kernel⟩

def booted (n : Nat) : State := { atPhase n with boot := { hosts := [1] } }

/-- A state and operands that meet the hypotheses of Obligations.BringUpGate. -/
theorem witness_bringUpGate :
    (running (booted 1) = true ∧ (booted 1).sec.phase = 1 ∧ ({} : GateResult).ucieFail = none ∧ (rateSteps (booted 1).boot)[({} : GateResult).dramFails]? = some 5) ∧
    (running (booted 1) = true ∧ (booted 1).sec.phase = 1 ∧ ({ ucieFail := some 1 } : GateResult).ucieFail = some 1) ∧
    (running (booted 1) = true ∧ (booted 1).sec.phase = 1 ∧ ({ dramFails := 20, dramChan := 31 } : GateResult).ucieFail = none ∧ (rateSteps (booted 1).boot)[({ dramFails := 20 } : GateResult).dramFails]? = none) ∧
    (running (booted 1) = true ∧ 1 ≤ (booted 1).sec.phase ∧ (booted 1).sec.phase ≤ 5 ∧ gateBlocked (booted 1) (0x40 : Byte).toNat = true) :=
  ⟨by decide +kernel, by decide +kernel, by decide +kernel, by decide +kernel⟩

def defect : State := { atPhase 2 with fuse := { defects := [2], goodWings := 0xEF }, phys := (Vector.replicate 8 ({} : Phys)).set 4 { role := 7 } }

def mixed : StartTest := { wings := [.pass, .repaired 1 0, .pass, .checker, .pass, .memory, .logic, .pass], pages := 3 }

/-- A state and operands that meet the hypotheses of Obligations.StartupTest. -/
theorem witness_startupTest :
    (running defect = true ∧ defect.sec.phase = 2 ∧ 256 ≤ 256 ∧ ∃ p : Fin 8, (defect.phys[p]).role ≠ 7) ∧
    (running (atPhase 2) = true ∧ (atPhase 2).sec.phase = 2 ∧ 256 < ({ pages := 257 } : StartTest).pages) ∧
    (running (atPhase 2) = true ∧ (atPhase 2).sec.phase = 2) ∧
    (running defect = true ∧ defect.sec.phase = 2 ∧ mixed.pages ≤ 256 ∧ mixed.fuseOk = true ∧ defect.fuse.defects.length + 8 ≤ 64 ∧ (defect.phys[(4 : Fin 8)]).role = 7 ∧ ((run (.startupTestComplete mixed) defect).phys.map fun x => (x.role, x.bistResult)) = #v[(2, 1), (2, 2), (6, 1), (6, 5), (7, 0), (6, 3), (6, 4), (2, 1)]) :=
  ⟨by decide +kernel, by decide +kernel, by decide +kernel, by decide +kernel⟩

def beatAt (enc : Bool) (c : Nat) : State :=
    { atPhase 6 with c := c, esc := { phase := .run, fresh := false, beat := 2 ^ 48 - 1, edgeC := 100, pMin := 50, pMax := 80, nb := 7, cfg := if enc then 1 else 0 } }
def early : State := { beatAt true 100 with esc := { (beatAt true 100).esc with target := 0, reached := true } }
def behind : State := { beatAt true 100 with esc := { (beatAt true 100).esc with target := 1000 } }

def worked : State := updPhys (beatAt false 100) 0 fun x => { x with role := 0, work := some { beat := 0, lw := 0 } }

/-- A state and operands that meet the hypotheses of Obligations.BeatEdges. -/
theorem witness_beatEdges :
    (beating (beatAt false 100) = true ∧ (beatAt false 100).esc.fresh = false ∧ (∀ p : Fin 8, ((beatAt false 100).phys[p]).work = none) ∧ encLocked (beatAt false 100) = false) ∧
    (beating early = true ∧ early.esc.fresh = false ∧ (∀ p : Fin 8, (early.phys[p]).work = none) ∧ encLocked early = true ∧ targetReached early = true ∧ early.esc.edgeC + early.esc.pMin.toNat ≤ early.c + 50) ∧
    (beating behind = true ∧ behind.esc.fresh = false ∧ (∀ p : Fin 8, (behind.phys[p]).work = none) ∧ encLocked behind = true ∧ targetReached behind = false) ∧
    (beating early = true ∧ targetReached early = true ∧ early.c < early.esc.edgeC + early.esc.pMin.toNat) ∧
    (beating worked = true ∧ (worked.phys[(0 : Fin 8)]).work = some { beat := 0, lw := 0 } ∧ workDone { beat := 0, lw := 0 } = true ∧ encLocked worked = false) ∧
    ((run .beatEdgeTime (beatAt false 100)).esc.beat = 2 ^ 48 ∧ (run (.beatEdgeEncoder 50) early).esc.edgeC = 150 ∧ (run .beatEdgePmax behind).esc.edgeC = 180 ∧ bit (run .speedHold early).esc.status.toNat 2 = true) :=
  ⟨by decide +kernel, by decide +kernel, by decide +kernel, by decide +kernel, by decide +kernel, by decide +kernel⟩

def nopCmd : Cmd := { opcode := 0, opnd := List.replicate 8 0xFFFF, param := List.replicate 8 0 }
def busy : Work := { beat := 0, lw := 0, lc := (Vector.replicate 9 []).set 0 [(0, nopCmd)] }
def late (n : Nat) : State := updPhys (atPhase 6) 0 fun x => { x with role := 0, work := some busy, missed := n }

def twice : State := updPhys (atPhase 6) 0 fun x => { x with role := 0, work := some { busy with lc := Vector.replicate 9 [], catchUp := true } }

/-- A state and operands that meet the hypotheses of Obligations.OverrunAtEdge. -/
theorem witness_overrunAtEdge :
    (((late 1).phys[(0 : Fin 8)]).work = some busy ∧ workDone busy = false ∧ ((late 1).phys[(0 : Fin 8)]).missed + 1 < 3) ∧
    (((late 2).phys[(0 : Fin 8)]).work = some busy ∧ workDone busy = false ∧ 3 ≤ ((late 2).phys[(0 : Fin 8)]).missed + 1) ∧
    ((twice.phys[(0 : Fin 8)]).work = some { busy with lc := Vector.replicate 9 [], catchUp := true } ∧ (twice.phys[(0 : Fin 8)]).missed + 1 < 3 ∧ ((overrunAt twice 0).phys[(0 : Fin 8)]).missed = 1) :=
  ⟨by decide +kernel, by decide +kernel, by decide +kernel⟩

def idle : Work := { beat := 0, lw := 0 }
def graceImg : Image := { plan := { grace := 20, pMin := 1000000, l := 1, wings := [{ tables := [{ queues := [[cmdBytes nopCmd]] }], schedule := [0] }] } }
def draining (w : Work) : State := { updPhys (atPhase 6) 0 (fun x => { x with role := 0, work := some w }) with img := some graceImg, esc := { phase := .drain, fresh := false } }
def guarded : State := { updPhys (atPhase 6) 0 (fun x => { x with role := 0 }) with img := some graceImg, esc := { phase := .guard, fresh := false, landingC := 10 }, wng := { map := 0xFFFFFFF0 } }

/-- A state and operands that meet the hypotheses of Obligations.DrainsAndGuard. -/
theorem witness_drainsAndGuard :
    (dieUp (draining idle) = true ∧ ((draining idle).phys[(0 : Fin 8)]).work = some idle ∧ workDone idle = true ∧ (draining idle).esc.phase = .drain ∧ idle.catchUp = false ∧ idle.drained = false ∧ (draining idle).c + 20000 ≤ (draining idle).esc.edgeC + graceNs (planOf (draining idle))) ∧
    ((let s := draining { idle with drained := true }; dieUp s = true ∧ s.esc.phase = .drain ∧ allDrained s = true)) ∧
    ((let w := { idle with catchUp := true }; let s := draining w; dieUp s = true ∧ s.esc.phase = .drain ∧ (s.phys[(0 : Fin 8)]).work = some w ∧ w.drained = false ∧ w.catchUp = true)) ∧
    (dieUp guarded = true ∧ guarded.esc.phase = .guard ∧ ((guarded.phys[(0 : Fin 8)]).role = 0 ∨ (guarded.phys[(0 : Fin 8)]).role = 1) ∧ mapOf guarded ((guarded.phys[(0 : Fin 8)]).logical) = some 0 ∧ (guarded.lw[(guarded.phys[(0 : Fin 8)]).logical]).lost = false ∧ (guarded.lw[(guarded.phys[(0 : Fin 8)]).logical]).nextWork ≤ guarded.esc.beat) ∧
    ((let s := { guarded with phys := Vector.replicate 8 {} }; dieUp s = true ∧ s.esc.phase = .guard ∧ (∀ p : Fin 8, 2 ≤ (s.phys[p]).role ∧ (s.phys[p]).role ≠ 4))) ∧
    (let w := { idle with catchUp := true }; let s := { draining w with esc := { phase := .run, fresh := false } }; dieUp s = true ∧ (s.phys[(0 : Fin 8)]).work = some w ∧ workDone w = true ∧ s.esc.phase = .run ∧ w.catchUp = true ∧ (((run (.wingDrained 0 5) s).phys[(0 : Fin 8)]).work.map fun v => (v.beat, v.catchUp, v.lc[0].length)) = some (1, false, 1)) ∧
    (let s := draining idle; dieUp s = true ∧ s.esc.phase = .drain ∧ (s.phys[(0 : Fin 8)]).work = some idle ∧ idle.drained = false ∧ workDone idle = true ∧ idle.catchUp = false ∧ ((run .graceExpiry s).phys[(0 : Fin 8)]).work = some { idle with drained := true }) ∧
    (let s := draining busy; workDone busy = false ∧ busy.drained = false ∧ s.esc.phase = .drain ∧ ((run .graceExpiry s).phys[(0 : Fin 8)]).work = none) :=
  ⟨by decide +kernel, by decide +kernel, by decide +kernel, by decide +kernel, by decide +kernel, by decide +kernel, by decide +kernel, by decide +kernel⟩

/-- A state and operands that meet the hypotheses of Obligations.AbandonedWork. -/
theorem witness_abandonedWork :
    (((late 0).phys[(0 : Fin 8)]).work = some busy ∧ busy.shadow = false) := by
  decide +kernel

/-- A state and operands that meet the hypotheses of Obligations.LandingStarts. -/
theorem witness_landingStarts :
    ((let s := draining { idle with drained := true }; dieUp s = true ∧ s.esc.phase = .drain ∧ allDrained s = true ∧ s.pwr.idleAt = none)) := by
  decide +kernel

def running0 : State := { draining busy with esc := { phase := .run, fresh := false } }
def ran : State := violations (worldHits (linkErrors (advance running0 8) {}) (issueOf (linkErrors (advance running0 8) {}) busy 0 false 0 nopCmd)).length (linkErrors (advance running0 8) {})

/-- A state and operands that meet the hypotheses of Obligations.EngineCommands. -/
theorem witness_engineCommands :
    (dieUp running0 = true ∧ (running0.phys[(0 : Fin 8)]).work = some busy ∧ queueHead running0 0 busy 0 (cyclesNow (advance running0 8) busy - 10) = some (false, 0, nopCmd) ∧ opIs 0 (wingPlan running0 busy.lw) nopCmd = true ∧ startsLate running0 busy nopCmd (cyclesNow (advance running0 8) busy - 10) = false ∧ ({ dt := 8, cycles := 10 } : Hw).fail = none ∧ (evalCmd ran 0 busy 0 false 0 nopCmd).toOption.isSome = true) ∧
    (({} : Hw).uncorr = []) :=
  ⟨by decide +kernel, by decide +kernel⟩

def sigCmd : Cmd := { opcode := 1, flags := 4, sigTok := 5, opnd := List.replicate 8 0xFFFF, param := List.replicate 8 0 }
def sigWork : Work := { busy with lc := (Vector.replicate 9 []).set 0 [(0, sigCmd)] }
def sigState : State := { draining sigWork with esc := { phase := .run, fresh := false } }

/-- A state and operands that meet the hypotheses of Obligations.QueueOrderAndTokens. -/
theorem witness_queueOrderAndTokens :
    (dieUp sigState = true ∧ (sigState.phys[(0 : Fin 8)]).work = some sigWork ∧ sigWork.shadow = false ∧ queueHead sigState 0 sigWork (queueIdx .me) (cyclesNow (advance sigState 8) sigWork - 10) = some (false, 0, sigCmd) ∧ startsLate sigState sigWork sigCmd (cyclesNow (advance sigState 8) sigWork - 10) = false ∧ sigCmd.opcode = 1 ∧ (∀ j : Fin 8, opAbsent sigCmd j = true) ∧ (evalCmd (linkErrors (advance sigState 8) {}) 0 sigWork (queueIdx .me) false 0 sigCmd).toOption.isSome = true) ∧
    (({} : Hw).corr = [] ∧ ({} : Hw).uncorr = [] ∧ Memory.wf sigState.mem.dram ∧ Memory.wf (sigState.phys[(0 : Fin 8)]).gallery) :=
  ⟨by decide +kernel, by decide +kernel⟩

def bad : CheckFail := { cause := 1, unit := 0 }

/-- A state and operands that meet the hypotheses of Obligations.FailedCheckWaits. -/
theorem witness_failedCheckWaits :
    (dieUp running0 = true ∧ (running0.phys[(0 : Fin 8)]).work = some busy ∧ busy.beJob = none ∧ queueHead running0 0 busy 0 (cyclesNow (advance running0 8) busy - 10) = some (false, 0, nopCmd) ∧ opIs 0 (wingPlan running0 busy.lw) nopCmd = true ∧ startsLate running0 busy nopCmd (cyclesNow (advance running0 8) busy - 10) = false ∧ ({ fail := some bad, dt := 8, cycles := 10 } : Hw).fail = some bad) := by
  decide +kernel

def outDesc : Desc := { addr := 512, space := 2, fmt := 4, d0 := 32, pitch := 32 }
def inDesc : Desc := { addr := 0, space := 2, fmt := 4, d0 := 32, pitch := 32 }
def fillCmd : Cmd := { opcode := 9, opnd := [0xFFFF, 0xFFFF, 0, 0xFFFF, 0xFFFF, 0xFFFF, 0xFFFF, 0xFFFF], param := [0, 0, 0, 0, 0x04030201, 0, 0, 0] }
def copyCmd : Cmd := { opcode := 8, opnd := [1, 0xFFFF, 0, 0xFFFF, 0xFFFF, 0xFFFF, 0xFFFF, 0xFFFF], param := [0, 0, 0, 0, 0, 0, 0, 0] }
def transfer (c : Cmd) : Issue := { img := { plan := { wings := [{ descs := [descBytes outDesc, descBytes inDesc] }], jobs := [{ id := 0, tsShare := [(0, 256)] }] } }, k := 0, qi := 7, index := 0, cmd := c, beat := 0 }
def opndAt (c : Cmd) (j : Nat) : Opnd := match operand (transfer c) j with | .ok (some b) => b | _ => { d := outDesc, space := 9, addr := 0 }
def loaded : Eng := { tiles := (Vector.replicate 6 []).set 0 [(0, 7), (1, 9)], tileW := (Vector.replicate 6 []).set 0 [0] }

/-- A state and operands that meet the hypotheses of Obligations.TransferResults. -/
theorem witness_transferResults :
    (fillCmd.opcode = 0x09 ∧ (operand (transfer fillCmd) 2).toOption.isSome = true ∧ (opndAt fillCmd 2).space < 8 ∧ (opBody (transfer fillCmd) {}).toOption.isSome = true) ∧
    (copyCmd.opcode = 0x08 ∧ (operand (transfer copyCmd) 0).toOption.isSome = true ∧ (operand (transfer copyCmd) 2).toOption.isSome = true ∧ (opndAt copyCmd 2).space < 8 ∧ dRow (opndAt copyCmd 0).d = true ∧ dRow (opndAt copyCmd 2).d = true ∧ (opndAt copyCmd 2).d.d0 ≤ (opndAt copyCmd 2).d.pitch ∧ (opndAt copyCmd 2).d.d0 = (opndAt copyCmd 0).d.d0 ∧ 8 ≤ fmtBits (dFmt (opndAt copyCmd 2).d) ∧ dFmt (opndAt copyCmd 0).d = dFmt (opndAt copyCmd 2).d ∧ (opBody (transfer copyCmd) loaded).toOption.isSome = true) :=
  ⟨by decide +kernel, by decide +kernel⟩

def fault0 : CheckFail := { cause := 1, unit := 0 }
def failing0 : Failing := { queue := 0, be := false, index := 0, cmd := nopCmd, atT := 3, fail := fault0, summary := [] }
def wFail : Work := { busy with failing := [failing0] }
def repeating (w : Work) : State := { draining w with esc := { phase := .run, fresh := false } }
def wLong : Work := { wFail with delta := 2000000 }

/-- A state and operands that meet the hypotheses of Obligations.CommandRepeats. -/
theorem witness_commandRepeats :
    (dieUp (repeating wFail) = true ∧ ((repeating wFail).phys[(0 : Fin 8)]).work = some wFail ∧ failingOn wFail (queueIdx .me) = some failing0 ∧ failing0.halted = false ∧ wFail.delta + repeatWcc wFail failing0 ≤ sigmaK (planOf (repeating wFail)) ∧ (evalCmd (updPhys (advance (repeating wFail) 8) 0 (fun x => { x with work := some { wFail with delta := wFail.delta + 5 } })) 0 { wFail with delta := wFail.delta + 5 } (queueIdx .me) false failing0.index failing0.cmd).toOption.isSome = true) ∧
    (failing0.fail.block = none ∧ fault0.block = none ∧ failing0.fail.unit ≤ 9 ) ∧
    (dieUp (repeating wLong) = true ∧ ((repeating wLong).phys[(0 : Fin 8)]).work = some wLong ∧ failingOn wLong (queueIdx .me) = some failing0 ∧ sigmaK (planOf (repeating wLong)) < wLong.delta + repeatWcc wLong failing0 ∧ failing0.fail.block = none ∧ failing0.fail.unit ≤ 9) ∧
    (let w := { wFail with delta := wFail.delta + 5 }; repeatCmds w failing0 = [(0, nopCmd)] ∧ (repeatRun (updPhys (advance (repeating wFail) 8) 0 fun y => { y with work := some w }) 0 (queueIdx .me) w (0, nopCmd) []).2.toOption.isSome = true ∧ (run (.commandRepeat 0 .me (.pass 8 5)) (repeating wFail)).int.transient = 1) ∧
    (let b : Bank := { key := { opcode := 0x10, m := 1, n := 1, fa := .int8, fb := .int8, sa := false, sb := false, la := 0 }, vals := [], cmds := [(3, { nopCmd with opcode := 0x10, wcc := 7 })] }; let f := { failing0 with index := 4, cmd := { nopCmd with opcode := 0x10, wcc := 9, param := [0, 0, 0, 0x200] } }; repeatCmds { wFail with bank := some b } f = (3, { nopCmd with opcode := 0x10, wcc := 7 }) :: [(4, f.cmd)] ∧ repeatWcc { wFail with bank := some b } f = 16) :=
  ⟨by decide +kernel, by decide +kernel, by decide +kernel, by decide +kernel, by decide +kernel⟩

def checkImg : Image := { plan := { graceImg.plan with wings := [{ tables := [{ queues := [[cmdBytes nopCmd]], checks := [(0, 1, 100)] }], schedule := [0] }] } }
def waitCmd : Cmd := { nopCmd with flags := 2, waitTok := 5, waitVal := 1 }
def hung : State := { running0 with img := some checkImg }
def asmDesc : Desc := { addr := 64, space := 1, fmt := 4, d0 := 32, pitch := 32 }
def asmCopy : Cmd := { opcode := 8, flags := 4, sigTok := 5, opnd := [0, 0xFFFF, 0, 0xFFFF, 0xFFFF, 0xFFFF, 0xFFFF, 0xFFFF], param := List.replicate 8 0 }
def asmImg : Image := { plan := { graceImg.plan with wings := [{ asm := { mailBase := 64, mailSize := 64 }, descs := [descBytes asmDesc], tables := [{ queues := [[cmdBytes waitCmd], [], [], [], [], [], [], [cmdBytes asmCopy]], checks := [(0, 1, 100)] }], schedule := [0] }] } }
def asmWork : Work := { beat := 0, lw := 0, lc := ((Vector.replicate 9 []).set 0 [(0, waitCmd)]).set 7 [(0, asmCopy)] }
def asmHung : State := { draining asmWork with esc := { phase := .run, fresh := false }, img := some asmImg }

/-- A state and operands that meet the hypotheses of Obligations.HangChecks. -/
theorem witness_hangChecks :
    (dieUp hung = true ∧ (hung.phys[(0 : Fin 8)]).work = some busy ∧ ((vGet? busy.lc (queueIdx .me)).getD []).head? = some (0, nopCmd) ∧ failingOn busy (queueIdx .me) = none) ∧
    (((tableOf (wingPlan hung busy.lw) busy.beat).checks.filter fun c => c.1 == queueIdx .me)[0]? = some (queueIdx .me, 1, 100) ∧ (vGet? busy.prog (queueIdx .me)).getD 0 < 1 ∧ waitsAssembler hung busy (queueIdx .me) = false) ∧
    (dieUp asmHung = true ∧ (asmHung.phys[(0 : Fin 8)]).work = some asmWork ∧ ((tableOf (wingPlan asmHung asmWork.lw) asmWork.beat).checks.filter fun c => c.1 == queueIdx .me)[0]? = some (queueIdx .me, 1, 100) ∧ (vGet? asmWork.prog (queueIdx .me)).getD 0 < 1) ∧
    (waitsAssembler asmHung asmWork (queueIdx .me) = true) :=
  ⟨by decide +kernel, by decide +kernel, by decide +kernel, by decide +kernel⟩

def soft (c : Bool) : State := updPhys { atPhase 6 with c := 10007 } 3 fun x => { x with softReset := some 7, clamping := c, rowsUsed := 2, repairs := 2 }

/-- A state and operands that meet the hypotheses of Obligations.FencingEscalates. -/
theorem witness_fencingEscalates :
    (dieUp (soft false) = true ∧ ((soft false).phys[(3 : Fin 8)]).softReset = some 7 ∧ ((soft false).phys[(3 : Fin 8)]).clamping = false ∧ (soft false).c ≤ 7 + 10000) ∧
    (dieUp (soft true) = true ∧ ((soft true).phys[(3 : Fin 8)]).clamping = true) :=
  ⟨by decide +kernel, by decide +kernel⟩

def testing (b : Bist) : State := updPhys (atPhase 6) 7 fun x => { x with role := 3, bist := some b, rowsUsed := 255 }
def spare : State := updPhys (atPhase 6) 7 fun x => { x with role := 2 }
def b5 : Bist := { step := 5, until' := 6 }
def b6 : Bist := { step := 6, until' := 6 }
def b2 : Bist := { step := 2, until' := 6 }

/-- A state and operands that meet the hypotheses of Obligations.SelfTests. -/
theorem witness_selfTests :
    (running spare = true ∧ dieBlocked spare = false ∧ secure.secure = true ∧ spare.tst.bistStart = false ∧ spare.sec.phase ≠ 7 ∧ (planOf spare).noSpare = false ∧ (spare.phys[(7 : Fin 8)]).role = 2 ∧ (spare.phys[(7 : Fin 8)]).bist = none ∧ (spare.phys[(7 : Fin 8)]).softReset = none) ∧
    (running (testing { step := 1, until' := 6 }) = true ∧ dieBlocked (testing { step := 1, until' := 6 }) = false ∧ (testing { step := 1, until' := 6 }).tst.bistStart = false ∧ (((testing { step := 1, until' := 6 }).phys[(7 : Fin 8)]).role = 3)) ∧
    (running (testing b5) = true ∧ ((testing b5).phys[(7 : Fin 8)]).bist = some b5 ∧ b5.abort = false ∧ b5.step < b5.until' ∧ ((testing b5).phys[(7 : Fin 8)]).rowsUsed ≤ 255 ∧ ((testing b5).phys[(7 : Fin 8)]).colsUsed ≤ 255) ∧
    (((testing b6).phys[(7 : Fin 8)]).bist = some b6 ∧ b6.abort = false ∧ b6.until' = 6 ∧ 6 ≤ b6.step ∧ b6.repaired = false) ∧
    (((testing b2).phys[(7 : Fin 8)]).bist = some b2 ∧ b2.step = 2 ∧ running (testing b2) = true) ∧
    ((spare.phys[(7 : Fin 8)]).nextRole = none ∧ spare.esc.phase = .off ∧ ((run (.bistStart secure 7) spare).phys[(7 : Fin 8)]).bist = some { step := 1, until' := 6 }) ∧
    (let s := { spare with esc := { phase := .run } }; running s = true ∧ dieBlocked s = false ∧ (s.phys[(7 : Fin 8)]).role = 2 ∧ (s.phys[(7 : Fin 8)]).nextRole = none ∧ ((run (.bistStart secure 7) s).phys[(7 : Fin 8)]).nextRole = some 3) ∧
    (let s := updPhys (atPhase 6) 7 fun x => { x with role := 4 }; running s = true ∧ dieBlocked s = false ∧ s.tst.bistStart = false ∧ s.sec.phase ≠ 7 ∧ (s.phys[(7 : Fin 8)]).role = 4 ∧ ((run (.bistStart secure 7) s).phys[(7 : Fin 8)]).bistResult = 7) ∧
    (let s := atPhase 7; running s = true ∧ dieBlocked s = false ∧ s.tst.bistStart = false ∧ s.sec.phase = 7 ∧ (s.phys[(7 : Fin 8)]).bist = none ∧ (s.phys[(7 : Fin 8)]).softReset = none ∧ (s.phys[(7 : Fin 8)]).nextRole = none ∧ ((run (.bistStart secure 7) s).phys[(7 : Fin 8)]).bist = some { step := 2, until' := 5 }) ∧
    (let s := testing { b6 with until' := 6 }; (s.phys[(7 : Fin 8)]).rowsUsed ≤ 255 ∧ (s.phys[(7 : Fin 8)]).colsUsed ≤ 255 ∧ ((run (.bistStepComplete 7 .pass) s).phys[(7 : Fin 8)]).nextRole = some 2 ∧ ((run (.bistStepComplete 7 .checker) (testing b2)).phys[(7 : Fin 8)]).bistResult = 5) :=
  ⟨by decide +kernel, by decide +kernel, by decide +kernel, by decide +kernel, by decide +kernel, by decide +kernel, by decide +kernel, by decide +kernel, by decide +kernel, by decide +kernel⟩

def burnable (tj : Int) (n : Nat) : State := updPhys { atPhase 7 with therm := { tj := tj }, fuse := { repairUsed := Vector.replicate 8 512 } } 7 fun x => { x with repairs := n }
def burning : State := updPhys { atPhase 7 with tst := { fuseState := 1 } } 7 fun x => { x with repairs := 3 }

/-- A state and operands that meet the hypotheses of Obligations.FuseRepair. -/
theorem witness_fuseRepair :
    (running (burnable 680 0) = true ∧ dieBlocked (burnable 680 0) = false ∧ secure.secure = true ∧ (burnable 680 0).tst.fuseState ≠ 1) ∧
    (burning.tst.fuseState = 1) :=
  ⟨by decide +kernel, by decide +kernel⟩

def dip (r : Rail) : State := { atPhase 6 with c := 100, supply := { low := [(r, 5)] } }

/-- A state and operands that meet the hypotheses of Obligations.SupplyMonitors. -/
theorem witness_supplyMonitors :
    ((∀ x ∈ up.supply.low, x.1 ≠ .vddW) ∧ wingRail .vddW = true) ∧
    ((∀ x ∈ up.supply.low, x.1 ≠ .vddIo18) ∧ running up = true ∧ wingRail .vddIo18 = false) ∧
    ((.vddW, 5) ∈ (dip .vddW).supply.low ∧ .vddW ∉ (dip .vddW).supply.down ∧ wingRail .vddW = true ∧ running (dip .vddW) = true) ∧
    ((.vddIo18, 5) ∈ (dip .vddIo18).supply.low ∧ wingRail .vddIo18 = false) ∧
    (running up = true ∧ up.supply.stopped = false ∧ 600 ≤ 800 ) ∧
    (.vddIo18 ∈ [Rail.vddIo18] ∧ running (dip .vddW) = true ∧ (run (.supplyRecover .vddW 640 3 9) (dip .vddW)).int.droopCnt = 1 ∧ (run (.supplyRecover .vddW 640 3 9) (dip .vddW)).ret.intLog.length = 1 ∧ (dip .vddW).ret.intLog.length < 512) ∧
    ((run (.supplyRecover .vddIo18 1700 3 9) (dip .vddIo18)).supply.low = [] ∧ (run (.supplyRecover .vddIo18 1700 3 9) (dip .vddIo18)).c = 300) :=
  ⟨by decide +kernel, by decide +kernel, by decide +kernel, by decide +kernel, by decide +kernel, by decide +kernel, by decide +kernel⟩

/-- A state and operands that meet the hypotheses of Obligations.Temperature. -/
theorem witness_temperature :
    (tjMax up ≤ 840) ∧
    ((-321) < tjMin up) ∧
    ((760 : Int) ≤ tjMax up - 40 ∧ up.pwr.held = false) ∧
    ((run (.thermalHigh 840) up).pins.thermLow = true ∧ (run (.thermalRecover 760) { up with pins := { up.pins with thermLow := true } }).pins.thermLow = false) :=
  ⟨by decide +kernel, by decide +kernel, by decide +kernel, by decide +kernel⟩

def cam0 : CamEntry := { port := 2, laneBase := 30, laneCount := 2, speed := 2, pocxp := true, pfnc := 0x01080001, width := 4, pwrDelay := 3, relinkMax := 3, faultUsed := true, lockGroup := 7, hdrCode := 5, hdrMask := 15, seq := [{ op := 2, value := 7 }] }
def isp0 : IspEntry := { port := 2, pipe := 7, fC := 2, hF := 2, streams := [{ w := 4 }] }
def camImg (c : CamEntry) : Image := { plan := { lineCap := [(2, 2)], groups := List.replicate 7 .none ++ [.beat] }, cams := [camBytes c], bytes := [[], [], c.seq.flatMap stepBytes], isps := [isp0] }
def cams (x : CamPort) : State := { atPhase 6 with c := 10, img := some (camImg cam0), cam := { port := (Vector.replicate 16 ({} : CamPort)).set 2 x } }

/-- A state and operands that meet the hypotheses of Obligations.CameraAttempts. -/
theorem witness_cameraAttempts :
    (running (cams {}) = true ∧ ((cams {}).sec.phase = 5 ∨ (cams {}).sec.phase = 6) ∧ ((cams {}).cam.port[(2 : Fin 16)]).state = 0 ∧ ((cams {}).cam.port[(2 : Fin 16)]).fault = false ∧ camEntry (cams {}) 2 = some cam0 ∧ cam0.pocxp = true ∧ ((cams {}).cam.port[(2 : Fin 16)]).enable ≠ some true) ∧
    (((cams { stage := .power }).cam.port[(2 : Fin 16)]).stage = .power) ∧
    (((cams { stage := .lock false }).cam.port[(2 : Fin 16)]).stage = .lock false) ∧
    (((cams { stage := .revision }).cam.port[(2 : Fin 16)]).stage = .revision ∧ cam0.minRev ≤ 0x0101 ∧ controlStage ((cams { stage := .revision }).cam.port[(2 : Fin 16)]).stage = true ∧ ((cams { stage := .revision }).cam.port[(2 : Fin 16)]).waiting = none ∧ ((cams { stage := .revision, sends := 2 }).cam.port[(2 : Fin 16)]).sends < 3) ∧
    (((cams { stage := .setup 0, sends := 2, waiting := some 900 }).cam.port[(2 : Fin 16)]).waiting = some 900 ∧ ((cams { stage := .setup 0, sends := 2, waiting := some 900 }).cam.port[(2 : Fin 16)]).sends < 3 ∧ controlStage (.setup 0) = true) ∧
    (((cams { stage := .wait 0 }).cam.port[(2 : Fin 16)]).stage = .wait 0 ∧ cam0.seq[0 + 1]? = none) ∧
    (((cams { stage := .check }).cam.port[(2 : Fin 16)]).stage = .check) ∧
    (faultAsserted (cams {}) 2 = false ∧ ((run (.attemptStart 2) (cams {})).cam.port[(2 : Fin 16)]).enable = some true) ∧
    (let s := { cams { stage := .lock true } with img := some (camImg { cam0 with seq := [] }) }; (s.cam.port[(2 : Fin 16)]).stage = .lock true ∧ camEntry s 2 = some { cam0 with seq := [] } ∧ ((run (.laneLock 2) s).cam.port[(2 : Fin 16)]).stage = .check) ∧
    (let s := run (.laneLock 2) (cams { stage := .lock false }); (s.cam.port[(2 : Fin 16)]).stage = .revision ∧ s.cam.ctrl = [{ port := 2, lane := 30, tagged := false, op := .readRevision }]) ∧
    ((run (.controlTimeout 2) (cams { stage := .revision, sends := 1 })).cam.ctrl.length = 1 ∧ ((run (.errorRateCheckDone 2 true) (cams { stage := .check })).cam.port[(2 : Fin 16)]).state = 3) ∧
    (let s := cams { stage := .check, first := true }; (s.cam.port[(2 : Fin 16)]).first = true ∧ (run (.errorRateCheckDone 2 true) s).freeCtr = s.freeCtr + (portLanes s 2).length) :=
  ⟨by decide +kernel, by decide +kernel, by decide +kernel, by decide +kernel, by decide +kernel, by decide +kernel, by decide +kernel, by decide +kernel, by decide +kernel, by decide +kernel, by decide +kernel, by decide +kernel⟩

def tries (n : Nat) : State := { cams { stage := .lock true, attempts := n } with img := some (camImg { cam0 with relinkMax := 4 }) }
def gate0 : State := { atPhase 5 with c := 10, img := some (camImg cam0), cam := { port := (Vector.replicate 16 ({} : CamPort)).set 2 { stage := .check } } }

/-- A state and operands that meet the hypotheses of Obligations.CameraFailures. -/
theorem witness_cameraFailures :
    (camEntry (tries 2) 2 = some { cam0 with relinkMax := 4 } ∧ atStart (tries 2) = false ∧ ((tries 2).cam.port[(2 : Fin 16)]).fault = false ∧ ((tries 2).cam.port[(2 : Fin 16)]).attempts + 1 < 4 ∧ ((tries 2).cam.port[(2 : Fin 16)]).stage = .lock true) ∧
    (camEntry (tries 3) 2 = some { cam0 with relinkMax := 4 } ∧ ((tries 3).cam.port[(2 : Fin 16)]).fault = false ∧ 4 ≤ ((tries 3).cam.port[(2 : Fin 16)]).attempts + 1) ∧
    (camEntry gate0 2 = some cam0 ∧ (gate0.cam.port[(2 : Fin 16)]).fault = false ∧ (gate0.cam.port[(2 : Fin 16)]).attempts + 1 < cam0.relinkMax ∧ cam0.required = false ∧ (gate0.cam.port[(2 : Fin 16)]).first = true ∧ atStart gate0 = true) ∧
    (controlStage ((cams { stage := .setup 0 }).cam.port[(2 : Fin 16)]).stage = true ∧ camEntry (cams { stage := .setup 0 }) 2 = some cam0) ∧
    (((cams { state := 2 }).cam.port[(2 : Fin 16)]).state = 2) ∧
    (faultAsserted (cams { state := 2 }) 2 = false ∧ ((run (.holdoffExpiry 2) (cams { state := 2 })).cam.port[(2 : Fin 16)]).state = 1 ∧ ((run (.holdoffExpiry 2) (cams { state := 2, fault := true })).cam.port[(2 : Fin 16)]).state = 2) :=
  ⟨by decide +kernel, by decide +kernel, by decide +kernel, by decide +kernel, by decide +kernel, by decide +kernel⟩

def down (s t : State) (p : Port) (k : Nat) : Prop := (t.cam.port[p]).state = 2 ∧ (t.cam.port[p]).cause = k ∧ (t.cam.port[p]).accepting = false ∧
    (t.cam.port[p]).line = none ∧ (t.cam.port[p]).loss = incW (s.cam.port[p]).loss ∧ (t.cam.port[p]).gen = ((s.cam.port[p]).gen + 1) % 16 ∧
    bit t.cam.status.toNat 0 = true ∧ (∃ a ∈ t.net.alarms, a.code = 0x0009) ∧ t.mem.bad = s.mem.bad ∧ t.fuse = s.fuse ∧ t.phys = s.phys
def line0 : LineIn := { tag := 7, stored := true }
def upPort : CamPort := { state := 4, accepting := true, line := some line0, gen := 15 }

def faulted : State := { cams upPort with iio := { level := (Vector.replicate 64 false).set 0 true } }

/-- A state and operands that meet the hypotheses of Obligations.CameraLosses. -/
theorem witness_cameraLosses :
    (lanePort (cams upPort) 31 = some 2 ∧ portUp ((cams upPort).cam.port[(2 : Fin 16)]) = true ∧ camEntry (cams upPort) 2 = some cam0 ∧ ((cams upPort).cam.port[(2 : Fin 16)]).state = 4 ∧ cam0.faultUsed = true ∧ ((cams upPort).cam.port[(2 : Fin 16)]).fault = false ∧ running (cams upPort) = true) ∧
    (((cams { fault := true, state := 5 }).cam.port[(2 : Fin 16)]).fault = true ∧ ((cams { fault := true, state := 5 }).cam.port[(2 : Fin 16)]).state ≠ 2) ∧
    (faultAsserted faulted 2 = true ∧ (faulted.cam.port[(2 : Fin 16)]).fault = false ∧ portUp faulted.cam.port[(2 : Fin 16)] = true ∧ ((run (.faultInputAssert 2) faulted).cam.port[(2 : Fin 16)]).cause = 4) ∧
    (let s := cams { fault := true, state := 2 }; faultAsserted s 2 = false ∧ (s.cam.port[(2 : Fin 16)]).fault = true ∧ ((run (.faultInputDeassert 2) { s with c := holdoffEnd s.cam.port[(2 : Fin 16)] }).cam.port[(2 : Fin 16)]).state = 1 ∧ ((run (.faultInputDeassert 2) s).cam.port[(2 : Fin 16)]).state = 2) ∧
    (let s := cams { state := 6, attempts := 5 }; running s = true ∧ (s.cam.port[(2 : Fin 16)]).state = 6 ∧ ((run (.relink secure 2) s).cam.port[(2 : Fin 16)]).state = 1 ∧ ((run (.relink secure 2) s).cam.port[(2 : Fin 16)]).attempts = 0) ∧
    (((run (.heartbeat 2 40) (cams upPort)).cam.port[(2 : Fin 16)]).lastHb = 50 ∧ ((run (.stop secure 2) (cams upPort)).cam.port[(2 : Fin 16)]).stopReq = true) :=
  ⟨by decide +kernel, by decide +kernel, by decide +kernel, by decide +kernel, by decide +kernel, by decide +kernel⟩

def fifoLine : FifoLine := { tag := 0, ivl := 0, data := none }
def taking (n : Nat) : State := { cams { state := 4, accepting := true } with isp := { cam := (Vector.replicate 16 ({} : IspCam)).set 2 { fifo := List.replicate n fifoLine, frameLines := 1 } } }
def mono8 : PixFmt := ⟨8, 8, .mono⟩
def ending : State := { cams upPort with isp := { cam := (Vector.replicate 16 ({} : IspCam)).set 2 { fifo := [{ fifoLine with eligible := false }] } } }
def good : LineEnd := { bytes := [1, 2, 3, 4] }
def poor : LineEnd := { crcBad := 1, bytes := [1] }

/-- A state and operands that meet the hypotheses of Obligations.LinesAccepted. -/
theorem witness_linesAccepted :
    (camEntry (taking 3) 2 = some cam0 ∧ ispEntry (taking 3) 2 = some isp0 ∧ portUp (taking 3).cam.port[(2 : Fin 16)] = true ∧ 0 = cam0.streamId ∧ ((taking 3).cam.port[(2 : Fin 16)]).accepting = true ∧ ((taking 3).cam.port[(2 : Fin 16)]).line = none ∧ ((taking 3).isp.cam[(2 : Fin 16)]).frameLines < isp0.hF ∧ occupied (taking 3) 2 < 4 ∧ pipeInReset (taking 3) 2 = false) ∧
    (camEntry (taking 4) 2 = some cam0 ∧ ispEntry (taking 4) 2 = some isp0 ∧ portUp (taking 4).cam.port[(2 : Fin 16)] = true ∧ ((taking 4).cam.port[(2 : Fin 16)]).accepting = true ∧ ((taking 4).cam.port[(2 : Fin 16)]).line = none ∧ ((taking 4).isp.cam[(2 : Fin 16)]).frameLines < isp0.hF ∧ 4 ≤ occupied (taking 4) 2 ∧ pipeInReset (taking 4) 2 = false) ∧
    ((ending.cam.port[(2 : Fin 16)]).line = some line0 ∧ camEntry ending 2 = some cam0 ∧ pixFmt? cam0.pfnc = some mono8 ∧ good.bytes.length = lineBytes mono8 cam0.width ∧ (ending.cam.port[(2 : Fin 16)]).badHdr = false ∧ good.codeBad = false ∧ good.crcBad = 0 ∧ line0.cut = false) ∧
    (0 < poor.crcBad ∧ line0.cut = false) ∧
    (((taking 0).cam.port[(2 : Fin 16)]).accepting = true ∧ (0x35 &&& cam0.hdrMask = cam0.hdrCode) ∧ ({ fmt := 0x35, width := 4 } : Header).width = cam0.width ∧ ((taking 0).isp.cam[(2 : Fin 16)]).frameOpen = false) ∧
    ((7 : Nat) ≠ cam0.streamId ∧ ((run (.lineFirstPacket 2 7 5) (taking 3)).cam.port[(2 : Fin 16)]).ign = 1) ∧
    (((run (.lineFirstPacket 2 0 5) (taking 3)).isp.cam[(2 : Fin 16)]).fifo.length = 4 ∧ ((run (.lineFirstPacket 2 0 5) (taking 4)).isp.cam[(2 : Fin 16)]).drop = 1 ∧ ((run (.lineComplete 2 good 5) ending).cam.port[(2 : Fin 16)]).lines = 1 ∧ ((run (.lineComplete 2 poor 5) ending).cam.port[(2 : Fin 16)]).corrupt = 1) ∧
    (let s := cams { state := 3 }; camEntry s 2 = some cam0 ∧ (s.cam.port[(2 : Fin 16)]).state = 3 ∧ (s.cam.port[(2 : Fin 16)]).accepting = false ∧ ({ fmt := 0x35, width := 5 } : Header).width ≠ cam0.width ∧ ((run (.imageHeader 2 { fmt := 0x35, width := 5 }) s).cam.port[(2 : Fin 16)]).badHdr = true) ∧
    (portUp (cams { state := 3 }).cam.port[(2 : Fin 16)] = true ∧ ((run (.eventPacket 2) (cams { state := 3 })).cam.port[(2 : Fin 16)]).ign = 1) :=
  ⟨by decide +kernel, by decide +kernel, by decide +kernel, by decide +kernel, by decide +kernel, by decide +kernel, by decide +kernel, by decide +kernel, by decide +kernel⟩

def ready : FifoLine := { tag := 5, ivl := 3, data := some [10, 20, 30, 40] }
def piped : State := { cams upPort with isp := { cam := (Vector.replicate 16 ({} : IspCam)).set 2 { fifo := [ready, { ready with tag := 6 }] } }, pwr := { held := false, genPipe := Vector.replicate 8 15 } }
def table (addr : Nat) (m g : Nat) : State := { cams upPort with isp := { tblAddr := addr, cam := (Vector.replicate 16 ({} : IspCam)).set 2 { mainSt := m, gainSt := g } } }
def atFlat : State := table 0x00200003 0 1
def atGain : State := table 0x03200003 1 0

/-- A state and operands that meet the hypotheses of Obligations.PipesAndTables. -/
theorem witness_pipesAndTables :
    (piped.isp.inReset[(7 : Fin 8)] = false ∧ currentLine piped 7 = some (0, 2, ready) ∧ ispEntry piped 2 = some isp0 ∧ camEntry piped 2 = some cam0 ∧ pixFmt? cam0.pfnc = some mono8 ∧ dieUp piped = true ∧ (currentLine piped 7).isSome = true) ∧
    (running atFlat = true ∧ dieBlocked atFlat = false ∧ bits atFlat.isp.tblAddr 20 4 = (2 : Fin 16).val ∧ ispEntry atFlat 2 = some isp0 ∧ bits atFlat.isp.tblAddr 0 20 < tableWords atFlat 2 (bits atFlat.isp.tblAddr 24 3) ∧ bits atFlat.isp.tblAddr 24 3 ≠ 3 ∧ (atFlat.isp.cam[(2 : Fin 16)]).mainSt = 0) ∧
    (running atGain = true ∧ bits atGain.isp.tblAddr 20 4 = (2 : Fin 16).val ∧ ispEntry atGain 2 = some isp0 ∧ bits atGain.isp.tblAddr 0 20 < tableWords atGain 2 (bits atGain.isp.tblAddr 24 3) ∧ bits atGain.isp.tblAddr 24 3 = 3 ∧ isp0.calEn = false ∧ (atGain.isp.cam[(2 : Fin 16)]).gainSt = 0) ∧
    (secure.secure = true ∧ (ispEntry atFlat (tblCam atFlat)).isSome = true) ∧
    (let s := { piped with isp := { piped.isp with inReset := Vector.replicate 8 true } }; s.isp.inReset[(7 : Fin 8)] = true ∧ (run (.pipeResetComplete 7) s).isp.busy[(7 : Fin 8)] = some 0) ∧
    ((run (.commitMain secure) { atFlat with sec := { atFlat.sec with phase := 6 } }).isp.cam.toList.map (fun x => x.mainSt) = (List.replicate 16 0).set 2 1 ∧ running atFlat = true ∧ dieBlocked atFlat = false) :=
  ⟨by decide +kernel, by decide +kernel, by decide +kernel, by decide +kernel, by decide +kernel, by decide +kernel⟩

def encImg : Image := { camImg cam0 with plan := { groups := List.replicate 7 .none ++ [.encoder 1 10] } }
def trig (last : Option Nat) : State := { cams upPort with cam := { (cams upPort).cam with lastTrig := (Vector.replicate 8 none).set 7 last } }
def trigEnc : State := { trig none with img := some encImg }
def eyed (a : Bool) (k : Nat) (n : Option Nat) : State := { cams upPort with img := some (camImg { cam0 with adaptive := a }), cam := { (cams upPort).cam with lane := (Vector.replicate 32 ({} : LaneSt)).set 31 { peak := k, next := n } } }

/-- A state and operands that meet the hypotheses of Obligations.TriggersAndEyes. -/
theorem witness_triggersAndEyes :
    (isReady (advance (trig none) 5) = true ∧ trigSource (advance (trig none) 5) 7 = .beat ∧ (trig none).cam.lastTrig[(7 : Fin 8)] = none) ∧
    (isReady (advance (trig (some 10)) 999) = true ∧ trigSource (advance (trig (some 10)) 999) 7 = .beat ∧ (trig (some 10)).cam.lastTrig[(7 : Fin 8)] = some 10 ∧ (advance (trig (some 10)) 999).c < 10 + 1000) ∧
    (isReady (advance trigEnc 5) = true ∧ trigSource (advance trigEnc 5) 7 = .encoder 1 10 ∧ (trigEnc.enc[(1 : Fin 4)]).fault = false ∧ 0 ≤ diff32 (trigEnc.enc[(1 : Fin 3)]).count trigEnc.cam.trigTarget[(7 : Fin 8)] ∧ trigEnc.cam.lastTrig[(7 : Fin 8)] = none) ∧
    (lanePort (eyed false 3 none) 31 = some 2 ∧ camEntry (eyed false 3 none) 2 = some { cam0 with adaptive := false } ∧ portUp (eyed false 3 none).cam.port[(2 : Fin 16)] = true) ∧
    (lanePort (eyed true 30 none) 31 = some 2 ∧ camEntry (eyed true 30 none) 2 = some { cam0 with adaptive := true } ∧ ((eyed true 30 none).cam.lane[(31 : Fin 32)]).peak < 31 ∧ 5 + 32 ≤ 37 ∧ 36 < 5 + 32) ∧
    (((eyed true 30 (some 31)).cam.lane[(31 : Fin 32)]).next = some 31 ∧ lanePort (eyed true 30 (some 31)) 31 = some 2) ∧
    (groupDue (advance (trig none) 5) 7 = some 0 ∧ triggersStopped (trig none) = false ∧ (run (.triggerEvent 7 5) (trig none)).cam.lastTrig[(7 : Fin 8)] = some 0) ∧
    (let s := { trig (some 10) with esc := { fresh := false, edgeC := 1009 } }; isReady (advance s 1000) = true ∧ groupDue (advance s 1000) 7 = some 1009 ∧ 1009 ≤ (advance s 1000).c ∧ s.cam.lastTrig[(7 : Fin 8)] = some 10 ∧ (run (.triggerEvent 7 1000) s).cam.skip[(7 : Fin 8)] = 1) ∧
    (let s := { trig none with pwr := { held := false, state := 2 } }; isReady (advance s 5) = true ∧ triggersStopped s = true ∧ groupDue (advance s 5) 7 = some 0 ∧ (run (.triggerEvent 7 5) s).cam.sent = []) ∧
    (let s := { trigEnc with cam := { trigEnc.cam with trigReached := (Vector.replicate 8 none).set 7 (some 9) } }; trigSource s 7 = .encoder 1 10 ∧ s.cam.trigReached[(7 : Fin 8)] = some 9 ∧ groupDue s 7 = some 9) ∧
    (let s := { trig none with img := some { encImg with plan := { groups := List.replicate 7 .none ++ [.period 700] } }, esc := { fresh := false, cfg := 1 }, cam := { (trig none).cam with trigAt := (Vector.replicate 8 none).set 7 (some 4) } }; trigSource s 7 = .period 700 ∧ s.cam.trigAt[(7 : Fin 8)] = some 4 ∧ encLocked s = true ∧ groupDue s 7 = some 704) :=
  ⟨by decide +kernel, by decide +kernel, by decide +kernel, by decide +kernel, by decide +kernel, by decide +kernel, by decide +kernel, by decide +kernel, by decide +kernel, by decide +kernel, by decide +kernel⟩

def linked (n : Nat) : State := { atPhase n with c := 100, esc := { fresh := false, beat := 9 }, boot := { hosts := [1], priority1 := 1 }, net := { port := #v[{ cfg := { enabled := true, gptp := true }, link := true }, { cfg := {}, link := false }] } }
def msgIn : List Byte := [200, 0, 1, 0, 0, 1, 2, 0, 65, 66]
def part : LdMsg := { host := 7, msgId := 5, channel := 1, nFrag := 2, total := 2000, frags := [(0, [])], since := 30 }
def waitingLd : State := { linked 6 with net := { (linked 6).net with lds := [part] } }

def firstOfTwo : List Byte := [200, 0, 2, 0, 0, 2, 208, 7] ++ List.replicate 1356 9

/-- A state and operands that meet the hypotheses of Obligations.LineMessages. -/
theorem witness_lineMessages :
    (running (linked 6) = true ∧ portLive (linked 6) 0 = true ∧ (0 : Fin 8).val < (linked 6).boot.hosts.length ∧ intervalOpen (linked 6) = true ∧ 8 ≤ msgIn.length ∧ fragmentOk (parseFragment msgIn) = true ∧ (parseFragment msgIn).nFrag = 1 ∧ (∀ m ∈ (linked 6).net.lds, m.host ≠ (0 : Fin 8).val ∨ m.msgId ≠ (parseFragment msgIn).msgId) ∧ ((linked 6).isp.ldArea.filter fun x => x.1 == (linked 6).esc.beat).length < 16) ∧
    (running waitingLd = true ∧ (waitingLd.net.lds.find? fun m => m.host == (7 : Fin 8).val && m.msgId == 5) = some part) ∧
    (running (linked 6) = true ∧ portLive (linked 6) 0 = true ∧ intervalOpen (linked 6) = true ∧ fragmentOk (parseFragment firstOfTwo) = true ∧ 1 < (parseFragment firstOfTwo).nFrag ∧ (linked 6).net.lds = [] ∧ (run (.lineData 0 0 firstOfTwo 3) (linked 6)).net.lds.length = 1) :=
  ⟨by decide +kernel, by decide +kernel, by decide +kernel⟩

def encd (x : Enc) : State := { atPhase 6 with c := 5000, enc := (Vector.replicate 4 ({} : Enc)).set 3 x }
def incr : Enc := { cfg := { mode := 1, index := 2, reverse := true }, count := 0 }

/-- A state and operands that meet the hypotheses of Obligations.IncrementalEncoders. -/
theorem witness_incrementalEncoders :
    (((encd incr).enc[(3 : Fin 4)]).cfg.mode = 1 ∧ encCounting (encd incr) = true ∧ ((encd incr).enc[(3 : Fin 4)]).fault = false ∧ ((encd incr).enc[(3 : Fin 4)]).a ≠ true ∧ ((encd incr).enc[(3 : Fin 4)]).b = false ∧ 1 ≤ ((encd incr).enc[(3 : Fin 4)]).cfg.index ∧ ((encd incr).enc[(3 : Fin 4)]).idxSeen = false ∧ ((encd incr).enc[(3 : Fin 4)]).illegal.length < 15) ∧
    (((encd { incr with fault := true, illegal := [40] }).enc[(3 : Fin 4)]).fault = true) ∧
    (let s := encd { incr with illegal := List.replicate 15 4999 }; ((s.enc[(3 : Fin 4)]).illegal.filter fun c => decide ((advance s 9).c < c + 1000000)).length = 15 ∧ (s.enc[(3 : Fin 4)]).fault = false ∧ ((run (.encoderStep 3 true true 9) s).enc[(3 : Fin 4)]).cause = 1) ∧
    (let s := encd { incr with idxSeen := true, suspect := true }; encCounting s = true ∧ (s.enc[(3 : Fin 4)]).cfg.index = 2 ∧ (s.enc[(3 : Fin 4)]).idxSeen = true ∧ ((run (.indexEdge 3) s).enc[(3 : Fin 4)]).suspect = false) ∧
    (((run (.encoderStep 3 true false 9) (encd incr)).enc[(3 : Fin 4)]).a = true ∧ ((run (.encoderFaultClear 3) (encd { incr with fault := true, illegal := [40] })).enc[(3 : Fin 4)]).suspect = true) :=
  ⟨by decide +kernel, by decide +kernel, by decide +kernel, by decide +kernel, by decide +kernel⟩

def bissCh : Enc := { cfg := { mode := 3, wordBits := 12, reqPeriod := 100 }, request := some 50 }
def wordIn : PosWord := { value := 4097, nW := false }
def sinCh : Enc := { cfg := { mode := 4, interp := 4, sGain := 16384, cGain := 16384, a2Lo := 1, a2Hi := 4096 }, quad := 1 }
def xf : Enc := { sinCh with fault := true }

/-- A state and operands that meet the hypotheses of Obligations.AbsoluteEncoders. -/
theorem witness_absoluteEncoders :
    (encCounting (encd bissCh) = true ∧ absolute (encd bissCh).enc[(3 : Fin 4)] = true ∧ ((encd bissCh).enc[(3 : Fin 4)]).cfg.mode = 3 ∧ ((encd bissCh).enc[(3 : Fin 4)]).request.isSome = true ∧ wordIn.crcOk = true ∧ wordIn.nE = true ∧ ((encd bissCh).enc[(3 : Fin 4)]).fault = false ∧ ((encd bissCh).enc[(3 : Fin 4)]).last = none ∧ ((encd bissCh).enc[(3 : Fin 4)]).resume = false) ∧
    (({ value := 1, crcOk := false } : PosWord).crcOk = false) ∧
    (((encd { bissCh with fault := true }).enc[(3 : Fin 4)]).request = some 50 ∧ ((encd { bissCh with fault := true }).enc[(3 : Fin 4)]).fault = true) ∧
    (((encd xf).enc[(3 : Fin 4)]).cfg.mode = 4 ∧ ((encd xf).enc[(3 : Fin 4)]).fault = true ∧ amplitudeOk (encd xf).enc[(3 : Fin 4)] (corrected (encd xf).enc[(3 : Fin 4)] 32767 32767) = false ∧ encCounting (encd xf) = true) ∧
    (encCounting (encd sinCh) = true ∧ ((encd sinCh).enc[(3 : Fin 4)]).cfg.mode = 4 ∧ ((encd sinCh).enc[(3 : Fin 4)]).fault = false ∧ ((encd sinCh).enc[(3 : Fin 4)]).resume = false ∧ ((encd sinCh).enc[(3 : Fin 4)]).last = none ∧ amplitudeOk (encd sinCh).enc[(3 : Fin 4)] (corrected (encd sinCh).enc[(3 : Fin 4)] 8000 8000) = true) ∧
    ((bissCh.rejects < 2 ∧ 2 ≤ ({ bissCh with rejects := 2 } : Enc).rejects) ∧ ((run (.positionWord 3 { wordIn with crcOk := false }) (encd { bissCh with rejects := 2 })).enc[(3 : Fin 4)]).fault = true ∧ ((run (.positionWord 3 { wordIn with crcOk := false }) (encd bissCh)).enc[(3 : Fin 4)]).fault = false) ∧
    (sinCh.rejects < 7 ∧ amplitudeOk (encd sinCh).enc[(3 : Fin 4)] (corrected (encd sinCh).enc[(3 : Fin 4)] 32767 32767) = false ∧ ((run (.sincosSample 3 32767 32767 9) (encd sinCh)).enc[(3 : Fin 4)]).err = 1) ∧
    (let s := encd { sinCh with last := some 20, quad := 0 }; (s.enc[(3 : Fin 4)]).last = some 20 ∧ (s.enc[(3 : Fin 4)]).resume = false ∧ amplitudeOk s.enc[(3 : Fin 4)] (corrected s.enc[(3 : Fin 4)] 8000 8000) = true ∧ (gaussQuad (corrected s.enc[(3 : Fin 4)] 8000 8000) + 4 - (s.enc[(3 : Fin 4)]).quad) % 4 ≠ 2 ∧ ((run (.sincosSample 3 8000 8000 9) s).enc[(3 : Fin 4)]).rejects = 0) :=
  ⟨by decide +kernel, by decide +kernel, by decide +kernel, by decide +kernel, by decide +kernel, by decide +kernel, by decide +kernel, by decide +kernel⟩

def wired (x : IioCfg) (n : Nat) : State := { linked 6 with iio := { cfg := (Vector.replicate 64 ({} : IioCfg)).set 63 x, fifo := List.replicate n (0, true, 0, 0), alarmEnd := 900 } }
def valveOn : State := { linked 6 with ejc := { valve := (Vector.replicate 1024 ({} : EjChan)).set 1023 { state := .on, since := 50, onMin := 3, offMin := 4 } } }

/-- A state and operands that meet the hypotheses of Obligations.InputsAndOutputs. -/
theorem witness_inputsAndOutputs :
    (running (wired { dir := 1 } 0) = true ∧ ((wired { dir := 1 } 0).iio.cfg[(63 : Fin 64)]).dir = 1 ∧ (wired { dir := 1 } 0).iio.level[(63 : Fin 64)] ≠ true ∧ ((wired { dir := 1 } 0).iio.cfg[(63 : Fin 64)]).record = false) ∧
    (([4095, 4096].all fun k => decide (let s := wired { dir := 1, record := true } k; running s = true ∧ (s.iio.cfg[(63 : Fin 64)]).dir = 1 ∧ s.iio.level[(63 : Fin 64)] ≠ true ∧ (s.iio.cfg[(63 : Fin 64)]).record = true ∧ intervalOpen (advance s 9) = true)) = true) ∧
    (running (linked 6) = true ∧ secure.secure = true ∧ (∀ hi : Bool, regLocked (linked 6) (if hi then 0x60414 else 0x60410) = false)) ∧
    (calendarActive (linked 6) = true ∧ refFault (advance (linked 6) 4) = false ∧ (linked 6).ejc.entries = []) ∧
    (calendarActive valveOn = true ∧ (valveOn.ejc.valve[(1023 : Fin 1024)]).state = .on ∧ (valveOn.ejc.valve[(1023 : Fin 1024)]).request = false ∧ (valveOn.ejc.valve[(1023 : Fin 1024)]).onMax = 0 ∧ (valveOn.ejc.valve[(1023 : Fin 1024)]).offMin ≠ 0 ∧ valveOn.c < 2 ^ 64 ∧ (valveOn.ejc.valve[(1023 : Fin 1024)]).since + limitNs true (valveOn.ejc.valve[(1023 : Fin 1024)]).onMin < 2 ^ 64) ∧
    (running (linked 7) = true ∧ calendarActive (linked 7) = false) ∧
    ((let s := wired { dir := 2, outSrc := 2, statusFn := 1 } 0; running s = true ∧ (s.iio.cfg[(63 : Fin 64)]).dir = 2 ∧ (s.iio.cfg[(63 : Fin 64)]).outSrc = 2)) :=
  ⟨by decide +kernel, by decide +kernel, by decide +kernel, by decide +kernel, by decide +kernel, by decide +kernel, by decide +kernel⟩

def slaved (st : Nat) : State := updEth { linked 2 with reg := { state := st, o := 100, syncC := 3 } } 0 fun p => { p with ptp := 1 }
def unlinked : State := raiseAlarm (updEth (linked 2) 0 fun p => { p with link := false }) 0x0011

/-- A state and operands that meet the hypotheses of Obligations.TimeAndLinks. -/
theorem witness_timeAndLinks :
    (running (slaved 0) = true ∧ portLive (slaved 0) 0 = true ∧ ((slaved 0).net.port[(0 : Fin 2)]).cfg.gptp = true ∧ ((slaved 0).net.port[(0 : Fin 2)]).ptp = 1 ∧ (slaved 1).reg.state = 1) ∧
    (running (linked 2) = true ∧ portLive (linked 2) 0 = true ∧ ((linked 2).net.port[(0 : Fin 2)]).cfg.gptp = true ∧ ((linked 2).net.port[(1 - 0 : Fin 2)]).ptp ≠ 1 ∧ (linked 2).boot.priority1 < 255 ∧ ((linked 2).net.port[(0 : Fin 2)]).stamps.length < 16) ∧
    (running unlinked = true ∧ (unlinked.net.port[(0 : Fin 2)]).cfg.enabled = true ∧ (unlinked.net.port[(0 : Fin 2)]).link = false ∧ rateOk (unlinked.net.port[(0 : Fin 2)]).cfg.iface 0 = true ∧ unlinked.sec.phase ≠ 7) ∧
    (((linked 2).net.port[(0 : Fin 2)]).link = true ∧ ((linked 2).net.port[(0 : Fin 2)]).cfg.enabled = true ∧ (linked 2).pwr.ethReset[(0 : Fin 2)] = false) ∧
    (((run (.ethPcsCheck 0 true) (linked 2)).net.port[(0 : Fin 2)]).checked = true ∧ ((run (.ethPcsCheck 0 false) (linked 2)).net.port[(0 : Fin 2)]).pcsDown = true) ∧
    (let s := updEth unlinked 0 fun p => { p with pcsDown := true }; (unlinked.net.port[(0 : Fin 2)]).pcsDown = false ∧ (s.net.port[(0 : Fin 2)]).pcsDown = true ∧ ((run (.ethLinkUp 0 0) s).net.port[(0 : Fin 2)]).link = false) :=
  ⟨by decide +kernel, by decide +kernel, by decide +kernel, by decide +kernel, by decide +kernel, by decide +kernel⟩

def ask (addr : Word) : Req := { host := 0, reqId := 7, addr := addr }
abbrev canAsk (s : State) (r : Req) : Prop := running s = true ∧ portLive s r.port = true ∧ r.host.val < s.boot.hosts.length ∧ r.full = false ∧ r.ts = false ∧
    r.addr.toNat % 4 = 0 ∧ ∀ x ∈ s.net.responses[r.host], x.reqId ≠ r.reqId
def old (n : Nat) : Response := { reqId := BitVec.ofNat 32 (100 + n), op := 0, n := 1, status := 0, addr := 0, data := [] }
def asked : State := { linked 6 with net := { (linked 6).net with responses := (Vector.replicate 8 []).set 0 ((List.range 16).map old) } }
def again : Req := { host := 0, reqId := 115 }

/-- A state and operands that meet the hypotheses of Obligations.Management. -/
theorem witness_management :
    (canAsk asked (ask 0x80108) ∧ secureSession asked (ask 0x80108) (reqBytes (ask 0x80108) 0 1 []) = none ∧ (ask 0x80108).addr.toNat ≠ 0xC0308) ∧
    (canAsk asked (ask 0xD0010) ∧ secureSession asked (ask 0xD0010) (reqBytes (ask 0xD0010) 1 1 [1]) = none ∧ regAcc (ask 0xD0010).addr.toNat = .rws ∧ (readReg asked (ask 0xD0010).addr.toNat).isSome = true ∧ (dieReg (ask 0xD0010).addr.toNat && dieBlocked asked) = false) ∧
    (canAsk asked (ask 0) ∧ (0 = 0 ∨ 64 < 0) ∧ 64 < 65) ∧
    (canAsk asked (ask 0x80108) ∧ secureSession asked (ask 0x80108) (reqBytes (ask 0x80108) 2 2 []) = none ∧ (ask 0x80108).addr.toNat = 0x80108 ∧ (∀ x ∈ asked.cap, x.lo ≠ 0x80104)) ∧
    (canAsk asked (ask 0xC0304) ∧ secureSession asked (ask 0xC0304) (reqBytes (ask 0xC0304) 3 2 [2047, 9]) = none ∧ (ask 0xC0304).addr.toNat = 0xC0304 ∧ asked.sec.mboxIdx < 2048) ∧
    (running asked = true ∧ portLive asked again.port = true ∧ again.host.val < asked.boot.hosts.length ∧ again.ts = false ∧ (asked.net.responses[again.host]).find? (fun y => y.reqId == again.reqId) = some (old 15)) :=
  ⟨by decide +kernel, by decide +kernel, by decide +kernel, by decide +kernel, by decide +kernel, by decide +kernel⟩

def vrec (n : Nat) : Nat × Nat × Nat × VRec := (n, 0, 1, default)
def sending : State := let s := raiseAlarm (logEvent (linked 6) { code := 0x0201 }) 0x0011; { s with net := { s.net with backlog := List.replicate 22 (vrec 4) ++ [vrec 5], marks := [7, 8], retracts := [(3, 1, 2, 5)], tlmStreak := 14 }, boot := { s.boot with peers := [60, 61] } }
def stamp : TxStamp := { ident := 300, kind := 0x11, time := 55, host := some 7 }
def stamped : State := updEth sending 1 fun p => { p with stamps := [stamp, { stamp with host := none }] }

/-- A state and operands that meet the hypotheses of Obligations.SendsToHosts. -/
theorem witness_sendsToHosts :
    (anyLink sending = true ∧ mayTalk sending = true ∧ sending.net.backlog = vrec 4 :: sending.net.backlog.tail ∧ sending.net.alarms ≠ [] ∧ 0 < 30 ∧ sending.net.evSent < sending.recd.live.length ∧ isReady sending = true ∧ sending.net.tlmK = 0 ∧ sending.net.tlmStreak < 15) ∧
    (mayTalk stamped = true ∧ (stamped.net.port[(1 : Fin 2)]).stamps = stamp :: (stamped.net.port[(1 : Fin 2)]).stamps.tail ∧ stamp.host = some 7) :=
  ⟨by decide +kernel, by decide +kernel⟩

def anExport : Export := { lw := 0, beat := 3, stream := 2, data := [1, 2], replayed := false }
def expImg : Image := { plan := { streams := [{ stream := 2, peers := [60, 61] }] } }
def peering : State := { sending with img := some expImg, net := { sending.net with exports := [anExport], retracts := [(1, 3, 3, 5)], peers := (Vector.replicate 16 ({} : Peer)).set 1 { gen := some 70, mark := some (9, 4, 1, 100, 40), highest := some 6 } } }
def idling : State := { peering with pwr := { peering.pwr with state := 2 }, net := { peering.net with marks := [], lastMark := [1] } }
def provisional : List Byte := [5, 0, 0, 0, 0, 0, 0, 2, 0, 0, 1, 0, 1, 0, 0, 0, 77]
def retract : List Byte := List.replicate 16 3

/-- A state and operands that meet the hypotheses of Obligations.PeerTraffic. -/
theorem witness_peerTraffic :
    (anyLink peering = true ∧ mayTalk peering = true ∧ peering.net.exports = [anExport] ∧ retractWaits peering anExport = false ∧ openUnit peering (fun m => m.olp) = none ∧ streamDests peering anExport.stream ≠ [] ∧ anExport.data ≠ [] ∧ peering.net.retracts = (1, 3, 3, 5) :: [] ∧ peering.net.marks = 7 :: [8]) ∧
    (anyLink idling = true ∧ mayTalk idling = true ∧ idling.pwr.state = 2 ∧ idling.net.marks = [] ∧ idling.net.lastMark ≠ []) ∧
    ((0 : Fin 16).val < peering.boot.peers.length ∧ (peering.net.peers[(0 : Fin 16)]).gen = none) ∧
    ((1 : Fin 16).val < peering.boot.peers.length ∧ (peering.net.peers[(1 : Fin 16)]).gen = some (70 : Word).toNat ∧ (peering.net.peers[(1 : Fin 16)]).gone = false ∧ 17 ≤ provisional.length ∧ provisional.length ≤ 1364 ∧ intervalOpen peering = true ∧ retract.length = 16) ∧
    (running peering = true ∧ (peering.net.peers[(1 : Fin 16)]).mark = some (9, 4, 1, 100, 40) ∧ (peering.net.peers[(1 : Fin 16)]).gone = false) ∧
    ((1 : Fin 16).val < peering.boot.peers.length ∧ (exportParts anExport).length * (streamDests peering anExport.stream).length = 2 ∧ (run (.provisionalSend 1) peering).net.peerDrop = 1 ∧ (run (.provisionalSend 2) peering).net.sent.length = peering.net.sent.length + 2) ∧
    (let s := { peering with esc := { peering.esc with fresh := true } }; intervalOpen s = false ∧ (run (.retractRx 1 70 retract) s).sealer.msgs = s.sealer.msgs ∧ (run (.retractRx 1 70 retract) peering).sealer.msgs.length = 1) :=
  ⟨by decide +kernel, by decide +kernel, by decide +kernel, by decide +kernel, by decide +kernel, by decide +kernel, by decide +kernel⟩

def staging (n : Nat) : State := { linked 6 with sec := { phase := 6, stage := n, armedId := 5, offer := some { nChunk := 3, len := 2561, digest := [] }, recv := [0], passEnd := some 9 } }

/-- A state and operands that meet the hypotheses of Obligations.ImageStaging. -/
theorem witness_imageStaging :
    (running (staging 1) = true ∧ secure.secure = true) ∧
    ((staging 1).sec.stage = 1 ∧ (staging 1).sec.armedId = 5 ∧ (3 : Word).toNat = ceilDiv (2561 : Dword).toNat 1280 ∧ (2561 : Dword).toNat ≤ slotCap (staging 1) (otherSlot (staging 1)) ∧ (3 : Word) ≠ 0 ∧ (2 : Word).toNat ≠ ceilDiv (2561 : Dword).toNat 1280) ∧
    ((staging 2).sec.offer = some { nChunk := 3, len := 2561, digest := [] } ∧ 2 < 3 ∧ [(1 : Byte)].length = chunkLen { nChunk := 3, len := 2561, digest := [] } 2) ∧
    (running (staging 2) = true ∧ (staging 2).sec.stage = 2 ∧ (staging 2).sec.passEnd = some 9) ∧
    ((staging 3).sec.stage = 3) ∧
    (1 ≤ (staging 3).sec.stage ∧ (staging 3).sec.stage ≤ 3) ∧
    (let s := { staging 3 with nvm := { slots := (Vector.replicate 2 ({} : Slot)).set 1 { state := 1, data := [(0, [7, 8])] } } }; (s.sec.stage = 3 ∧ slotMatches s.nvm.slots[otherSlot s] { header := [7, 8] } = true) ∧ slotMatches s.nvm.slots[otherSlot s] { header := [7, 9] } = false ∧ (run (.stagingVerifyDone { header := [7, 8] }) s).sec.stageReason = 2) ∧
    ((staging 2).sec.armedId = 5 ∧ (run (.imgPassEnd 5) (staging 2)).sec.passEnd = some 100 ∧ (run (.imgData 5 2 [1]) (staging 2)).sec.recv = [0, 2]) :=
  ⟨by decide +kernel, by decide +kernel, by decide +kernel, by decide +kernel, by decide +kernel, by decide +kernel, by decide +kernel, by decide +kernel⟩

def acting (x : Security) (a : Adapter) : State := { linked 6 with img := some { plan := { promotion := true, candBase := 64, candSize := 4, nCk := 3, l := 0 } }, fuse := { svn := 3 }, sec := { x with phase := 6 }, esc := { fresh := false, beat := 9 }, wng := { adpt := a } }
def chg : Security := { stage := 4, chgOk := true, actTgtLo := 11, imgSvn := 5 }
def preloading : State := { acting { chg with actState := 1 } {} with imgNew := some { dramInit := [(5, [1, 2])] } }
def promoting (a : Adapter) : State := acting {} { a with tgtLo := 11 }
def wrong : Adapter := { set := some [1], dig := Vector.replicate 8 1 }

/-- A state and operands that meet the hypotheses of Obligations.ActivationAndAdapters. -/
theorem witness_activationAndAdapters :
    (running (acting chg {}) = true ∧ secure.secure = true ∧ (acting chg {}).sec.phase = 6 ∧ changeoverBusy (acting chg {}) = false ∧ (acting chg {}).sec.stage = 4 ∧ (acting chg {}).sec.chgOk = true ∧ (acting chg {}).esc.beat + 2 ≤ landingOf (acting chg {}) (join48 (acting chg {}).sec.actTgtLo (acting chg {}).sec.actTgtHi) ∧ promotionBusy (acting chg {}) = false) ∧
    (running preloading = true ∧ changeoverBusy preloading = true ∧ preloading.sec.actState = 1 ∧ preloading.sec.actDone = none ∧ preloading.imgNew.isSome = true ∧ dieUp preloading = true) ∧
    (running (promoting { set := some [1] }) = true ∧ dieBlocked (promoting { set := some [1] }) = false ∧ (promoting { set := some [1] }).wng.adpt.submit = false ∧ submitReason (promoting { set := some [1] }) = none) ∧
    ((planOf (promoting wrong)).promotion = true ∧ (promoting wrong).wng.adpt.dig ≠ (promoting wrong).wng.adpt.cand ∧ (promoting wrong).wng.adpt.submit = false) ∧
    ((promoting { state := 1 }).wng.adpt.state = 1 ∧ dieUp (promoting { state := 1 }) = true) ∧
    ((promoting { steps := 3 }).img.isSome = true ∧ (promoting { steps := 3 }).sec.phase = 6 ∧ (planOf (promoting { steps := 3 })).nCk ≤ (promoting { steps := 3 }).wng.adpt.steps) ∧
    ((promoting wrong).wng.adpt.submit = false ∧ running (promoting wrong) = true ∧ dieBlocked (promoting wrong) = false ∧ (run (.submit secure) (promoting wrong)).wng.adpt.reason = 2 ∧ (run (.submit secure) (promoting { set := some [1] })).wng.adpt.target = 11) ∧
    ((run (.changeover secure) (acting chg {})).sec.actAt = 11 ∧ (run (.changeover secure) preloading).sec.actReason = 0x0F ∧ (run (.cancel secure) preloading).sec.actState = 3 ∧ (run .changeoverPreloadDone preloading).sec.preloaded = true) :=
  ⟨by decide +kernel, by decide +kernel, by decide +kernel, by decide +kernel, by decide +kernel, by decide +kernel, by decide +kernel, by decide +kernel⟩

def mailed (bs : List Byte) (n : Nat) (x : Security) : State := { linked 6 with sec := { x with phase := 6, mboxBuf := memWrites [] 0 bs, mboxLen := n } }
def sess (id n : Nat) : Session := { id := id, key := [], nextReq := n, lastC := 60 }
def closing : State := mailed [5] 4 { sessions := [sess 5 0, sess 6 0] }
def keying : State := mailed ([7, 1, 15] ++ List.replicate 32 9) 35 {}
def owned (u : Nat) (n : Nat) : State := { mailed [2] 1 {} with fuse := { keys := (Vector.replicate 8 ({} : KeySlot)).set 2 { written := true, usage := u } |>.set 3 { written := n == 2, usage := 2 } } }

def anOpening : Opening := { id := 5, alg := false, pk := [], hostNonce := [1], nonce := [2], draw := 3, atC := 60 }
def finishing : State := { mailed [5] 1100 { openings := [anOpening] } with fuse := { keys := (Vector.replicate 8 ({} : KeySlot)).set 2 { written := true, usage := 8, hash := sha3 [] } } }

/-- A state and operands that meet the hypotheses of Obligations.MailboxOperations. -/
theorem witness_mailboxOperations :
    (running (mailed [] 32 {}) = true ∧ (mailed [] 32 {}).sec.mboxLen = 32 ∧ (mailed [] 31 {}).sec.mboxLen ≠ 32 ∧ (mailed [] 31 {}).sec.openings = []) ∧
    ((mailed [44] 1345 {}).sec.mboxLen = 1345 ∧ (memRead (mailed [44] 1345 {}).sec.mboxBuf 0).toNat = 44 ∧ (mailed [44] 1345 {}).sec.openings = [] ∧ (mailed [44] 1345 {}).sec.sessions.length < 4 ∧ running (mailed [44] 1345 {}) = true) ∧
    (running closing = true ∧ secure.secure = true ∧ closing.sec.mboxLen = 4 ∧ (∃ x ∈ closing.sec.sessions, x.id = leAt (memReads closing.sec.mboxBuf 0 4) 0 4) ∧ plain.secure = false) ∧
    (running keying = true ∧ ownerWritten keying = false ∧ keying.sec.mboxLen = 35 ∧ 2 ≤ (7 : Fin 8).val ∧ leAt (memReads keying.sec.mboxBuf 0 35) 0 1 = (7 : Fin 8).val ∧ leAt (memReads keying.sec.mboxBuf 0 35) 2 1 < 16) ∧
    (running (owned 2 2) = true ∧ ownerWritten (owned 2 2) = true ∧ (owned 2 2).sec.mboxLen = 1 ∧ leAt (memReads (owned 2 2).sec.mboxBuf 0 1) 0 1 = (2 : Fin 8).val ∧ ((owned 2 2).fuse.keys[(2 : Fin 8)]).written = true ∧ ((owned 2 2).fuse.keys[(2 : Fin 8)]).revoked = false ∧ (bit ((owned 2 2).fuse.keys[(2 : Fin 8)]).usage 1 = false ∨ 2 ≤ imageKeys (owned 2 2))) ∧
    (closing.sec.sessions.find? (fun y => y.id == (6 : Word).toNat) = some (sess 6 0)) ∧
    (let s := mailed [44] 1345 { sessions := List.replicate 4 (sess 5 0) }; 4 ≤ (s.sec.sessions.filter (sessionLive s)).length ∧ s.sec.openings = [] ∧ (run (.openSession secure) s).sec.mboxStatus = 2 ∧ ((mailed [44] 1345 {}).sec.sessions.filter (sessionLive (mailed [44] 1345 {}))).length < 4) ∧
    (((mailed [5] 4 {}).sec.openings.find? fun o => o.id == leAt (mboxIn (mailed [5] 4 {})) 0 4) = none) ∧
    (running finishing = true ∧ (finishing.sec.openings.find? fun o => o.id == leAt (mboxIn finishing) 0 4) = some anOpening ∧ finishing.c ≤ anOpening.atC + 10000000000 ∧ 1092 ≤ finishing.sec.mboxLen ∧ hostKeyOk finishing anOpening = true) ∧
    (∃ x ∈ closing.sec.sessions, x.id = leAt (memReads closing.sec.mboxBuf 0 4) 0 4 ∧ sessionLive closing x = true) ∧
    (let s := { keying with fuse := { keys := (Vector.replicate 8 ({} : KeySlot)).set 2 { written := true, usage := 2 } } }; ownerWritten s = true ∧ (s.fuse.keys[(7 : Fin 8)]).written = false ∧ secure.secure = true ∧ plain.secure = false ∧ ((run (.keyWrite secure) s).fuse.keys[(7 : Fin 8)]).written = true ∧ (run (.keyWrite plain) s).sec.mboxStatus = 2) ∧
    (onCrown.who = .crown ∧ (keying.fuse.keys[(7 : Fin 8)]).written = false ∧ ((run (.keyWrite onCrown) keying).fuse.keys[(7 : Fin 8)]).written = true) ∧
    (bit ((owned 2 1).fuse.keys[(2 : Fin 8)]).usage 1 = true ∧ imageKeys (owned 2 1) ≤ 1 ∧ (run (.keyRevoke secure) (owned 2 1)).sec.mboxStatus = 2 ∧ ((run (.keyRevoke secure) (owned 2 2)).fuse.keys[(2 : Fin 8)]).revoked = true) :=
  ⟨by decide +kernel, by decide +kernel, by decide +kernel, by decide +kernel, by decide +kernel, by decide +kernel, by decide +kernel, by decide +kernel, by decide +kernel, by decide +kernel, by decide +kernel, by decide +kernel, by decide +kernel⟩

def powered (x : Power) : State := { linked 6 with pwr := { x with held := false }, esc := { fresh := false, beat := 9 }, img := some { plan := { l := 0 } }, cam := { port := (Vector.replicate 16 ({} : CamPort)).set 3 { state := 4 } |>.set 5 { state := 2 } } }

/-- A state and operands that meet the hypotheses of Obligations.PowerRequests. -/
theorem witness_powerRequests :
    ((let s := powered { tgtLo := 11 }; running s = true ∧ secure.secure = true ∧ s.pwr.state = 0 ∧ s.sec.phase = 6 ∧ s.pwr.dieSince = none ∧ s.esc.beat + 2 ≤ landingOf s (join48 s.pwr.tgtLo s.pwr.tgtHi) ∧ promotionBusy s = false ∧ changeoverBusy s = false ∧ allOnTime s = true)) ∧
    ((let s := powered { tgtLo := 10 }; landingOf s (join48 s.pwr.tgtLo s.pwr.tgtHi) < s.esc.beat + 2)) ∧
    ((let s := powered { state := 2 }; running s = true ∧ s.pwr.state = 2 ∧ s.esc.fresh = false ∧ (∀ p : Fin 8, (s.phys[p]).work = none))) ∧
    ((let s := powered { state := 3 }; dieCanReset s = true ∧ s.pwr.state = 3)) ∧
    (let s := powered { tgtLo := 11 }; landingOf s (join48 s.pwr.tgtLo s.pwr.tgtHi) = 11 ∧ (run (.idleRequest secure) s).pwr.idleAt = some 11) :=
  ⟨by decide +kernel, by decide +kernel, by decide +kernel, by decide +kernel, by decide +kernel⟩

def recorded : State := { logEvent (logEvent up { code := 0x0201 }) { code := 0x0300 } with boot := { nvmLog := 3 }, nvm := { log := [default] } }
def logFull : State := { recorded with nvm := { log := List.replicate 3 default } }

/-- A state and operands that meet the hypotheses of Obligations.RecordLogs. -/
theorem witness_recordLogs :
    (running recorded = true ∧ secure.secure = true ∧ recorded.recd.live.length < 8192 ∧ (addressedRecord recorded).isSome = true) ∧
    ((let s := recorded; 0 < s.ret.tailNew ∧ s.nvm.log.length + s.ret.tailNew ≤ s.boot.nvmLog ∧ s.ret.tailNew ≤ s.ret.tail.length)) ∧
    ((let s := logFull; running s = true ∧ 0 < s.ret.tailNew ∧ s.ret.tailNew ≤ s.ret.tail.length ∧ s.nvm.log.length = s.boot.nvmLog)) ∧
    (logFull.recd.nvmAlarm = false ∧ (run .nvmLogAppend logFull).net.alarms.length = 1 ∧ (let s := { logFull with recd := { logFull.recd with nvmAlarm := true } }; s.recd.nvmAlarm = true ∧ (run .nvmLogAppend s).net.alarms = s.net.alarms)) :=
  ⟨by decide +kernel, by decide +kernel, by decide +kernel, by decide +kernel⟩

def blocked : State := { linked 6 with pwr := { held := false, dieSince := some 4 } }
def lockedUp : State := { linked 6 with sec := { phase := 6, mapLocked := true, regLock := 15 } }

/-- A state and operands that meet the hypotheses of Obligations.RegisterAccess. -/
theorem witness_registerAccess :
    (readReg (linked 6) 0x12345670 = none ∧ dieReg 0x20000 = true ∧ dieBlocked blocked = true) ∧
    ((readReg lockedUp 0x60414).isSome = true ∧ (dieReg 0x60414 && dieBlocked lockedUp) = false ∧ regLocked lockedUp 0x60414 = true) ∧
    ((readReg (linked 6) 0).isSome = true ∧ (dieReg 0 && dieBlocked (linked 6)) = false ∧ regLocked (linked 6) 0 = false ∧ regAcc 0 = .ro) ∧
    ((readReg (linked 6) 0xD0004).isSome = true ∧ (dieReg 0xD0004 && dieBlocked (linked 6)) = false ∧ regLocked (linked 6) 0xD0004 = false ∧ regAcc 0xD0004 = .rws ∧ plain.secure = false ∧ notUsed 0xD0004 3 = true) ∧
    (running lockedUp = true ∧ isLo (0x80108 : Word).toNat = true ∧ (readReg lockedUp ((0x80108 : Word).toNat + 4)).isSome = true) :=
  ⟨by decide +kernel, by decide +kernel, by decide +kernel, by decide +kernel, by decide +kernel⟩

def noCrown : State := { linked 6 with recd := { crownWrite := false } }
def halted : State := { linked 6 with sec := { bootHalt := true } }
def reported : State := { recorded with ret := { recorded.ret with intLog := [default] } }

/-- A state and operands that meet the hypotheses of Obligations.CrownCommands. -/
theorem witness_crownCommands :
    (crownLive (linked 6) = true ∧ running (linked 6) = true ∧ (0xD0000 : Word).toNat % 4 = 0 ∧ (0xD0000 : Word).toNat ≠ 0xC0308 ∧ isLo (0xD0000 : Word).toNat = false ∧ (linked 6).cap = [] ∧ (readReg (linked 6) (0xD0000 : Word).toNat).isSome = true ∧ 1 ≤ 8192) ∧
    (running reported = true ∧ reported.ret.intLog[0]? = some default ∧ reported.ret.dump = none) ∧
    (running (linked 6) = true ∧ (0xD0004 : Word).toNat % 4 = 0 ∧ noCrown.recd.crownWrite = false ∧ running noCrown = true ∧ running (linked 7) = true ∧ (linked 7).sec.phase = 7 ∧ (linked 6).sec.phase ≠ 7) ∧
    (ownerWritten (linked 6) = false ∧ 2 ≤ (7 : Fin 8).val ∧ 15 < 16) ∧
    (running (owned 2 2) = true ∧ ownerWritten (owned 2 2) = true) ∧
    (crownLive halted = true ∧ halted.sec.bootHalt = true) ∧
    ((writeReg (dropCapture (linked 6) .crown) { who := .crown } 0x10118 0).2 ≤ 2 ∧ (linked 6).recd.crownWrite = true ∧ (run (.crownWr 0x10118 0) (linked 6)).recd.crownOut.length = 1) :=
  ⟨by decide +kernel, by decide +kernel, by decide +kernel, by decide +kernel, by decide +kernel, by decide +kernel, by decide +kernel⟩

def sessioned : State := { asked with sec := { phase := 6, sessions := [sess 9 3] } }
def resetReq : Req := let r := { ask 0xD0010 with session := 9 }; { r with tag := (sha3 ([] ++ reqBytes r 1 1 [1])).take 16 }

/-- A state and operands that meet the hypotheses of Obligations.ResetCommandsAreSecure. -/
theorem witness_resetCommandsAreSecure :
    (plain.secure = false ∧ secure.secure = true ∧ bit (1 : Word).toNat 0 = true ∧ bit (2 : Word).toNat 0 = false ∧ bit (2 : Word).toNat 1 = true ∧ bits (2 : Word).toNat 0 2 < 3) ∧
    (canAsk sessioned resetReq ∧ resetReq.addr = 0xD0010 ∧ bit (1 : Word).toNat 0 = true) ∧
    (secureSession sessioned resetReq (reqBytes resetReq 1 1 [1]) = some (sess 9 3)) :=
  ⟨by decide +kernel, by decide +kernel, by decide +kernel⟩

def lowEn : State := { linked 7 with start := { pocxpLow := some 60 } }

/-- A state and operands that meet the hypotheses of Obligations.HoldAndHalt. -/
theorem witness_holdAndHalt :
    (running (linked 7) = true ∧ (linked 7).sec.phase = 7) ∧
    (lowEn.start.pocxpLow = some 60 ∧ halted.sec.bootHalt = true) :=
  ⟨by decide +kernel, by decide +kernel⟩

def loading (img : Option Image) : State := { linked 3 with boot := { slotCap := [10000, 10000] }, nvm := { slots := (Vector.replicate 2 ({} : Slot)).set 0 { state := 3, img := img } } }
def badImg : Image := { header := [0] }

/-- A state and operands that meet the hypotheses of Obligations.LoadAndBroadcast. -/
theorem witness_loadAndBroadcast :
    (running (loading none) = true ∧ (loading none).sec.phase = 3 ∧ activeImage (loading none) = none) ∧
    (activeImage (loading (some badImg)) = some badImg) ∧
    (running (linked 4) = true ∧ (linked 4).sec.phase = 4 ∧ (linked 4).start.pass < 7) ∧
    ((loadFail { loading (some badImg) with sec := { (loading (some badImg)).sec with prog := [] } } 10000 badImg).map (fun c => c.reason) = some 2) :=
  ⟨by decide +kernel, by decide +kernel, by decide +kernel, by decide +kernel⟩

def cast : State := { linked 4 with img := some { plan := { l := 7 } }, start := { pass := 1 } }
def starting : State := { run (.broadcastComplete 0xFF 0 0) cast with net := {}, boot := { ports := [] } }

/-- A state and operands that meet the hypotheses of Obligations.ReadyAndFirstBeat. -/
theorem witness_readyAndFirstBeat :
    (cast.img.isSome = true ∧ running cast = true ∧ cast.sec.phase = 4 ∧ 1 ≤ cast.start.pass ∧ cast.start.missing = [] ∧ (∀ p ∈ availWings cast, bit (0xFF : Byte).toNat p = true) ∧ cast.sec.mapLocked = false ∧ cast.start.dieOnly = false) ∧
    (running starting = true ∧ starting.sec.phase = 5 ∧ starting.pwr.dieSince = none ∧ readyMet starting = true ∧ (∀ p : Fin 8, (starting.phys[p]).work = none) ∧ starting.esc.fresh = true) :=
  ⟨by decide +kernel, by decide +kernel⟩

/-! ### Every engine row completes on a small state -/

/-- The descriptor table of the commands below: ROW tensors and C16 feature maps of zeros in the Gallery slice (0 to 15) and in tile 0
(16 on). -/
def engDescs : List Desc :=
  let row := fun (space a fmt d0 d1 pitch : Nat) => ({ addr := 512 * a, space := space, fmt := fmt, d0 := d0, d1 := d1, pitch := pitch } : Desc)
  let map := fun (space a fmt lay d0 d1 d2 : Nat) => ({ addr := 512 * a, space := space, fmt := fmt, layout := lay, d0 := d0, d1 := d1, d2 := d2, pitch := 0 } : Desc)
  [row 0 0 1 32 1 32, row 0 1 1 32 1 32, row 0 2 3 1 1 32,                        -- MM: A, B, C
   map 0 0 1 2 32 1 1, map 0 2 3 1 1 1 1,                                         -- CONV: A, C
   map 0 0 1 2 32 4 4, row 0 8 2 32 16 32, map 0 16 3 1 1 2 2,                    -- WINO2: A, B, C
   map 0 0 12 1 16 6 6, row 0 8 12 16 36 32, map 0 16 12 1 1 4 4,                 -- WINO4: A, B, C
   row 0 0 11 32 1 32, row 0 1 11 32 96 32, row 0 24 11 32 1 32,                  -- PROJ and ATTN: A, B, C
   row 0 25 4 32 1 32, row 0 26 4 32768 1 32768,                                  -- row records, staging
   row 2 0 13 32 1 32, row 2 1 13 32 1 32, row 2 2 13 32 1 32, row 2 3 13 32 1 32,  -- 16: FP32 rows A, B, C, T
   row 2 4 4 32 1 32, row 2 5 1 32 1 32, row 2 6 4 256 1 256,                     -- 20: UINT8, INT8, raw parameters
   map 2 8 13 1 16 4 4, map 2 12 13 1 16 2 2, map 2 14 13 1 16 1 1,               -- 23: FP32 maps 4 × 4, 2 × 2, 1 × 1
   row 2 16 5 16 1 32, row 2 17 13 2 1 32, row 2 18 3 2 1 32, row 2 19 3 1 1 32,  -- 26: UINT16, FP32, INT32 rows
   row 2 20 3 4 1 32, row 2 21 5 32 1 32, row 2 22 5 32 1 32, row 2 24 4 1024 1 1024,  -- 30: HIST, COLSTAT, raw results
   row 2 23 13 1 1 32, row 0 30 13 32 1 32, row 0 31 13 64 1 64, row 0 32 11 32 1 32, row 0 33 13 32 1 32,
   row 0 25 4 8 1 32, row 1 0 1 32 1 32, row 1 1 1 32 1 32, row 2 24 4 64 1 64]    -- 39: one row record, DRAM, the mailbox  -- 34: scores, ATTN_BWD

/-- Command of an opcode with its operands by slot and some parameter words. -/
def engCmd (o : Nat) (ops : List (Nat × Nat)) (words : List (Nat × Nat) := []) : Cmd :=
  let at' := fun (l : List (Nat × Nat)) (dflt j : Nat) => ((l.find? fun x => x.1 == j).map fun x => x.2).getD dflt
  { opcode := o, wcc := 1000000, slot := 1000000, opnd := (List.range 8).map (at' ops 0xFFFF), param := (List.range 8).map (at' words 0) }

def engImg (c : Cmd) (qi : Nat) : Image := { plan := { graceImg.plan with
  jobs := [{ id := 0, galShare := [(0, 16)], tsShare := [(0, 64)], dramShare := (0, 1) }]
  classes := [{ coarse := true }]
  wings := [{ descs := engDescs.map descBytes, asm := { mailBase := 512, mailSize := 64 }, vShare := some 4, qShare := some 0, resultAt := 65536
              tables := [{ queues := List.replicate qi [] ++ [[cmdBytes c]] }], schedule := [0] }] } }

/-- The stream of 32 FP32 zeros (R237, R238): its header, and one record with the CRC-32C of 512 zeros and a mask of 16 zero bytes. -/
def zeroStream : List Byte := [1, 0, 0, 0, 13, 0, 0, 0, 40, 0, 0, 0, 0, 0, 0, 0, 13, 0, 0, 0, 192, 237, 252, 48]

/-- A Wing that is about to issue c on a queue. The row record at block 25 of its slice skips its row, and block 24 of tile 0 holds the
compressed stream of 32 zeros in FP32. -/
def engState (c : Cmd) (qi : Nat) : State :=
  let w : Work := { beat := 0, lw := 0, lc := (Vector.replicate 9 []).set! qi [(0, c)] }
  let s : State := { draining w with esc := { phase := .run, fresh := false }, img := some (engImg c qi), mem := { dramCfg := 0x2000 } }
  updPhys s 0 fun x => { x with gallery := memWrites [] (512 * 25 + 1) [0x80], tileWritten := (Vector.replicate 6 []).set 0 (List.range 64)
                                tiles := (Vector.replicate 6 []).set 0 (memWrites [] (512 * 24) zeroStream) }

/-- The hypotheses of Obligations.EngineCommands for a command at the head of a queue: it may issue, in time, and its own checks pass. -/
def engRuns (c : Cmd) (qi : Nat) : Bool :=
  let s := engState c qi
  match (s.phys[(0 : Fin 8)]).work with
  | some w => dieUp s && decide (queueHead s 0 w qi (cyclesNow s w) = some (false, 0, c)) && !startsLate s w c (cyclesNow s w) &&
      (evalCmd s 0 w qi false 0 c).toOption.isSome
  | none => false

/-- One command of each row of ME, and of the two rows that any queue takes. -/
def meCmds : List Cmd := [
  engCmd 0x10 [(0, 0), (1, 1), (2, 2)] [(3, 0x401)],
  engCmd 0x11 [(0, 3), (1, 1), (2, 4)] [(0, 0x41), (2, 0x10000), (3, 0x401)],
  engCmd 0x12 [(0, 5), (1, 6), (2, 7)] [(0, 0xC3), (2, 0x10000), (3, 0x401)],
  engCmd 0x13 [(0, 8), (1, 9), (2, 10)] [(0, 0xC3), (2, 0x10000), (3, 0x400)],
  engCmd 0x18 [(0, 11), (1, 12), (2, 13), (3, 14), (5, 15)] [(0, 0x10), (3, 0x400)],
  engCmd 0x19 [(0, 11), (2, 13), (3, 14), (5, 15)] [(0, 0x10)],
  engCmd 0x1A [(0, 11), (1, 36), (2, 35), (3, 14), (4, 15), (5, 15), (7, 37)] [(0, 0x10), (1, 38)],
  engCmd 0x1B [(0, 11), (3, 39), (5, 15), (6, 15)] [(0, 0x10)],
  engCmd 0x1C [(0, 14), (2, 13)] [(0, 1)]]
/-- One command of each elementwise row. -/
def vtCmds : List Cmd := [
  engCmd 0x20 [(0, 16), (1, 17), (2, 18)] [(3, 0x20)], engCmd 0x21 [(0, 16), (1, 17), (2, 18)] [(3, 0x20)],
  engCmd 0x22 [(0, 16), (1, 17), (2, 18)] [(3, 0x20)], engCmd 0x23 [(0, 16), (1, 17), (2, 18), (3, 19)] [(3, 0x20)],
  engCmd 0x24 [(0, 16), (1, 17), (2, 18)] [(3, 0x20)], engCmd 0x25 [(0, 16), (1, 17), (2, 18)] [(3, 0x20)],
  engCmd 0x26 [(0, 16), (1, 17), (2, 20)] [(3, 0x20)], engCmd 0x27 [(0, 16), (1, 17), (2, 18), (3, 20)] [(3, 0x20)],
  engCmd 0x28 [(0, 16), (1, 17), (2, 18)] [(3, 0x20)], engCmd 0x29 [(0, 16), (2, 18)] [(3, 0x20)],
  engCmd 0x2A [(0, 16), (2, 18)] [(3, 0x20)], engCmd 0x2B [(0, 16), (2, 18)] [(3, 0x20)],
  engCmd 0x2C [(0, 16), (2, 18)] [(3, 0x20)], engCmd 0x2D [(0, 16), (2, 21), (4, 22)] [(0, 3), (3, 0x20)],
  engCmd 0x2E [(0, 21), (2, 18), (4, 22)] [(0, 3), (3, 0x20)]]
/-- One command of each other vector tile row. -/
def vtCmds2 : List Cmd := [
  engCmd 0x30 [(0, 16), (2, 18), (4, 22)] [(3, 0x20)], engCmd 0x31 [(0, 16), (2, 18), (4, 22)] [(3, 0x20)],
  engCmd 0x32 [(0, 16), (2, 18)] [(3, 0x20)], engCmd 0x34 [(0, 23), (2, 24)] [(0, 0x11082), (3, 0x20)],
  engCmd 0x35 [(0, 23), (2, 24)] [(0, 0x11082), (3, 0x20)], engCmd 0x36 [(0, 23), (2, 25)] [(3, 0x20)],
  engCmd 0x38 [(0, 23), (2, 26)] [(3, 0x20)], engCmd 0x39 [(0, 16), (2, 27), (5, 28)] [(0, 2), (3, 0x20)],
  engCmd 0x3A [(0, 16), (2, 18), (3, 29)], engCmd 0x3B [(0, 20), (2, 30)] [(0, 2)],
  engCmd 0x3C [(0, 31), (2, 33), (3, 32)], engCmd 0x3E [(0, 16), (2, 33)],
  engCmd 0x40 [(0, 34), (4, 22)] [(0, 1), (1, 0x10000)]]

theorem test_matrix_rows_complete : (meCmds.all fun c => engRuns c 0) = true := by decide +kernel

theorem test_elementwise_rows_complete : (vtCmds.all fun c => engRuns c 1) = true := by decide +kernel

theorem test_other_tile_rows_complete : (vtCmds2.all fun c => engRuns c 1) = true := by decide +kernel

set_option maxRecDepth 20000 in
/-- ZDEC of that stream: the CRC-32C of its block is computed. -/
theorem test_zdec_completes : engRuns (engCmd 0x3F [(0, 42), (2, 18)]) 1 = true := by decide +kernel

/-- COPY from the Gallery slice to DRAM, and into the Assembler mailbox, and FILL, on XF0. -/
theorem test_transfer_rows_complete :
    ([engCmd 0x08 [(0, 0), (2, 40)], engCmd 0x08 [(0, 0), (2, 41)], engCmd 0x09 [(2, 18)]].all fun c => engRuns c 7) = true := by decide +kernel

/-! ### The ball grid -/

/-- 16_pins_power_and_package.md, R585 and R587: CXL5_TXP is the P ball of pair 12, at A35, and row 70 is CN. -/
theorem test_ball_of_cxl5 :
    ballUse { row := 1, col := 35 } = .signal { group := .cxl, index := 5, line := 2 } ∧ ballUse { row := 1, col := 34 } = .vss ∧
    rowName 70 = ['C', 'N'] ∧ rowIndex ['B', 'P'] = some 52 := by decide +kernel

/-- 16_pins_power_and_package.md, the totals under R587. -/
theorem test_ball_totals :
    serdesMap.length + lvcmosMap.length + lpddrMap.length = 1595 ∧
    (supplyMap .annexSupply).length + (supplyMap .coreSupply).length + (supplyMap .memSupply).length = 1444 := by decide +kernel

/-! An image that the loader accepts if its signature verifies: header, table and sections written out from R509, R510 and R512. -/

def goodSections : List (List Byte) := [[1], [2], [3], [4], [5], [6], [], [], [9], [10], [], leBytes 1 2 ++ leBytes 1 44 ++ List.replicate 10 0]
def goodEntry (n : Nat) (bs : List Byte) : List Byte :=
  asciiName (sectNames.getD n "") ++ leBytes 4 0 ++ leBytes 8 (1024 + 512 * n) ++ leBytes 8 bs.length ++ leBytes 8 0 ++ sha3 bs
def goodImg : Image := {
  header := ascii "OPCN" ++ leBytes 2 1 ++ leBytes 2 0x0100 ++ leBytes 2 0xD8 ++ leBytes 2 12 ++ leBytes 1 5 ++ leBytes 3 0 ++ leBytes 8 8192 ++ leBytes 8 0
  table := goodSections.zipIdx.map fun x => goodEntry x.2 x.1
  bytes := goodSections
  plan := { l := 1, jobs := [{ id := 0 }]
            wings := [{ descs := [descBytes inDesc], tables := [{ queues := [[cmdBytes nopCmd]], finish := 8 }], schedule := [0], vShare := some 0, qShare := some 0 }] } }

def loadable : State := { loading (some goodImg) with
  fuse := { keys := (Vector.replicate 8 ({} : KeySlot)).set 2 { hash := sha3 [], usage := 2, written := true } }
  mem := { dramCfg := dramWord {} {} 5 } }

theorem goodEntry_digest (n : Nat) (bs : List Byte) : (sectEntry (goodEntry n bs)).digest = sha3 bs := by
  have h : (asciiName (sectNames.getD n "") ++ leBytes 4 0 ++ leBytes 8 (1024 + 512 * n) ++ leBytes 8 bs.length ++ leBytes 8 0).length = 32 := by
    simp only [List.length_append, asciiName, padTo, List.length_take, List.length_replicate, leBytes, List.length_cons, List.length_nil]
    omega
  simp only [sectEntry, goodEntry, padTo, List.drop_left' h, sha3_length, List.take_of_length_le (Nat.le_of_eq (sha3_length bs))]
  simp

theorem goodImg_digestsOk : digestsOk goodImg = true := by
  have h : goodImg.table.zip goodImg.bytes = goodSections.zipIdx.map fun x => (goodEntry x.2 x.1, x.1) := rfl
  rw [digestsOk, h, List.all_map, List.all_eq_true]
  intro x _
  simp [goodEntry_digest]

/-- A state and an image that meet the hypotheses of the first clause of Obligations.LoadAndBroadcast, for every signature scheme under
which the image's signature verifies: the scheme is an opaque function of the configuration. -/
theorem witness_acceptedImage (h : Config.mlDsaVerify false [] "OPCN-IMAGE" (progDigest goodImg) [] = true) :
    running loadable = true ∧ loadable.sec.phase = 3 ∧ activeImage loadable = some goodImg ∧
    loadFail { loadable with sec := { loadable.sec with prog := progDigest goodImg } } (slotCap loadable loadable.nvm.active) goodImg = none := by
  refine ⟨by decide +kernel, by decide +kernel, rfl, ?_⟩
  have hs : signOk { loadable with sec := { loadable.sec with prog := progDigest goodImg } } goodImg = true := by
    have hk : vGet? loadable.fuse.keys (imgSign goodImg).slot = some { hash := sha3 [], usage := 2, written := true } := rfl
    have hp : (imgSign goodImg).pk = [] := by decide +kernel
    have hg : (imgSign goodImg).sig = [] := by decide +kernel
    simp only [signOk]
    rw [hk]
    simp only [hp, hg, h, Bool.and_eq_true]
    exact ⟨⟨by simp; decide, by decide +kernel⟩, trivial⟩
  unfold loadFail firstFail loadChecks
  rw [hs, goodImg_digestsOk, List.find?_eq_none]
  decide +kernel

end Sys2Proof.Tests
end

section
/-! What a command does to the queue, the fuses and C (O5): every command answers a next state, which keeps the queue, moves fuses one way
and holds C below 2^64. One lemma for each command with several branches, in the order of the model's files; those with one guard or none
stand in exec_answers. The rules of Laws/Frame.lean and Laws/Moves.lean do the rest. -/

namespace Sys2Proof.Machine

open Sys2Proof

/-! ### A next state, by its queue, fuses and C -/

/-- The queue k.1, the fuses k.2.1 and the time k.2.2 are where a state may move to (R463, R513). -/
def MovesTo (s : State) (k : List Instr × Fuses × Nat) : Prop :=
  k.1 = s.pending ∧ FuseLe s.fuse k.2.1 ∧ (s.c < 2 ^ 64 → k.2.2 < 2 ^ 64)

theorem moves_iff_movesTo (s t : State) : Moves s t ↔ MovesTo s t.kept := Iff.rfl

/-- The outcome is a next state to which s may move. -/
def Answers (s : State) (o : Host.Outcome State Fault Refusal) : Prop := ∃ t, o = .next t ∧ Moves s t

@[simp] theorem answers_next (s t : State) : Answers s (.next t) ↔ MovesTo s t.kept := by simp [Answers, moves_iff_movesTo]

@[simp] theorem kept_fst (s : State) : s.kept.1 = s.pending := rfl
@[simp] theorem kept_snd_fst (s : State) : s.kept.2.1 = s.fuse := rfl
@[simp] theorem kept_snd_snd (s : State) : s.kept.2.2 = s.c := rfl

@[simp] theorem advance_kept (s : State) (dt : Nat) : (advance s dt).kept = (s.kept.1, s.kept.2.1, (s.kept.2.2 + dt) % 2 ^ 64) := rfl
@[simp] theorem reach_kept (s : State) (t : Nat) : (reach s t).kept = (s.kept.1, s.kept.2.1, Nat.max s.kept.2.2 t % 2 ^ 64) := rfl

@[simp] theorem movesTo_kept (s : State) : MovesTo s s.kept := Moves.refl s

/-- Only time passes; the modulus stands as simp writes 2^64. -/
@[simp] theorem movesTo_time (s : State) (n : Nat) : MovesTo s (s.pending, s.fuse, n % 18446744073709551616) :=
  ⟨rfl, FuseLe.refl _, fun _ => Nat.mod_lt _ (Nat.two_pow_pos 64)⟩

/-- After a device reset C counts from 0 (R463). -/
@[simp] theorem movesTo_zero (s : State) : MovesTo s (s.pending, s.fuse, 0) := ⟨rfl, FuseLe.refl _, fun _ => Nat.two_pow_pos 64⟩

namespace Answers

variable {s t : State} {o o' : Host.Outcome State Fault Refusal}

theorem of_moves (h : Moves s t) : Answers s (.next t) := ⟨t, rfl, h⟩

theorem of_kept (h : t.kept = s.kept) : Answers s (.next t) := .of_moves (.of_kept h)

theorem same (s : State) : Answers s (.next s) := .of_moves (.refl s)

theorem ite {p : Prop} [Decidable p] (h : Answers s o) (k : Answers s o') : Answers s (if p then o else o') := by
  split <;> assumption

end Answers

/-! ### Shared operations -/

@[simp] theorem checkReport_kept (s : State) (p : Port) (good : Bool) : (checkReport s p good).kept = s.kept := by
  simp [checkReport]

@[simp] theorem resetState_kept (s : State) (cause : Nat) : (resetState s cause).kept = (s.kept.1, s.kept.2.1, 0) := rfl

@[simp] theorem deviceReset_kept (s : State) (cause : Nat) (dumped : Bool) :
    (deviceReset s cause dumped).kept = (s.kept.1, s.kept.2.1, 0) := by
  simp [deviceReset]

@[simp] theorem dumpReset_kept (s : State) (cause : Nat) : (dumpReset s cause).kept = (s.kept.1, s.kept.2.1, 0) := by
  simp [dumpReset]

theorem actionWrite_moves (a : Acc) (die : Bool) (s : State) {f : State → State} (hf : ∀ s, Moves s (f s)) :
    Moves s (actionWrite s a die f) :=
  .ite (.refl s) (.ite (.refl s) (.ite (hf s) (.of_kept (violation_kept s))))

/-- A write by an accessor, whose capture it ends (R577). -/
theorem accessorWrite_moves (s : State) (w : Who) (x : Acc) (a : Nat) (v : Word) : Moves s (writeReg (dropCapture s w) x a v).1 :=
  (Moves.of_kept (dropCapture_kept s w)).trans (writeReg_moves ..)

/-- A line for Crown leaves the three alone, whatever state it is said in. -/
theorem Moves.crownLine {s t : State} (h : Moves s t) (line : List Byte) :
    Moves s { t with recd := { t.recd with crownOut := t.recd.crownOut ++ [line] } } :=
  h.then_kept rfl

theorem crownRun_answers {s : State} {f : State → State} (hf : ∀ s, Moves s (f s)) : Answers s (crownRun s f) :=
  .of_moves (.ite (.refl s) (.ite (.of_kept (crownErr_kept s 3)) (hf s)))


/-! ### Resets and the start (R495-R505, R533-R543) -/

theorem execPorstNAssert_answers (s : State) : Answers s (execPorstNAssert s) := by
  unfold execPorstNAssert
  simp

theorem execPocxpHoldRelease_answers (s : State) : Answers s (execPocxpHoldRelease s) := by
  unfold execPocxpHoldRelease
  split <;> simp

theorem execBootHaltReport_answers (s : State) : Answers s (execBootHaltReport s) :=
  .ite (.of_moves ((advance_moves s _).crownLine _)) (.same s)

theorem execDevice_answers (a : Acc) (s : State) : Answers s (execDevice a s) := by
  unfold execDevice
  (repeat' split) <;> simp

theorem execDie_answers (a : Acc) (s : State) : Answers s (execDie a s) := by
  unfold execDie
  (repeat' split) <;> simp

theorem execDieRelease_answers (s : State) : Answers s (execDieRelease s) := by
  unfold execDieRelease
  dsimp only
  (repeat' split) <;> simp

/-! ### Camera ports and lanes (R299-R327) -/

theorem execPwrDelayExpiry_answers (p : Port) (s : State) : Answers s (execPwrDelayExpiry p s) := by
  unfold execPwrDelayExpiry
  split <;> simp

theorem execLaneLock_answers (p : Port) (s : State) : Answers s (execLaneLock p s) := by
  unfold execLaneLock
  split <;> simp

theorem execLockTimeout_answers (p : Port) (s : State) : Answers s (execLockTimeout p s) := by
  unfold execLockTimeout
  split <;> simp

theorem execControlAck_answers (p : Port) (a : Ack) (s : State) : Answers s (execControlAck p a s) := by
  unfold execControlAck
  dsimp only
  (repeat' split) <;> simp

theorem execWaitAckExpiry_answers (p : Port) (s : State) : Answers s (execWaitAckExpiry p s) := by
  unfold execWaitAckExpiry
  dsimp only
  (repeat' split) <;> simp

theorem execSetupWaitExpiry_answers (p : Port) (s : State) : Answers s (execSetupWaitExpiry p s) := by
  unfold execSetupWaitExpiry
  split <;> simp

theorem execErrorRateCheckDone_answers (p : Port) (good : Bool) (s : State) : Answers s (execErrorRateCheckDone p good s) := by
  unfold execErrorRateCheckDone
  (repeat' split) <;> simp

theorem execLockLoss_answers (l : Lane) (s : State) : Answers s (execLockLoss l s) := by
  unfold execLockLoss
  dsimp only
  (repeat' split) <;> simp

theorem execCodeErrorLimit_answers (l : Lane) (s : State) : Answers s (execCodeErrorLimit l s) := by
  unfold execCodeErrorLimit
  dsimp only
  (repeat' split) <;> simp

theorem execHeartbeatTimeout_answers (p : Port) (s : State) : Answers s (execHeartbeatTimeout p s) := by
  unfold execHeartbeatTimeout
  dsimp only
  (repeat' split) <;> simp

theorem execHeartbeat_answers (p : Port) (dt : Nat) (s : State) : Answers s (execHeartbeat p dt s) := by
  unfold execHeartbeat
  dsimp only
  split <;> simp

theorem execFaultInputAssert_answers (p : Port) (s : State) : Answers s (execFaultInputAssert p s) := by
  unfold execFaultInputAssert
  (repeat' split) <;> simp

theorem execFaultInputDeassert_answers (p : Port) (s : State) : Answers s (execFaultInputDeassert p s) := by
  unfold execFaultInputDeassert
  dsimp only
  (repeat' split) <;> simp

theorem execLineFirstPacket_answers (p : Port) (stream dt : Nat) (s : State) : Answers s (execLineFirstPacket p stream dt s) := by
  unfold execLineFirstPacket
  dsimp only
  (repeat' split) <;> simp

theorem execLineComplete_answers (p : Port) (e : LineEnd) (dt : Nat) (s : State) : Answers s (execLineComplete p e dt s) := by
  unfold execLineComplete
  dsimp only
  (repeat' split) <;> simp

theorem execImageHeader_answers (p : Port) (h : Header) (s : State) : Answers s (execImageHeader p h s) := by
  unfold execImageHeader
  (repeat' split) <;> simp

theorem execTriggerEvent_answers (g : Fin 8) (dt : Nat) (s : State) : Answers s (execTriggerEvent g dt s) := by
  unfold execTriggerEvent
  dsimp only
  (repeat' split) <;> simp

theorem execEyeScanDone_answers (l : Lane) (below at' above : Nat) (s : State) : Answers s (execEyeScanDone l below at' above s) := by
  unfold execEyeScanDone
  (repeat' split) <;> simp

theorem execPeakingChange_answers (l : Lane) (s : State) : Answers s (execPeakingChange l s) := by
  unfold execPeakingChange
  dsimp only
  (repeat' split) <;> simp

/-! ### Image pipelines (R330-R345) -/

theorem execPipeLineDone_answers (q : Pipe) (s : State) : Answers s (execPipeLineDone q s) := by
  unfold execPipeLineDone
  (repeat' split) <;> simp

theorem execPipeLineTimeout_answers (q : Pipe) (s : State) : Answers s (execPipeLineTimeout q s) := by
  unfold execPipeLineTimeout
  (repeat' split) <;> simp

/-! ### Beat edges, drains and the grace (R17-R35) -/

theorem execWingDrained_answers (p : PWing) (dt : Nat) (s : State) : Answers s (execWingDrained p dt s) := by
  unfold execWingDrained
  (repeat' split) <;> simp

/-! ### Self-test of a Wing (R438-R443) -/

theorem execLatestStartMiss_answers (p : PWing) (q : Queue) (s : State) : Answers s (execLatestStartMiss p q s) := by
  unfold execLatestStartMiss
  (repeat' split) <;> simp

theorem execProgressCheckpointMiss_answers (p : PWing) (q : Queue) (j : Nat) (s : State) :
    Answers s (execProgressCheckpointMiss p q j s) := by
  unfold execProgressCheckpointMiss
  dsimp only
  (repeat' split) <;> simp

theorem execSoftResetComplete_answers (p : PWing) (s : State) : Answers s (execSoftResetComplete p s) := by
  unfold execSoftResetComplete
  (repeat' split) <;> simp

theorem execSoftResetTimeout_answers (p : PWing) (s : State) : Answers s (execSoftResetTimeout p s) := by
  unfold execSoftResetTimeout
  (repeat' split) <;> simp

theorem execIsolationAckTimeout_answers (p : PWing) (s : State) : Answers s (execIsolationAckTimeout p s) := by
  unfold execIsolationAckTimeout
  (repeat' split) <;> simp

theorem execBistStepComplete_answers (p : PWing) (r : BistResult) (s : State) : Answers s (execBistStepComplete p r s) := by
  unfold execBistStepComplete
  (repeat' split) <;> simp

theorem execFuseBurnComplete_answers (good : Bool) (s : State) : Answers s (execFuseBurnComplete good s) :=
  .ite (.of_moves ((Moves.foldl _ (burnWing_moves good) allP s).then_kept (by simp))) (.same s)

/-! ### Adapters (R285-R291) -/

theorem execAdapterCandidate_answers (s : State) : Answers s (execAdapterCandidate s) := by
  unfold execAdapterCandidate
  (repeat' split) <;> simp

/-! ### Supply and temperature (R434-R436, R592, R593, R600) -/

theorem execSupplyResetLevel_answers (r : Rail) (s : State) : Answers s (execSupplyResetLevel r s) := by
  unfold execSupplyResetLevel
  dsimp only
  (repeat' split) <;> simp

theorem execAvsSetpointChange_answers (mv : Nat) (answered : Bool) (s : State) : Answers s (execAvsSetpointChange mv answered s) := by
  unfold execAvsSetpointChange
  (repeat' split) <;> simp

/-! ### Ethernet and time (R458-R467) -/

theorem execTsReport_answers (e : EthPort) (s : State) : Answers s (execTsReport e s) := by
  unfold execTsReport
  dsimp only
  (repeat' split) <;> simp

theorem execEthLinkUp_answers (e : EthPort) (rate : Fin 4) (s : State) : Answers s (execEthLinkUp e rate s) := by
  unfold execEthLinkUp
  (repeat' split) <;> simp

theorem execBlockLockLoss_answers (e : EthPort) (s : State) : Answers s (execBlockLockLoss e s) := by
  unfold execBlockLockLoss
  (repeat' split) <;> simp

/-! ### Inputs, the ejector calendar and the valve frames (R386-R399) -/

theorem execCalendarWindow_answers (dt : Nat) (s : State) : Answers s (execCalendarWindow dt s) := by
  unfold execCalendarWindow
  simp

theorem execChannelLimitExpiry_answers (valve : Bool) (n : Fin 1024) (s : State) : Answers s (execChannelLimitExpiry valve n s) := by
  unfold execChannelLimitExpiry
  (repeat' split) <;> simp

theorem execStatusPulseExpiry_answers (n : Chan) (s : State) : Answers s (execStatusPulseExpiry n s) := by
  unfold execStatusPulseExpiry
  dsimp only
  (repeat' split) <;> simp

/-! ### The start (R503-R519) -/

theorem execBringupGatePass_answers (g : GateResult) (s : State) : Answers s (execBringupGatePass g s) := by
  unfold execBringupGatePass
  (repeat' split) <;> simp

theorem execStartupTestComplete_answers (t : StartTest) (s : State) : Answers s (execStartupTestComplete t s) := by
  have tested := Moves.foldl (testWing t) (testWing_moves t) allP s
  unfold execStartupTestComplete
  split
  · dsimp only
    split
    · exact .of_moves (tested.then_kept (by simp))
    split
    · exact .of_moves (tested.then_kept (by simp))
    · exact .ite (.of_moves (tested.then_kept (by simp))) (.of_moves (tested.then_kept (by simp)))
  · exact .same s

theorem execImageLoadComplete_answers (s : State) : Answers s (execImageLoadComplete s) := by
  unfold execImageLoadComplete
  dsimp only
  (repeat' split) <;> simp

theorem execBroadcastPassEnd_answers (missing : List (PWing × List Nat)) (s : State) : Answers s (execBroadcastPassEnd missing s) := by
  unfold execBroadcastPassEnd
  dsimp only
  (repeat' split) <;> simp

theorem execBroadcastComplete_answers (matching : Byte) (ab : Byte) (inputs : Dword) (s : State) :
    Answers s (execBroadcastComplete matching ab inputs s) := by
  unfold execBroadcastComplete
  dsimp only
  (repeat' split) <;> simp

/-! ### Image staging and activation (R525-R532) -/

theorem execImgNack_answers (s : State) : Answers s (execImgNack s) := by
  unfold execImgNack
  (repeat' split) <;> simp

theorem execStagingVerifyDone_answers (img : Image) (s : State) : Answers s (execStagingVerifyDone img s) := by
  unfold execStagingVerifyDone
  (repeat' split) <;> simp

theorem execChangeoverPreloadDone_answers (s : State) : Answers s (execChangeoverPreloadDone s) := by
  unfold execChangeoverPreloadDone
  (repeat' split) <;> simp

/-! ### Sessions (R522) -/

theorem execSessionIdleTimeout_answers (id : Word) (s : State) : Answers s (execSessionIdleTimeout id s) := by
  unfold execSessionIdleTimeout
  (repeat' split) <;> simp

/-! ### Records (R555, R563) -/

theorem execNvmLogAppend_answers (s : State) : Answers s (execNvmLogAppend s) := by
  unfold execNvmLogAppend
  dsimp only
  (repeat' split) <;> simp

/-! ### Crown (R561, R562) -/

theorem execCrownRd_answers (addr : Word) (n : Nat) (s : State) : Answers s (execCrownRd addr n s) :=
  crownRun_answers fun s => .ite (.of_kept (by simp)) (.of_kept (by simp))

theorem execCrownWr_answers (addr v : Word) (s : State) : Answers s (execCrownWr addr v s) := by
  refine crownRun_answers fun s => .ite (.of_kept (by simp)) (.ite (.of_kept (by simp)) ?_)
  have written := accessorWrite_moves s .crown { who := .crown } addr.toNat v
  dsimp only
  split
  all_goals exact written.then_kept (by simp)

theorem execCrownLog_answers (n : Nat) (s : State) : Answers s (execCrownLog n s) :=
  crownRun_answers fun s => .ite (.of_kept (by simp)) (.of_kept (by simp))

theorem execCrownIlog_answers (i : Nat) (s : State) : Answers s (execCrownIlog i s) :=
  crownRun_answers fun s => by
    split <;> exact .of_kept (by simp)

theorem execCrownDump_answers (raw : Bool) (s : State) : Answers s (execCrownDump raw s) :=
  crownRun_answers fun s => by
    split <;> exact .of_kept (by simp)

theorem execCrownResetDev_answers (s : State) : Answers s (execCrownResetDev s) := by
  unfold execCrownResetDev
  (repeat' split) <;> simp

theorem execCrownResetDie_answers (s : State) : Answers s (execCrownResetDie s) :=
  crownRun_answers fun s => .ite (.of_kept (by simp)) (.of_kept (by simp))

theorem execCrownKey_answers (slot : Nat) (alg : Bool) (usage : Nat) (hash : Digest) (s : State) :
    Answers s (execCrownKey slot alg usage hash s) :=
  crownRun_answers fun s => .ite (.of_kept (by simp))
    (.ite ((writeKey_moves s slot alg usage hash).then_kept (by simp)) (.of_kept (by simp)))

theorem execCrownBaud_answers (n : Nat) (s : State) : Answers s (execCrownBaud n s) :=
  crownRun_answers fun s => .ite (.of_kept (by simp)) (.of_kept (by simp))

theorem execCrownLineError_answers (e : LineError) (s : State) : Answers s (execCrownLineError e s) :=
  crownRun_answers fun s => .of_kept (by simp)

/-! ### Encoders (R374-R384) -/

theorem execEncoderStep_answers (ch : EncCh) (fa fb : Bool) (dt : Nat) (s : State) : Answers s (execEncoderStep ch fa fb dt s) := by
  unfold execEncoderStep
  dsimp only
  (repeat' split) <;> simp

theorem execIndexEdge_answers (ch : EncCh) (s : State) : Answers s (execIndexEdge ch s) := by
  unfold execIndexEdge
  dsimp only
  (repeat' split) <;> simp

theorem execPositionWord_answers (ch : EncCh) (w : PosWord) (s : State) : Answers s (execPositionWord ch w s) := by
  unfold execPositionWord
  dsimp only
  (repeat' split) <;> simp

theorem execStartBitTimeout_answers (ch : EncCh) (s : State) : Answers s (execStartBitTimeout ch s) := by
  unfold execStartBitTimeout
  dsimp only
  (repeat' split) <;> simp

theorem execSincosSample_answers (ch : EncCh) (sn cs : Int) (dt : Nat) (s : State) : Answers s (execSincosSample ch sn cs dt s) := by
  unfold execSincosSample
  dsimp only
  (repeat' split) <;> simp

/-! ### Line data (R364) -/

theorem execLineDataTimeout_answers (h : Fin 8) (msgId : Nat) (s : State) : Answers s (execLineDataTimeout h msgId s) := by
  unfold execLineDataTimeout
  (repeat' split) <;> simp

/-! ### Datagrams to the hosts (R472-R477) -/

theorem execVerdictSend_answers (s : State) : Answers s (execVerdictSend s) := by
  unfold execVerdictSend
  dsimp only
  (repeat' split) <;> simp

theorem execTelemetry_answers (job : Option (Byte × List Byte)) (full : Bool) (s : State) : Answers s (execTelemetry job full s) := by
  unfold execTelemetry
  dsimp only
  (repeat' split) <;> simp

theorem execTrace_answers (src : Byte) (bytes : List Byte) (full : Bool) (s : State) : Answers s (execTrace src bytes full s) := by
  unfold execTrace
  dsimp only
  (repeat' split) <;> simp

theorem execProvisionalSend_answers (room : Nat) (s : State) : Answers s (execProvisionalSend room s) := by
  unfold execProvisionalSend
  dsimp only
  (repeat' split) <;> simp

theorem execRetractSend_answers (displaced : Nat) (s : State) : Answers s (execRetractSend displaced s) := by
  unfold execRetractSend
  (repeat' split) <;> simp

theorem execMarkSend_answers (displaced : Nat) (s : State) : Answers s (execMarkSend displaced s) := by
  unfold execMarkSend
  (repeat' split) <;> simp

theorem execIdleMark_answers (displaced : Nat) (s : State) : Answers s (execIdleMark displaced s) := by
  unfold execIdleMark
  dsimp only
  (repeat' split) <;> simp

/-! ### Peers (R485-R488) -/

theorem execPeerTimeout_answers (peer : Fin 16) (s : State) : Answers s (execPeerTimeout peer s) := by
  unfold execPeerTimeout
  dsimp only
  (repeat' split) <;> simp

/-! ### Frames (R470) -/

theorem execFrameRx_answers (e : EthPort) (f : Frame) (dt : Nat) (s : State) : Answers s (execFrameRx e f dt s) := by
  unfold execFrameRx
  split
  · exact .same s
  cases f with
  | olp b => exact .of_moves ((advance_moves s dt).trans (olpIn_moves ..))
  | _ => simp

/-! ### Every command -/

/-- Every command answers a next state, which keeps the queue, moves fuses one way and holds C below 2^64. -/
theorem exec_answers (i : Instr) (s : State) : Answers s (exec i s) := by
  cases i with
  | warmNAssert | porstNRelease | gateTimeout | ready | holdNotice | beatEdgeTime | beatEdgeEncoder | beatEdgePmax | speedHold
  | graceExpiry | landingComplete | landingGuardExpiry | isolationAck | assemblerTimeout | transactionTimeout | domainDrainTimeout
  | supplyWarning | supplyRecover | thermalHigh | thermalTrip | thermalRecover | thermalLow | attemptStart | controlTimeout
  | holdoffExpiry | eventPacket | lineData | positionRequest | encoderFaultClear | inputEdge | valveFrame | syncRx
  | syncReceiptTimeout | ethPcsCheck | eventSend | stagingTimeout | adapterStagingDone | recDataRead | retentionMirror
  | dieToDieLinkFailure | ethLinkDown | gptpTxInterval =>
    exact .ite (by simp) (by simp)
  | nop | sync | copy | fill | assemblerCopy | mm | conv | wino2 | wino4 | proj | attn | attnBwd | retr | seq | add | sub | mul
  | fma | min | max | cmp | sel | div | sqrt | rsqrt | act | cvt | qnt | dqnt | lnorm | rmsnorm | softmax | maxpool | avgpool
  | gpool | argmax | topk | gather | hist | colstat | zcomp | zdec | verdict =>
    exact .of_moves (engineStep_moves ..)
  | commandRepeat => exact .of_moves (repeatStep_moves ..)
  | sealingTimeout | calendarFrameMiss | watchdogExpiry | fatalFirmwareError =>
    exact .ite (.of_moves (dumpReset_moves ..)) (.same s)
  | bistStart | fuseBurn | relink | stop | ispTblData | commitMain | commitGain | alarmSend | markRx | provisionalRx | retractRx
  | imgOffer | imgData | imgPassEnd | arm | abort | changeover | cancel | getCert | attest | openSession | finish | close
  | secMboxData | submit | adapterCancel | idleRequest | runRequest | standbyRequest | clearLive | clearNvm | clearDump
  | integrityLogClear | loWordCapture | crownId | pipeResetComplete | avsSetpointComplete | announceReceiptTimeout | railsInRange =>
    exact .of_kept (by simp)
  | iioHostWrite | registerWrite => exact .of_moves (.ite (accessorWrite_moves ..) (.refl s))
  | mgmtRead | mgmtWrite | mgmtReadBlock | mgmtWriteBlock => exact .of_moves (mgmtIn_moves ..)
  | commit => exact .of_moves (actionWrite_moves _ _ _ commitCore_moves)
  | activationDeviceReset => exact .of_moves (actionWrite_moves _ _ _ fun _ => deviceReset_moves ..)
  | activationSwitchSlot =>
    exact .of_moves (actionWrite_moves _ _ _ fun s => (Moves.of_kept (switchSlot_kept s)).trans (deviceReset_moves ..))
  | keyWrite => exact .of_moves (.ite (opKeyWrite_moves ..) (.refl s))
  | keyRevoke => exact .of_moves (.ite (opKeyRevoke_moves ..) (.refl s))
  | mboxNoOperation => exact .of_moves (.ite (mboxGo_moves ..) (.refl s))
  | porstNAssert => exact execPorstNAssert_answers s
  | bringupGatePass g => exact execBringupGatePass_answers g s
  | startupTestComplete t => exact execStartupTestComplete_answers t s
  | imageLoadComplete => exact execImageLoadComplete_answers s
  | broadcastPassEnd missing => exact execBroadcastPassEnd_answers missing s
  | broadcastComplete matching ab inputs => exact execBroadcastComplete_answers matching ab inputs s
  | pocxpHoldRelease => exact execPocxpHoldRelease_answers s
  | wingDrained p dt => exact execWingDrained_answers p dt s
  | softResetComplete p => exact execSoftResetComplete_answers p s
  | softResetTimeout p => exact execSoftResetTimeout_answers p s
  | isolationAckTimeout p => exact execIsolationAckTimeout_answers p s
  | latestStartMiss p q => exact execLatestStartMiss_answers p q s
  | progressCheckpointMiss p q j => exact execProgressCheckpointMiss_answers p q j s
  | pipeLineTimeout q => exact execPipeLineTimeout_answers q s
  | dieRelease => exact execDieRelease_answers s
  | bistStepComplete p r => exact execBistStepComplete_answers p r s
  | fuseBurnComplete ok => exact execFuseBurnComplete_answers ok s
  | supplyResetLevel r => exact execSupplyResetLevel_answers r s
  | avsSetpointChange mv answered => exact execAvsSetpointChange_answers mv answered s
  | pwrDelayExpiry p => exact execPwrDelayExpiry_answers p s
  | laneLock p => exact execLaneLock_answers p s
  | lockTimeout p => exact execLockTimeout_answers p s
  | controlAck p a => exact execControlAck_answers p a s
  | waitAckExpiry p => exact execWaitAckExpiry_answers p s
  | setupWaitExpiry p => exact execSetupWaitExpiry_answers p s
  | errorRateCheckDone p ok => exact execErrorRateCheckDone_answers p ok s
  | lockLoss l => exact execLockLoss_answers l s
  | codeErrorLimit l => exact execCodeErrorLimit_answers l s
  | heartbeatTimeout p => exact execHeartbeatTimeout_answers p s
  | heartbeat p dt => exact execHeartbeat_answers p dt s
  | faultInputAssert p => exact execFaultInputAssert_answers p s
  | faultInputDeassert p => exact execFaultInputDeassert_answers p s
  | lineFirstPacket p stream dt => exact execLineFirstPacket_answers p stream dt s
  | lineComplete p e dt => exact execLineComplete_answers p e dt s
  | imageHeader p h => exact execImageHeader_answers p h s
  | pipeLineDone q => exact execPipeLineDone_answers q s
  | triggerEvent g dt => exact execTriggerEvent_answers g dt s
  | eyeScanDone l below at' above => exact execEyeScanDone_answers l below at' above s
  | peakingChange l => exact execPeakingChange_answers l s
  | lineDataTimeout h msgId => exact execLineDataTimeout_answers h msgId s
  | encoderStep ch fa fb dt => exact execEncoderStep_answers ch fa fb dt s
  | indexEdge ch => exact execIndexEdge_answers ch s
  | positionWord ch w => exact execPositionWord_answers ch w s
  | startBitTimeout ch => exact execStartBitTimeout_answers ch s
  | sincosSample ch sn cs dt => exact execSincosSample_answers ch sn cs dt s
  | statusPulseExpiry n => exact execStatusPulseExpiry_answers n s
  | calendarWindow dt => exact execCalendarWindow_answers dt s
  | channelLimitExpiry valve n => exact execChannelLimitExpiry_answers valve n s
  | frameRx e f dt => exact execFrameRx_answers e f dt s
  | ethLinkUp e rate => exact execEthLinkUp_answers e rate s
  | blockLockLoss e => exact execBlockLockLoss_answers e s
  | verdictSend => exact execVerdictSend_answers s
  | telemetry job full => exact execTelemetry_answers job full s
  | trace src bytes full => exact execTrace_answers src bytes full s
  | tsReport e => exact execTsReport_answers e s
  | provisionalSend room => exact execProvisionalSend_answers room s
  | retractSend displaced => exact execRetractSend_answers displaced s
  | markSend displaced => exact execMarkSend_answers displaced s
  | idleMark displaced => exact execIdleMark_answers displaced s
  | peerTimeout peer => exact execPeerTimeout_answers peer s
  | imgNack => exact execImgNack_answers s
  | stagingVerifyDone img => exact execStagingVerifyDone_answers img s
  | sessionIdleTimeout id => exact execSessionIdleTimeout_answers id s
  | adapterCandidate => exact execAdapterCandidate_answers s
  | device a => exact execDevice_answers a s
  | die a => exact execDie_answers a s
  | nvmLogAppend => exact execNvmLogAppend_answers s
  | crownRd addr n => exact execCrownRd_answers addr n s
  | crownWr addr v => exact execCrownWr_answers addr v s
  | crownLog n => exact execCrownLog_answers n s
  | crownIlog n => exact execCrownIlog_answers n s
  | crownDump raw => exact execCrownDump_answers raw s
  | crownResetDev => exact execCrownResetDev_answers s
  | crownResetDie => exact execCrownResetDie_answers s
  | crownKey slot alg usage hash => exact execCrownKey_answers slot alg usage hash s
  | crownBaud n => exact execCrownBaud_answers n s
  | crownLineError e => exact execCrownLineError_answers e s
  | bootHaltReport => exact execBootHaltReport_answers s
  | changeoverPreloadDone => exact execChangeoverPreloadDone_answers s

/-- A step moves the fuses one way: a command by exec_answers, and an idle nanosecond leaves them. -/
theorem step_fuseLe {s t : State} (h : step s = .next t) : FuseLe s.fuse t.fuse := by
  unfold step at h
  split at h
  · cases h
    exact .refl _
  next i rest _ =>
    obtain ⟨u, hu, -, hf, -⟩ := exec_answers i { s with pending := rest }
    cases h.symm.trans hu
    exact hf

/-- Settles O5: the one way that a step moves fuses is transitive. -/
theorem stepMovesFusesOneWay : Obligations.StepMovesFusesOneWay :=
  fun _ _ _ before h => before.trans (step_fuseLe h)

end Sys2Proof.Machine
end

section
/-! Temperatures outside the grade (O37). -/

namespace Sys2Proof.Machine

open Sys2Proof

theorem tjEvent_recordsOnly (s : State) : RecordsOnly s (tjEvent s) := .ite (otherEvent_recordsOnly ..) (.refl s)

theorem exec_thermalHigh {tj : Int} {s : State} (h : tjMax s ≤ tj) :
    exec (.thermalHigh tj) s = .next (tjEvent { s with therm := { s.therm with tj := tj }, pins := { s.pins with thermLow := true } }) :=
  if_pos h

theorem exec_thermalLow {tj : Int} {s : State} (h : tj < tjMin s) :
    exec (.thermalLow tj) s = .next (tjEvent { s with therm := { s.therm with tj := tj } }) := if_pos h

/-- A device that is not held does not boot again when it cools. -/
theorem exec_thermalRecover {tj : Int} {s : State} (h : tj ≤ tjMax s - 40) (running : s.pwr.held = false) :
    exec (.thermalRecover tj) s = .next { s with
      therm := { s.therm with tj := tj }, pins := { s.pins with thermLow := false }, pwr := { s.pwr with hot := false } } := by
  simp [exec, execThermalRecover, h, running]

/-- Settles O37: a reading above or below the grade is one recorded event, and one that has cooled is none. -/
theorem temperature : Obligations.Temperature :=
  ⟨fun _ _ h => ⟨_, exec_thermalHigh h, tjEvent_recordsOnly _⟩, fun _ _ h => ⟨_, exec_thermalLow h, tjEvent_recordsOnly _⟩,
    fun _ _ => exec_thermalRecover⟩

end Sys2Proof.Machine
end

section
/-! How a register answers a write, and what a read of one word leaves (O57, O59, O7). -/

namespace Sys2Proof.Machine

open Sys2Proof

/-! ### Writes (R571-R574, R583) -/

section
variable {s : State} {x : Acc} {a : Nat} {v : Word}

theorem writeReg_of_unmapped (h : readReg s a = none) : writeReg s x a v = (s, 1) := by simp [writeReg, h]

theorem writeReg_of_blocked (hd : dieReg a = true) (hb : dieBlocked s = true) : writeReg s x a v = (s, 1) := by
  simp [writeReg, hd, hb]

variable (mapped : (readReg s a).isSome = true) (acts : (dieReg a && dieBlocked s) = false)
include mapped acts

theorem writeReg_of_locked (locked : regLocked s a = true) : writeReg s x a v = (violation s, 2) := by
  simp [writeReg, Option.isNone_eq_false_iff.2 mapped, acts, locked]

variable (unlocked : regLocked s a = false)
include unlocked

theorem writeReg_of_ro (h : regAcc a = .ro) : writeReg s x a v = (s, 0) := by
  simp [writeReg, Option.isNone_eq_false_iff.2 mapped, acts, unlocked, h]

theorem writeReg_of_nonsecure (h : regAcc a = .rws) (world : x.secure = false) : writeReg s x a v = (violation s, 2) := by
  simp [writeReg, Option.isNone_eq_false_iff.2 mapped, acts, unlocked, h, world]

theorem writeReg_of_notUsed (h : regAcc a = .rws) (world : x.secure = true) (value : notUsed a v = true) :
    writeReg s x a v = (s, 3) := by
  simp [writeReg, Option.isNone_eq_false_iff.2 mapped, acts, unlocked, h, world, value]
end

/-! ### Reads and captures (R577) -/

/-- No register reads the captures. -/
theorem readReg_cap (s : State) (cap : List Capture) (a : Nat) : readReg { s with cap := cap } a = readReg s a := by
  unfold readReg
  split <;> rfl

/-- One read ends the accessor's capture, and that of a LO word takes its HI word; the mailbox's data register also moves its index. -/
theorem readWord_state {s : State} {w : Who} {a : Nat} (h : a ≠ 0xC0308) :
    (readWord s w a).2 = { s with cap := if isLo a then { who := w, lo := a, hi := (readReg s (a + 4)).getD 0 } :: (dropCapture s w).cap
      else (dropCapture s w).cap } := by
  simp only [readWord, if_neg h]
  split <;> rfl

/-- The HI word after a capture reads what was captured, where it is mapped. -/
theorem readWord_captured {s : State} {c : Capture} {cap : List Capture} (hc : s.cap = c :: cap) (h : (readReg s (c.lo + 4)).isSome = true) :
    (readWord s c.who (c.lo + 4)).1 = some c.hi := by
  obtain ⟨v, hv⟩ := Option.isSome_iff_exists.1 h
  simp [readWord, hc, hv]

theorem isLo_ne_mboxData {a : Nat} (h : isLo a = true) : a ≠ 0xC0308 := by
  rintro rfl
  exact absurd h (by decide)

/-- An accessor who reads a LO word then reads the HI word of that instant. -/
theorem readWord_lo_hi {s : State} {w : Who} {a : Nat} (lo : isLo a = true) (hi : (readReg s (a + 4)).isSome = true) :
    (readWord (readWord s w a).2 w (a + 4)).1 = readReg s (a + 4) := by
  obtain ⟨v, hv⟩ := Option.isSome_iff_exists.1 hi
  rw [readWord_state (isLo_ne_mboxData lo), if_pos lo, hv]
  exact readWord_captured (c := { who := w, lo := a, hi := v }) rfl ((readReg_cap s _ _).symm ▸ hi)

/-! ### The statements -/

/-- Settles O7: each value is the fresh state's, by evaluation. -/
theorem resetRegisters : Obligations.ResetRegisters :=
  ⟨rfl, rfl, rfl, rfl, rfl, rfl, rfl, by decide⟩

/-- Settles O59: ID_PART is mapped in every state, belongs to the Annex, has no lock and only RO fields. -/
theorem idPartWritesIgnored : Obligations.IdPartWritesIgnored := by
  intro s x v
  have h : writeReg s x 0 v = (s, 0) := writeReg_of_ro rfl rfl rfl rfl
  exact ⟨h, by rw [h]⟩

/-- Settles O57: the order in which writeReg asks, and the capture of a read. -/
theorem registerAccess : Obligations.RegisterAccess := by
  unfold Obligations.RegisterAccess
  refine ⟨fun s x a v => writeReg_of_unmapped, fun s x a v => writeReg_of_blocked, fun s x a v => writeReg_of_locked,
    fun s x a v mapped acts unlocked => ⟨?ro, ?nonsecure, ?notUsed⟩, fun s x v => ⟨rfl, rfl, rfl⟩,
    fun a addr v s run => ?write, fun a addr s run lo => ?capture, fun s w a h => ⟨_, readWord_state h⟩⟩
  case ro => exact writeReg_of_ro mapped acts unlocked
  case nonsecure => exact writeReg_of_nonsecure mapped acts unlocked
  case notUsed => exact writeReg_of_notUsed mapped acts unlocked
  case write => simp [exec, execRegisterWrite, run]
  case capture =>
    refine ⟨(readWord s a.who addr.toNat).2, by simp [exec, execLoWordCapture, run, lo], ?_, readWord_lo_hi lo⟩
    rw [readWord_state (isLo_ne_mboxData lo)]

end Sys2Proof.Machine
end

section
/-! The edge of a Beat whose Wings have all finished (O22): what closing the interval leaves alone, and what the edge latches. -/

namespace Sys2Proof.Machine

open Sys2Proof

/-! ### Stores by a unit (R518) -/

/-- t is s with at most memory and the violations written. -/
def StoresOnly (s t : State) : Prop := ∃ (mem : Mem) (sec : Security), t = { s with mem := mem, sec := sec }

theorem StoresOnly.refl (s : State) : StoresOnly s s := ⟨_, _, rfl⟩

theorem StoresOnly.trans {s t u : State} (h : StoresOnly s t) (k : StoresOnly t u) : StoresOnly s u := by
  obtain ⟨_, _, rfl⟩ := h
  obtain ⟨_, _, rfl⟩ := k
  exact ⟨_, _, rfl⟩

theorem StoresOnly.foldl {α : Type} {f : State → α → State} (hf : ∀ s x, StoresOnly s (f s x)) (l : List α) (s : State) :
    StoresOnly s (l.foldl f s) := by
  induction l generalizing s with
  | nil => exact .refl s
  | cons x l ih => exact (hf s x).trans (ih _)

/-- What a unit's store sees of the state: memory, and the map in force. -/
def SameStore (s u : State) : Prop := u.mem = s.mem ∧ u.sec = s.sec

/-- A unit's write stores its bytes or records a violation. -/
theorem unitWrite_storesOnly (s : State) (secure : SecMap → Bool) (a : Nat) (bs : List Byte) : StoresOnly s (unitWrite s secure a bs) := by
  unfold unitWrite
  repeat' split
  all_goals exact ⟨_, _, rfl⟩

theorem unitWrite_planOf (s : State) (secure : SecMap → Bool) (a : Nat) (bs : List Byte) : planOf (unitWrite s secure a bs) = planOf s := by
  obtain ⟨_, _, h⟩ := unitWrite_storesOnly s secure a bs
  rw [h]
  rfl

theorem unitWrite_sameStore {s u : State} (h : SameStore s u) (secure : SecMap → Bool) (a : Nat) (bs : List Byte) :
    SameStore (unitWrite s secure a bs) (unitWrite u secure a bs) := by
  obtain ⟨hm, hs⟩ := h
  have map : openUnit u secure = openUnit s secure := by simp [openUnit, mapInForce, hs]
  simp only [unitWrite, map]
  repeat' split
  all_goals simp [SameStore, violation, dramWrite, hm, hs]

theorem foldl_unitWrite_sameStore {α : Type} (secure : SecMap → Bool) (a : α → Nat) (bs : α → List Byte) (l : List α) {s u : State}
    (h : SameStore s u) :
    SameStore (l.foldl (fun s x => unitWrite s secure (a x) (bs x)) s) (l.foldl (fun s x => unitWrite s secure (a x) (bs x)) u) := by
  induction l generalizing s u with
  | nil => exact h
  | cons x l ih => exact ih (unitWrite_sameStore h secure (a x) (bs x))

/-! ### Closing a capture interval (R281, R365, R488) -/

theorem closeAreas_storesOnly (s : State) (i : Nat) : StoresOnly s (closeAreas s i) := by
  unfold closeAreas
  refine .trans ?_ (.foldl (fun s x => unitWrite_storesOnly ..) _ _)
  split
  · exact unitWrite_storesOnly ..
  · exact .refl s

/-- What the areas of interval i take depends on memory, the map, the plan, and the messages of that interval alone. -/
theorem closeAreas_sameStore {s u : State} {i : Nat} (h : SameStore s u) (img : u.img = s.img)
    (lines : (u.isp.ldArea.filter fun x => x.1 == i) = s.isp.ldArea.filter fun x => x.1 == i)
    (imports : ∀ ch, (u.net.imports.filter fun x => x.1 == i && x.2.1 == ch) = s.net.imports.filter fun x => x.1 == i && x.2.1 == ch) :
    SameStore (closeAreas s i) (closeAreas u i) := by
  have plan : planOf u = planOf s := by simp [planOf, img]
  simp only [closeAreas, plan, lines, imports]
  split
  · simp only [unitWrite_planOf, plan]
    apply foldl_unitWrite_sameStore
    apply unitWrite_sameStore h
  · simp only [plan]
    apply foldl_unitWrite_sameStore
    exact h

@[simp] theorem closeInterval_ldArea (s : State) (i : Nat) :
    (closeInterval s i).isp.ldArea = s.isp.ldArea.filter fun x => decide (i < x.1 + ((planOf s).r + 3)) := rfl

@[simp] theorem closeInterval_imports (s : State) (i : Nat) :
    (closeInterval s i).net.imports = s.net.imports.filter fun x => decide (i < x.1 + ((planOf s).r + 3)) := rfl

/-- What belongs to interval i is kept when i closes, so that the areas take the same. -/
theorem closeInterval_sameStore (s : State) (i : Nat) : SameStore (closeAreas s i) (closeAreas (closeInterval s i) i) := by
  have same : SameStore s (closeInterval s i) := ⟨rfl, rfl⟩
  have img : (closeInterval s i).img = s.img := rfl
  refine closeAreas_sameStore same img ?_ fun ch => ?_
  all_goals
    simp only [closeInterval_ldArea, closeInterval_imports, List.filter_filter]
    refine List.filter_congr fun x _ => ?_
    by_cases h : x.1 = i <;> simp [h]

/-! ### Wings that have finished (R34) -/

/-- Every Wing with work has finished it, and has no second table to run. -/
def WingsDone (s : State) : Prop := ∀ p : Fin 8, ∀ w : Work, (s.phys[p]).work = some w → workDone w = true ∧ w.catchUp = false

theorem overrunAt_of_done {s : State} (done : WingsDone s) (p : PWing) : overrunAt s p = updPhys s p fun x => { x with missed := 0 } := by
  unfold overrunAt
  split
  · rfl
  next w hw =>
    obtain ⟨hd, hc⟩ := done p w hw
    simp [hd, hc]

/-- The slices and the work of the Wings are as they were. -/
def SameWork (s t : State) : Prop := ∀ p : Fin 8, (t.phys[p]).gallery = (s.phys[p]).gallery ∧ (t.phys[p]).work = (s.phys[p]).work

theorem updPhys_missed_sameWork (s : State) (p : PWing) (n : Nat) : SameWork s (updPhys s p fun x => { x with missed := n }) := by
  intro q
  by_cases h : q = p
  · subst h
    rw [updPhys_same]
    exact ⟨rfl, rfl⟩
  · rw [updPhys_other _ _ _ _ h]
    exact ⟨rfl, rfl⟩

/-- With all Wings done an edge only clears their counts of missed edges. -/
theorem foldl_overrunAt_of_done {s : State} (done : WingsDone s) (l : List PWing) :
    ∃ phys, l.foldl overrunAt s = { s with phys := phys } ∧ SameWork s (l.foldl overrunAt s) := by
  induction l generalizing s with
  | nil => exact ⟨_, rfl, fun _ => ⟨rfl, rfl⟩⟩
  | cons p l ih =>
    have one := updPhys_missed_sameWork s p 0
    obtain ⟨phys, ht, work⟩ := ih (s := updPhys s p fun x => { x with missed := 0 }) fun q w hw => done q w ((one q).2 ▸ hw)
    rw [List.foldl_cons, overrunAt_of_done done]
    exact ⟨phys, ht, fun q => ⟨(work q).1.trans (one q).1, (work q).2.trans (one q).2⟩⟩

/-! ### What an edge latches (R20-R24, R388) -/

/-- t is the state after the edge of the next Beat at time c, from s with the status st. -/
def EdgeAt (s t : State) (c : Nat) (st : Word) : Prop :=
  t.c = c ∧
  t.esc = { s.esc with
    status := st, beat := s.esc.beat + 1, edgeC := c, edgeT := timeT { s with c := c }, edgeCount := refCount { s with c := c }
    target := refCount { s with c := c } + s.esc.nb, reached := false, phase := .drain } ∧
  t.iio.pulseEnd = c + 1000 ∧ t.mem = (closeAreas s s.esc.beat).mem ∧ t.img = s.img ∧ t.fuse = s.fuse ∧ t.lw = s.lw ∧ t.wng = s.wng ∧
  t.cam = s.cam ∧ t.ejc = s.ejc ∧ SameWork s t

theorem EdgeAt.overruns {s t : State} {c : Nat} {st : Word} (h : EdgeAt s t c st) (done : WingsDone t) :
    EdgeAt s (allP.foldl overrunAt t) c st := by
  obtain ⟨hc, esc, pulse, mem, img, fuse, lw, wng, cam, ejc, work⟩ := h
  obtain ⟨phys, fold, same⟩ := foldl_overrunAt_of_done done allP
  rw [fold] at same ⊢
  exact ⟨hc, esc, pulse, mem, img, fuse, lw, wng, cam, ejc, fun p => ⟨(same p).1.trans (work p).1, (same p).2.trans (work p).2⟩⟩

/-- Closing an interval and filling its areas change memory, the violations, the chains and the queues of input. -/
theorem closeInterval_areas_state (s : State) (i : Nat) : ∃ mem sec sealer iio isp net, closeAreas (closeInterval s i) i =
    { s with mem := mem, sec := sec, sealer := sealer, iio := iio, isp := isp, net := net } := by
  obtain ⟨mem, sec, h⟩ := closeAreas_storesOnly (closeInterval s i) i
  exact ⟨mem, sec, _, _, _, _, h⟩

/-- With all Wings done an edge closes the interval, stores its areas, and latches the boundary. -/
theorem issueEdge_of_done {u : State} (started : u.esc.fresh = false) (done : WingsDone u) :
    EdgeAt u (issueEdge u) u.c u.esc.status := by
  have stored := (closeInterval_sameStore u u.esc.beat).1
  obtain ⟨mem, sec, sealer, iio, isp, net, closed⟩ := closeInterval_areas_state u u.esc.beat
  rw [closed] at stored
  simp only [issueEdge, started, Bool.false_eq_true, if_false, closed]
  exact EdgeAt.overruns ⟨rfl, by simp only [started]; rfl, rfl, stored, rfl, rfl, rfl, rfl, rfl, rfl, fun _ => ⟨rfl, rfl⟩⟩ done

/-- What was recorded before the edge, and a flag that was set, do not change what it latches. -/
theorem EdgeAt.of_records {s u t : State} {c : Nat} {st : Word}
    (h : RecordsOnly { s with c := c, esc := { s.esc with status := st } } u) (edge : EdgeAt u t u.c u.esc.status) : EdgeAt s t c st := by
  have areas : SameStore (closeAreas s s.esc.beat) (closeAreas u s.esc.beat) := by
    obtain ⟨_, _, _, _, _, _, _, _, _, _, _, rfl⟩ := h
    exact closeAreas_sameStore ⟨rfl, rfl⟩ rfl rfl fun _ => rfl
  obtain ⟨_, _, _, _, _, _, _, _, _, _, _, rfl⟩ := h
  obtain ⟨hc, esc, pulse, mem, rest⟩ := edge
  exact ⟨hc, esc, pulse, mem.trans areas.1, rest⟩

theorem issueEdge_edgeAt {s u : State} {c : Nat} {st : Word} (started : s.esc.fresh = false) (done : WingsDone s)
    (h : RecordsOnly { s with c := c, esc := { s.esc with status := st } } u) : EdgeAt s (issueEdge u) c st := by
  refine .of_records h (issueEdge_of_done ?_ ?_)
  · obtain ⟨_, _, _, _, _, _, _, _, _, _, _, rfl⟩ := h
    exact started
  · obtain ⟨_, _, _, _, _, _, _, _, _, _, _, rfl⟩ := h
    exact done

/-! ### The four edges (R17, R20, R21, R41) -/

theorem exec_beatEdgeTime {s : State} (run : beating s = true) (free : encLocked s = false) :
    exec .beatEdgeTime s = .next (issueEdge (reach s (s.esc.edgeC + s.esc.pMin.toNat))) := by
  simp [exec, execBeatEdgeTime, run, free]

theorem exec_beatEdgeEncoder {s : State} {dt : Nat} (run : beating s = true) (locked : encLocked s = true) (due : targetReached s = true)
    (late : s.esc.edgeC + s.esc.pMin.toNat ≤ s.c + dt) : exec (.beatEdgeEncoder dt) s = .next (issueEdge (advance s dt)) := by
  simp [exec, execBeatEdgeEncoder, run, locked, due, late]

theorem exec_beatEdgePmax {s : State} (run : beating s = true) (locked : encLocked s = true) (short : targetReached s = false) :
    exec .beatEdgePmax s = .next (issueEdge (reach s (s.esc.edgeC + s.esc.pMax.toNat))) := by
  simp [exec, execBeatEdgePmax, run, locked, short]

/-- The state in which the speed hold issues its edge: at P_min, with the flag set and recorded. -/
def heldEdge (s : State) : State :=
  flagEvent { reach s (s.esc.edgeC + s.esc.pMin.toNat) with esc := { s.esc with status := orW s.esc.status 4 } } 0x10118 4

theorem exec_speedHold {s : State} (run : beating s = true) (locked : encLocked s = true) (due : targetReached s = true)
    (early : s.c < s.esc.edgeC + s.esc.pMin.toNat) : exec .speedHold s = .next (issueEdge (heldEdge s)) := by
  simp [exec, execSpeedHold, heldEdge, run, locked, due, early]

/-- Settles O22: each edge is issued in a state that differs from the given one in C, a flag and records. -/
theorem beatEdges : Obligations.BeatEdges :=
  ⟨fun _ run started done free => ⟨_, exec_beatEdgeTime run free, issueEdge_edgeAt started done (.refl _)⟩,
    fun _ _ run started done locked due late => ⟨_, exec_beatEdgeEncoder run locked due late, issueEdge_edgeAt started done (.refl _)⟩,
    fun _ run started done locked short => ⟨_, exec_beatEdgePmax run locked short, issueEdge_edgeAt started done (.refl _)⟩,
    fun _ run started done locked due early =>
      ⟨_, exec_speedHold run locked due early, issueEdge_edgeAt started done (flagEvent_recordsOnly ..)⟩⟩

end Sys2Proof.Machine
end

section
/-! What a Wing's work leaves when it is dropped (O25): stores in DRAM and the slice of one Wing, and the discard of its best-effort
step. -/

namespace Sys2Proof.Machine

open Sys2Proof

/-! ### Stores in DRAM and the slice of a Wing (R265) -/

theorem updPhys_updPhys (s : State) (p : PWing) (f g : Phys → Phys) : updPhys (updPhys s p f) p g = updPhys s p fun x => g (f x) := by
  simp [updPhys]

/-- An update that gives back the Wing that stood there changes nothing. -/
theorem updPhys_fixed {s : State} {p : PWing} {f : Phys → Phys} (h : f s.phys[p] = s.phys[p]) : updPhys s p f = s := by
  unfold updPhys
  rw [h, Fin.getElem_fin, Vector.set_getElem_self]

/-- t is s with at most DRAM and the Gallery slice of p written. -/
def SliceOnly (p : PWing) (s t : State) : Prop := ∃ gallery mem, t = { updPhys s p fun x => { x with gallery := gallery } with mem := mem }

namespace SliceOnly

variable {p : PWing} {s t u : State}

theorem refl (p : PWing) (s : State) : SliceOnly p s s := ⟨(s.phys[p]).gallery, s.mem, by rw [updPhys_fixed rfl]⟩

theorem trans (h : SliceOnly p s t) (k : SliceOnly p t u) : SliceOnly p s u := by
  obtain ⟨g, m, rfl⟩ := h
  obtain ⟨g', m', rfl⟩ := k
  refine ⟨g', m', ?_⟩
  show { updPhys (updPhys s p fun x => { x with gallery := g }) p fun x => { x with gallery := g' } with mem := m' } = _
  rw [updPhys_updPhys]

theorem foldl {α : Type} {f : State → α → State} (hf : ∀ s x, SliceOnly p s (f s x)) (l : List α) (s : State) : SliceOnly p s (l.foldl f s) := by
  induction l generalizing s with
  | nil => exact .refl p s
  | cons x l ih => exact (hf s x).trans (ih _)

theorem mem (p : PWing) (s : State) (m : Mem) : SliceOnly p s { s with mem := m } :=
  ⟨(s.phys[p]).gallery, m, by rw [updPhys_fixed rfl]⟩

theorem slice (p : PWing) (s : State) (g : Phys → Memory) : SliceOnly p s (updPhys s p fun x => { x with gallery := g x }) := ⟨_, s.mem, rfl⟩

end SliceOnly

/-- A version that takes the bytes of the one before is written in the home and the mirror of its region (R265). -/
theorem sameVersion_sliceOnly (p : PWing) (s : State) (b : Nat) (r : Sys2Proof.Region) : SliceOnly p s (sameVersion s (some p) b r) := by
  unfold sameVersion
  extract_lets copyD s'
  have mirror : SliceOnly p s s' := by
    unfold s'
    split
    · exact .mem ..
    · exact .refl p s
  split
  · exact mirror.trans (.slice ..)
  · exact mirror.trans (.mem ..)

theorem rollBack_sliceOnly (s : State) (k : Nat) (p : PWing) (b : Nat) : SliceOnly p s (rollBack s k (some p) b) :=
  .foldl (fun s r => sameVersion_sliceOnly p s b r) _ _

/-! ### The best-effort step is discarded (R265) -/

/-- t is s with at most the slice, the work, DRAM and the Wing registers changed, and records. -/
def WorkOnly (p : PWing) (s t : State) : Prop := ∃ gallery work mem wng,
  RecordsOnly { updPhys s p fun x => { x with gallery := gallery, work := work } with mem := mem, wng := wng } t

namespace WorkOnly

variable {p : PWing} {s t u : State}

theorem refl (p : PWing) (s : State) : WorkOnly p s s :=
  ⟨(s.phys[p]).gallery, (s.phys[p]).work, s.mem, s.wng, by rw [updPhys_fixed rfl]; exact .refl s⟩

theorem trans (h : WorkOnly p s t) (k : WorkOnly p t u) : WorkOnly p s u := by
  obtain ⟨g, w, _, _, _, _, _, _, _, _, _, _, _, _, _, rfl⟩ := h
  obtain ⟨g', w', m', r', _, _, _, _, _, _, _, _, _, _, _, rfl⟩ := k
  refine ⟨g', w', m', r', ?_⟩
  rw [← updPhys_updPhys s p (fun x => { x with gallery := g, work := w }) fun x => { x with gallery := g', work := w' }]
  exact ⟨_, _, _, _, _, _, _, _, _, _, _, rfl⟩

theorem of_sliceOnly (h : SliceOnly p s t) : WorkOnly p s t := by
  obtain ⟨g, m, rfl⟩ := h
  exact ⟨g, (s.phys[p]).work, m, s.wng, .refl _⟩

theorem wng (p : PWing) (s : State) (r : WingRegs) : WorkOnly p s { s with wng := r } :=
  ⟨(s.phys[p]).gallery, (s.phys[p]).work, s.mem, r, by rw [updPhys_fixed rfl]; exact .refl _⟩

theorem work (p : PWing) (s : State) (w : Option Work) : WorkOnly p s (updPhys s p fun x => { x with work := w }) :=
  ⟨(s.phys[p]).gallery, w, s.mem, s.wng, .refl _⟩

theorem records (h : RecordsOnly s t) : WorkOnly p s t := ⟨(s.phys[p]).gallery, (s.phys[p]).work, s.mem, s.wng, by rw [updPhys_fixed rfl]; exact h⟩

end WorkOnly

/-- Discarding a step rolls its regions back, takes it from the Wing, and counts it for its job. -/
theorem discardStep_workOnly (s : State) (p : PWing) : WorkOnly p s (discardStep s p) := by
  unfold discardStep
  split
  case h_1 => exact .refl p s
  next w _ =>
    split
    case h_1 => exact .refl p s
    next job _ =>
      have rolled := fun rs : List Sys2Proof.Region => WorkOnly.of_sliceOnly (.foldl (fun s r => sameVersion_sliceOnly p s w.beat r) rs s)
      dsimp only
      split
      · exact (((rolled _).trans (.work ..)).trans (.wng ..)).trans (.wng ..)
      · exact ((((rolled _).trans (.work ..)).trans (.wng ..)).trans (.wng ..)).trans ((WorkOnly.wng ..).trans (.records (flagEvent_recordsOnly ..)))

/-- What dropping a Wing's work leaves as it was. -/
theorem WorkOnly.frame {p : PWing} {s t : State} (h : WorkOnly p s t) :
    (t.phys[p]).role = (s.phys[p]).role ∧ (∀ q : Fin 8, q ≠ p → t.phys[q] = s.phys[q]) ∧ t.lw = s.lw ∧ t.esc = s.esc ∧ t.sealer = s.sealer ∧
    t.pwr = s.pwr ∧ t.int = s.int := by
  obtain ⟨g, w, m, r, h⟩ := h
  have phys : t.phys = (updPhys s p fun x => { x with gallery := g, work := w }).phys := by
    obtain ⟨_, _, _, _, _, _, _, _, _, _, _, rfl⟩ := h
    rfl
  refine ⟨by rw [phys, updPhys_same], fun q hq => by rw [phys, updPhys_other _ _ _ _ hq], ?_⟩
  obtain ⟨_, _, _, _, _, _, _, _, _, _, _, rfl⟩ := h
  exact ⟨rfl, rfl, rfl, rfl, rfl⟩

/-! ### Work abandoned (R34, R35) -/

/-- What stores in DRAM and a slice leave as it was. -/
theorem SliceOnly.frame {p : PWing} {s t : State} (h : SliceOnly p s t) :
    (t.phys[p]).work = (s.phys[p]).work ∧ (t.phys[p]).role = (s.phys[p]).role ∧ (∀ q : Fin 8, q ≠ p → t.phys[q] = s.phys[q]) ∧
    t.lw = s.lw ∧ t.esc = s.esc ∧ t.sealer = s.sealer := by
  obtain ⟨g, m, h⟩ := h
  have phys : t.phys = (updPhys s p fun x => { x with gallery := g }).phys := by rw [h]
  refine ⟨by rw [phys, updPhys_same], by rw [phys, updPhys_same], fun q hq => by rw [phys, updPhys_other _ _ _ _ hq], ?_⟩
  rw [h]
  exact ⟨rfl, rfl, rfl⟩

/-- A RETRACT that falls due is no part of the Wings' state. -/
theorem dueRetract_net (s : State) (k b1 b2 cause : Nat) : ∃ net, dueRetract s k b1 b2 cause = { s with net := net } := by
  unfold dueRetract
  split
  · exact ⟨_, rfl⟩
  · exact ⟨s.net, rfl⟩

/-- A flag that is set reads 1. -/
theorem bit_orW (w : Word) {mask i : Nat} (h : mask.testBit i = true) (hi : i < 32) : bit (orW w mask).toNat i = true := by
  have set : (orW w mask).getLsbD i = true := by
    simp only [orW, BitVec.getLsbD_or, BitVec.getLsbD_ofNat, h, hi, decide_true, Bool.and_self, Bool.or_true]
  simpa [bit, BitVec.getLsbD, Nat.testBit_eq_decide_div_mod_eq, Nat.shiftRight_eq_div_pow] using set

/-- The state in which work w of p is gone, its finished objects wait for sealing, and its logical Wing is doomed (R35). -/
def workDropped (s : State) (p : PWing) (w : Work) : State :=
  doomInterval (holdReason (updPhys (discardStep s p) p fun x => { x with work := none }) w.lw w.beat 5 (finishedObjs w)) w.lw 5 w.asm.nextId
    (finishedObjs w)

section
variable (s : State) (p : PWing) (w : Work)

theorem workDropped_phys : (workDropped s p w).phys = (updPhys (discardStep s p) p fun x => { x with work := none }).phys := by
  simp only [workDropped, doomInterval, holdReason, updLw_phys]

theorem workDropped_esc : (workDropped s p w).esc = (discardStep s p).esc := by
  simp only [workDropped, doomInterval, holdReason, updLw_esc, updPhys_esc]

theorem workDropped_doomNext : ((workDropped s p w).lw[w.lw]).doomNext = some 5 := by
  rw [workDropped, doomInterval, updLw_same]

theorem workDropped_held : ∃ v, (workDropped s p w).sealer.held =
    (discardStep s p).sealer.held ++ [{ lw := w.lw, beat := w.beat, objs := finishedObjs w, v := v, reason := some 5 }] := by
  simp only [workDropped, doomInterval, holdReason, updLw_sealer, updPhys_sealer]
  exact ⟨_, rfl⟩

/-- The state in which abandoned work raises its alarm: its regions are rolled back, and the logical Wing goes on with the next Beat. -/
def workAbandoned : State :=
  let t := updLw (rollBack (workDropped s p w) w.lw (some p) w.beat) w.lw fun l => { l with nextWork := w.beat + 1 }
  { t with esc := { t.esc with status := orW t.esc.status 2, abandoned := t.esc.abandoned ++ [w.lw] } }

theorem workAbandoned_phys : (workAbandoned s p w).phys = (rollBack (workDropped s p w) w.lw (some p) w.beat).phys := rfl

theorem workAbandoned_lw : (workAbandoned s p w).lw =
    (updLw (rollBack (workDropped s p w) w.lw (some p) w.beat) w.lw fun l => { l with nextWork := w.beat + 1 }).lw := rfl

theorem workAbandoned_esc : (workAbandoned s p w).esc =
    let e := (rollBack (workDropped s p w) w.lw (some p) w.beat).esc
    { e with status := orW e.status 2, abandoned := e.abandoned ++ [w.lw] } := rfl

theorem workAbandoned_sealer : (workAbandoned s p w).sealer = (rollBack (workDropped s p w) w.lw (some p) w.beat).sealer := rfl

end

section
variable {s : State} {p : PWing} {w : Work} (hw : (s.phys[p]).work = some w) (own : w.shadow = false)
include hw own

theorem abandonWing_eq : abandonWing s p = dueRetract (raiseAlarm (workAbandoned s p w) 0x0001 p w.lw) w.lw w.beat w.beat 2 := by
  simp only [abandonWing, hw, own]
  rfl

/-- The alarm and the RETRACT are all that follows. -/
theorem abandonWing_frame : (abandonWing s p).phys = (workAbandoned s p w).phys ∧ (abandonWing s p).lw = (workAbandoned s p w).lw ∧
    (abandonWing s p).esc = (workAbandoned s p w).esc ∧ (abandonWing s p).sealer = (workAbandoned s p w).sealer := by
  obtain ⟨net, h⟩ := dueRetract_net (raiseAlarm (workAbandoned s p w) 0x0001 p w.lw) w.lw w.beat w.beat 2
  obtain ⟨_, _, _, _, _, _, _, _, _, _, _, alarm⟩ := raiseAlarm_recordsOnly (workAbandoned s p w) 0x0001 p w.lw []
  rw [abandonWing_eq hw own, h, alarm]
  exact ⟨rfl, rfl, rfl, rfl⟩

/-- An abandoned Wing has no work and keeps its role, and the other Wings are as they were. -/
theorem abandonWing_phys : ((abandonWing s p).phys[p]).work = none ∧ ((abandonWing s p).phys[p]).role = (s.phys[p]).role ∧
    ∀ q : Fin 8, q ≠ p → (abandonWing s p).phys[q] = s.phys[q] := by
  obtain ⟨phys, -, -, -⟩ := abandonWing_frame hw own
  obtain ⟨role, others, -, -, -, -, -⟩ := (discardStep_workOnly s p).frame
  obtain ⟨work₁, role₁, others₁, -, -, -⟩ := (rollBack_sliceOnly (workDropped s p w) w.lw p w.beat).frame
  rw [workDropped_phys, updPhys_same] at work₁ role₁
  rw [phys, workAbandoned_phys]
  refine ⟨work₁, role₁.trans role, fun q hq => ?_⟩
  rw [others₁ q hq, workDropped_phys, updPhys_other _ _ _ q hq, others q hq]

end

/-- Settles O25: the alarm changes no more than records, and rolling back no more than the slice and DRAM. -/
theorem abandonedWork : Obligations.AbandonedWork := by
  unfold Obligations.AbandonedWork
  intro s p w hw own
  obtain ⟨-, lw, esc, sealer⟩ := abandonWing_frame hw own
  obtain ⟨-, -, -, esc₀, sealer₀, -, -⟩ := (discardStep_workOnly s p).frame
  obtain ⟨-, -, -, lw₁, esc₁, sealer₁⟩ := (rollBack_sliceOnly (workDropped s p w) w.lw p w.beat).frame
  obtain ⟨work, role, others⟩ := abandonWing_phys hw own
  obtain ⟨v, held⟩ := workDropped_held s p w
  have kept : (abandonWing s p).kept = s.kept := abandonWing_kept s p
  rw [workAbandoned_esc, esc₁, workDropped_esc, esc₀] at esc
  rw [workAbandoned_sealer, sealer₁] at sealer
  rw [workAbandoned_lw] at lw
  refine ⟨work, role, by rw [esc], by rw [esc]; exact bit_orW _ (by decide) (by decide), by rw [lw, updLw_same], ?doom,
    ⟨_, by rw [sealer, held, sealer₀], rfl, rfl, rfl, rfl⟩, congrArg (·.2.1) kept, congrArg (·.2.2) kept, others⟩
  case doom =>
    rw [lw, updLw_same, lw₁]
    exact workDropped_doomNext s p w

end Sys2Proof.Machine
end

section
/-! Overruns at an edge (O23): the flag, the count of edges in a row, and the fencing of the third. -/

namespace Sys2Proof.Machine

open Sys2Proof

/-! ### What follows a fence (R422, R541) -/

/-- The physical Wings, the Escapement, the power registers and the fault counters. -/
def State.faultView (s : State) : Vector Phys 8 × Escapement × Power × Integrity := (s.phys, s.esc, s.pwr, s.int)

theorem RecordsOnly.faultView {s t : State} (h : RecordsOnly s t) : t.faultView = s.faultView := by
  obtain ⟨_, _, _, _, _, _, _, _, _, _, _, rfl⟩ := h
  rfl

theorem RecordsOnly.phys {s t : State} (h : RecordsOnly s t) : t.phys = s.phys := congrArg Prod.fst h.faultView

theorem dueRetract_faultView (s : State) (k b1 b2 cause : Nat) : (dueRetract s k b1 b2 cause).faultView = s.faultView := by
  obtain ⟨net, h⟩ := dueRetract_net s k b1 b2 cause
  rw [h]
  rfl

theorem loseWing_faultView (s : State) (k : LWing) (p beat : Nat) (done : List ObjRec) (asm : Asm) :
    (loseWing s k p beat done asm).faultView = s.faultView :=
  (raiseAlarm_recordsOnly ..).faultView

/-- What becomes of the logical Wing of a fenced one changes no physical Wing. -/
theorem afterFence_faultView (s : State) (p : PWing) (role : Nat) (k : LWing) (w : Option Work) :
    (afterFence s p role k w).faultView = s.faultView := by
  unfold afterFence
  extract_lets beat s₁ done asm
  split
  · split
    · exact (loseWing_faultView ..).trans (dueRetract_faultView ..)
    · exact dueRetract_faultView ..
  · split <;> rfl

/-- A Wing that is isolated is fenced and has no work. -/
theorem isolate_faultView (s : State) (p : PWing) (resetCause faultCause : Nat) :
    ∃ x : Phys, x.role = 5 ∧ x.work = none ∧ (isolate s p resetCause faultCause).faultView = (updPhys s p fun _ => x).faultView :=
  ⟨_, rfl, rfl, (resetEvent_recordsOnly ..).faultView⟩

/-- A Wing that is fenced after its step is discarded has role 5 and no work, whatever follows for its logical Wing. -/
theorem fence_frame (s : State) (p : PWing) (resetCause faultCause role : Nat) (k : LWing) (w : Option Work) :
    let t := afterFence (isolate (discardStep s p) p resetCause faultCause) p role k w
    (t.phys[p]).role = 5 ∧ (t.phys[p]).work = none ∧ t.esc = s.esc ∧ t.pwr = s.pwr ∧ t.int = s.int := by
  intro t
  obtain ⟨-, -, -, esc, -, pwr, int⟩ := (discardStep_workOnly s p).frame
  obtain ⟨x, role, work, fenced⟩ := isolate_faultView (discardStep s p) p resetCause faultCause
  have view : t.faultView = (updPhys (discardStep s p) p fun _ => x).faultView := (afterFence_faultView ..).trans fenced
  simp only [State.faultView, updPhys_esc, updPhys_pwr, updPhys_int, Prod.mk.injEq] at view
  obtain ⟨hphys, hesc, hpwr, hint⟩ := view
  rw [hphys, updPhys_same]
  exact ⟨role, work, hesc.trans esc, hpwr.trans pwr, hint.trans int⟩

/-- A progress fault fences the Wing and counts. -/
theorem progressFault_frame (s : State) (p : PWing) (unit nj done deadline index : Nat) :
    let t := progressFault s p unit nj done deadline index
    (t.phys[p]).role = 5 ∧ (t.phys[p]).work = none ∧ t.esc = s.esc ∧ t.pwr.prog = incW s.pwr.prog ∧ t.int.persist = incW s.int.persist := by
  unfold progressFault
  extract_lets x pwr s₁ s₂ s₃ int s₄ t
  have recorded : s₃.faultView = s₁.faultView := (raiseAlarm_recordsOnly ..).faultView.trans (logEvent_recordsOnly ..).faultView
  simp only [State.faultView, Prod.mk.injEq] at recorded
  obtain ⟨-, esc₃, pwr₃, int₃⟩ := recorded
  obtain ⟨role, work, esc, hpwr, hint⟩ := fence_frame { s₄ with freeCtr := s₄.freeCtr + 1 } p 0x05 (Config.freeValue s₄.freeCtr % 256) x.role x.logical x.work
  have persist : s₄.int.persist = incW s.int.persist := congrArg (fun i : Integrity => incW i.persist) int₃
  exact ⟨role, work, esc.trans esc₃, congrArg Power.prog (hpwr.trans pwr₃), (congrArg Integrity.persist hint).trans persist⟩

/-! ### Overruns (R34, R539, R541) -/

/-- The state after the flag and the count of an overrun (R34). -/
def overrunCounted (s : State) (p : PWing) (w : Work) : State :=
  updPhys (flagEvent { s with esc := { s.esc with status := orW s.esc.status 1 } } 0x10118 1 [] p w.lw) p fun x => { x with missed := x.missed + 1 }

theorem RecordsOnly.updPhys {s t : State} (h : RecordsOnly s t) (p : PWing) (f : Phys → Phys) :
    RecordsOnly (updPhys s p f) (updPhys t p f) := by
  obtain ⟨_, _, _, _, _, _, _, _, _, _, _, rfl⟩ := h
  exact ⟨_, _, _, _, _, _, _, _, _, _, _, rfl⟩

theorem overrunCounted_recordsOnly (s : State) (p : PWing) (w : Work) :
    RecordsOnly (updPhys { s with esc := { s.esc with status := orW s.esc.status 1 } } p fun x => { x with missed := x.missed + 1 })
      (overrunCounted s p w) :=
  (flagEvent_recordsOnly ..).updPhys p _

theorem overrunCounted_missed (s : State) (p : PWing) (w : Work) : ((overrunCounted s p w).phys[p]).missed = (s.phys[p]).missed + 1 := by
  rw [(overrunCounted_recordsOnly s p w).phys, updPhys_same]

/-- With work left at an edge the overrun is flagged and counted, and the third edge in a row is a progress fault. -/
theorem overrunAt_of_left {s : State} {p : PWing} {w : Work} (hw : (s.phys[p]).work = some w) (left : workDone w = false ∨ w.catchUp = true) :
    overrunAt s p = if 3 ≤ (s.phys[p]).missed + 1
      then progressFault (overrunCounted s p w) p 9 ((w.lc.toList.map List.length).sum) 0 (cyclesNow (overrunCounted s p w) w) 0xFFFFFFFF
      else overrunCounted s p w := by
  have notDone : (workDone w && !w.catchUp) = false := by rcases left with h | h <;> simp [h]
  rw [← overrunCounted_missed s p w]
  simp only [overrunAt, hw, notDone]
  rfl

/-- Settles O23: below the third edge overrunCounted is all that happens, and from it on the progress fault starts there. -/
theorem overrunAtEdge : Obligations.OverrunAtEdge := by
  unfold Obligations.OverrunAtEdge
  refine ⟨fun s p w hw left few => ?counted, fun s p w hw left third => ?fenced⟩
  case counted =>
    rw [overrunAt_of_left hw left, if_neg (Nat.not_le.2 few)]
    exact overrunCounted_recordsOnly s p w
  case fenced =>
    have view := (overrunCounted_recordsOnly s p w).faultView
    simp only [State.faultView, updPhys_esc, updPhys_pwr, updPhys_int, Prod.mk.injEq] at view
    obtain ⟨-, esc₀, pwr₀, int₀⟩ := view
    rw [overrunAt_of_left hw left, if_pos third]
    obtain ⟨role, work, esc, prog, persist⟩ := progressFault_frame (overrunCounted s p w) p 9 ((w.lc.toList.map List.length).sum) 0
      (cyclesNow (overrunCounted s p w) w) 0xFFFFFFFF
    rw [pwr₀] at prog
    rw [int₀] at persist
    rw [esc₀] at esc
    exact ⟨prog, role, work, by rw [esc]; exact bit_orW _ (by decide) (by decide), persist⟩

end Sys2Proof.Machine
end

section
/-! A Landing (O26): what its steps leave alone of the Escapement. -/

namespace Sys2Proof.Machine

open Sys2Proof

/-! ### The Escapement at a Landing -/

/-- Where the Escapement stands: its phase, the last Landing, the Beat and its edge, and the Landing at which Idle begins. -/
structure BeatClock where
  phase    : EscPhase
  landingC : Nat
  beat     : Nat
  edgeC    : Nat
  idleAt   : Option Nat

def State.beatClock (s : State) : BeatClock := ⟨s.esc.phase, s.esc.landingC, s.esc.beat, s.esc.edgeC, s.pwr.idleAt⟩

@[simp] theorem beatClock_mk (a0 a1 a2 a3 a4 a5 a6 a7 a8 a9 a10 a11 a12 a13 a14 a15 a16 a17 a18 a19 a20 a21 a22 a23 a24 a25 a26 a27 a28 a29 a30 a31 a32) :
    State.beatClock ⟨a0, a1, a2, a3, a4, a5, a6, a7, a8, a9, a10, a11, a12, a13, a14, a15, a16, a17, a18, a19, a20, a21, a22, a23, a24, a25, a26, a27, a28, a29, a30, a31, a32⟩ =
      ⟨a14.phase, a14.landingC, a14.beat, a14.edgeC, a8.idleAt⟩ := (rfl)

@[simp] theorem beatClock_eta (s : State) : (⟨s.esc.phase, s.esc.landingC, s.esc.beat, s.esc.edgeC, s.pwr.idleAt⟩ : BeatClock) = s.beatClock := (rfl)

@[simp] theorem beatClock_ite (p : Prop) [Decidable p] (a b : State) : (if p then a else b).beatClock = if p then a.beatClock else b.beatClock := by
  split <;> rfl

@[simp] theorem beatClock_foldl {α : Type} (f : State → α → State) (h : ∀ s x, (f s x).beatClock = s.beatClock) (l : List α) (s : State) :
    (l.foldl f s).beatClock = s.beatClock := by
  induction l generalizing s with
  | nil => rfl
  | cons x l ih => simp [ih, h]

theorem beatClock_foldl_fst {α β : Type} (f : State × β → α → State × β) (h : ∀ s x, (f s x).1.beatClock = s.1.beatClock) (l : List α)
    (s : State × β) : (l.foldl f s).1.beatClock = s.1.beatClock := by
  induction l generalizing s with
  | nil => rfl
  | cons x l ih => simp [ih, h]

theorem RecordsOnly.beatClock {s t : State} (h : RecordsOnly s t) : t.beatClock = s.beatClock := by
  obtain ⟨_, _, _, _, _, _, _, _, _, _, _, rfl⟩ := h
  rfl

@[simp] theorem logEvent_beatClock (s : State) (e : Ev) : (logEvent s e).beatClock = s.beatClock := (logEvent_recordsOnly ..).beatClock
@[simp] theorem raiseAlarm_beatClock (s : State) (code phys lwing : Nat) (arg : List Byte) :
    (raiseAlarm s code phys lwing arg).beatClock = s.beatClock := (raiseAlarm_recordsOnly ..).beatClock
@[simp] theorem flagEvent_beatClock (s : State) (a m : Nat) (d : List Byte) (p k : Nat) :
    (flagEvent s a m d p k).beatClock = s.beatClock := (flagEvent_recordsOnly ..).beatClock
@[simp] theorem otherEvent_beatClock (s : State) (a : List Byte) (p k : Nat) : (otherEvent s a p k).beatClock = s.beatClock :=
  (otherEvent_recordsOnly ..).beatClock
@[simp] theorem resetEvent_beatClock (s : State) (a b c d : Nat) : (resetEvent s a b c d).beatClock = s.beatClock :=
  (resetEvent_recordsOnly ..).beatClock

/-! ### Reports, Wings and memory (R78, R208, R444) -/

@[simp] theorem addReport_beatClock (s : State) (r : Report) : (addReport s r).beatClock = s.beatClock := by simp [addReport]
@[simp] theorem updPhys_beatClock (s : State) (p : PWing) (f : Phys → Phys) : (updPhys s p f).beatClock = s.beatClock := (rfl)
@[simp] theorem updLw_beatClock (s : State) (k : LWing) (f : LogWing → LogWing) : (updLw s k f).beatClock = s.beatClock := (rfl)
@[simp] theorem setMap_beatClock (s : State) (k : Nat) (p : Option PWing) (n : Nat) : (setMap s k p n).beatClock = s.beatClock := (rfl)
@[simp] theorem dramWrite_beatClock (s : State) (a : Nat) (bs : List Byte) : (dramWrite s a bs).beatClock = s.beatClock := (rfl)

/-! ### Work that is dropped or cut off (R35, R265, R422-R424) -/

@[simp] theorem sameVersion_beatClock (s : State) (p : Option PWing) (b : Nat) (r : Sys2Proof.Region) :
    (sameVersion s p b r).beatClock = s.beatClock := by
  unfold sameVersion
  (repeat' split) <;> simp
@[simp] theorem rollBack_beatClock (s : State) (k : Nat) (p : Option PWing) (b : Nat) :
    (rollBack s k p b).beatClock = s.beatClock := by simp [rollBack]
@[simp] theorem holdReason_beatClock (s : State) (k beat reason : Nat) (objs : List ObjRec) :
    (holdReason s k beat reason objs).beatClock = s.beatClock := (rfl)
@[simp] theorem dueRetract_beatClock (s : State) (k b1 b2 cause : Nat) : (dueRetract s k b1 b2 cause).beatClock = s.beatClock := by simp [dueRetract]
@[simp] theorem setJobRec_beatClock (s : State) (j : JobRec) : (setJobRec s j).beatClock = s.beatClock := (rfl)
@[simp] theorem discardStep_beatClock (s : State) (p : PWing) : (discardStep s p).beatClock = s.beatClock := by
  unfold discardStep
  (repeat' split) <;> simp
@[simp] theorem doomInterval_beatClock (s : State) (k : LWing) (reason nextId : Nat) (done : List ObjRec) :
    (doomInterval s k reason nextId done).beatClock = s.beatClock := (rfl)
@[simp] theorem loseWing_beatClock (s : State) (k : LWing) (p beat : Nat) (done : List ObjRec) (asm : Asm) :
    (loseWing s k p beat done asm).beatClock = s.beatClock := by simp [loseWing]
@[simp] theorem isolate_beatClock (s : State) (p : PWing) (resetCause faultCause : Nat) :
    (isolate s p resetCause faultCause).beatClock = s.beatClock := by simp [isolate]
@[simp] theorem afterFence_beatClock (s : State) (p : PWing) (role : Nat) (k : LWing) (w : Option Work) :
    (afterFence s p role k w).beatClock = s.beatClock := by simp [afterFence]
@[simp] theorem fenceWing_beatClock (s : State) (p : PWing) (r : Report) : (fenceWing s p r).beatClock = s.beatClock := by simp [fenceWing]
@[simp] theorem prioritise_beatClock (s : State) (p : PWing) : (prioritise s p).beatClock = s.beatClock := (rfl)

/-! ### Camera ports and their lines (R309-R318, R333) -/

@[simp] theorem updPort_beatClock (s : State) (p : Port) (f : CamPort → CamPort) : (updPort s p f).beatClock = s.beatClock := (rfl)
@[simp] theorem updIsp_beatClock (s : State) (p : Port) (f : IspCam → IspCam) : (updIsp s p f).beatClock = s.beatClock := (rfl)
@[simp] theorem camFlag_beatClock (s : State) (mask : Nat) : (camFlag s mask).beatClock = s.beatClock := (rfl)
@[simp] theorem ispFlag_beatClock (s : State) (mask : Nat) : (ispFlag s mask).beatClock = s.beatClock := (rfl)
@[simp] theorem updLanes_beatClock (s : State) (p : Nat) (f : Nat → LaneSt → LaneSt) : (updLanes s p f).beatClock = s.beatClock := by simp [updLanes]
@[simp] theorem sleepLanes_beatClock (s : State) (p : Nat) : (sleepLanes s p).beatClock = s.beatClock := by simp [sleepLanes]
@[simp] theorem wakeLanes_beatClock (s : State) (p : Nat) : (wakeLanes s p).beatClock = s.beatClock := by simp [wakeLanes]
@[simp] theorem startAttempt_beatClock (s : State) (p : Port) : (startAttempt s p).beatClock = s.beatClock := by
  unfold startAttempt
  (repeat' split) <;> simp
@[simp] theorem speedCut_beatClock (s : State) (p : Port) : (speedCut s p).beatClock = s.beatClock := by simp [speedCut]
@[simp] theorem padFrame_beatClock (s : State) (p : Port) : (padFrame s p).beatClock = s.beatClock := by
  unfold padFrame
  (repeat' split) <;> simp
@[simp] theorem digestLine_beatClock (s : State) (p : Port) (tag : Word) (bs : List Byte) : (digestLine s p tag bs).beatClock = s.beatClock := (rfl)
@[simp] theorem fillEntry_beatClock (s : State) (p : Port) (data : Option (List Nat)) : (fillEntry s p data).beatClock = s.beatClock := by
  unfold fillEntry
  dsimp only
  (repeat' split) <;> simp
@[simp] theorem corruptLine_beatClock (s : State) (p : Port) (bs : List Byte) : (corruptLine s p bs).beatClock = s.beatClock := by
  unfold corruptLine
  (repeat' split) <;> simp
@[simp] theorem portDown_beatClock (s : State) (p : Port) (cause resetCause : Nat) : (portDown s p cause resetCause).beatClock = s.beatClock := by
  unfold portDown
  (repeat' split) <;> simp
@[simp] theorem lossAlarm_beatClock (s : State) (p : Port) (cause : Nat) : (lossAlarm s p cause).beatClock = s.beatClock := by simp [lossAlarm]
@[simp] theorem landingPort_beatClock (s : State) (p : Port) : (landingPort s p).beatClock = s.beatClock := by simp [landingPort]
@[simp] theorem landingPorts_beatClock (s : State) : (landingPorts s).beatClock = s.beatClock := by simp [landingPorts]

/-! ### Tables, calibration and cut lines (R42, R344, R348) -/

@[simp] theorem landingTables_beatClock (s : State) (n : Nat) : (landingTables s n).beatClock = s.beatClock := by
  unfold landingTables
  exact beatClock_foldl _ (fun s x => by (repeat' split) <;> simp) _ _
@[simp] theorem calibrate_beatClock (s : State) (b : Nat) (complete : Nat → Bool) : (calibrate s b complete).beatClock = s.beatClock := by
  unfold calibrate
  refine beatClock_foldl _ (fun s x => ?_) _ _
  split
  · rfl
  · split
    · rfl
    · simp
@[simp] theorem reportCuts_beatClock (s : State) (n : Nat) : (reportCuts s n).beatClock = s.beatClock := by simp [reportCuts]

/-! ### Drained work (R32, R242, R265) -/

@[simp] theorem noteDefect_beatClock (s : State) (a : Nat) : (noteDefect s a).beatClock = s.beatClock := (rfl)
@[simp] theorem asmFlags_beatClock (k : LWing) (s : State) (o : AsmNote) : (asmFlags k s o).beatClock = s.beatClock := by simp [asmFlags]
@[simp] theorem flagTally_beatClock (s : State) (k : LWing) (t : Tally) : (flagTally s k t).beatClock = s.beatClock := by simp [flagTally]
@[simp] theorem makeCurrent_beatClock (s : State) (p : PWing) (b : Nat) (r : Sys2Proof.Region) :
    (makeCurrent s p b r).beatClock = s.beatClock := (rfl)
@[simp] theorem commitRegions_beatClock (s : State) (k : LWing) (p : PWing) (b : Nat) (written : List Nat) :
    (commitRegions s k p b written).beatClock = s.beatClock := by simp [commitRegions]
@[simp] theorem kvStore_beatClock (s : State) (k : LWing) (w : Work) : (kvStore s k w).beatClock = s.beatClock := by simp [kvStore]
@[simp] theorem missingEvent_beatClock (s : State) (k beat slot : Nat) :
    (missingEvent s k beat slot).beatClock = s.beatClock := by simp [missingEvent]
@[simp] theorem emptyResults_beatClock (s : State) (k : LWing) (p : PWing) : (emptyResults s k p).beatClock = s.beatClock := (rfl)
@[simp] theorem copyResults_beatClock (s : State) (k : LWing) (p : PWing) (w : Work) (replayed : Bool) :
    (copyResults s k p w replayed).beatClock = s.beatClock := by simp [copyResults]
@[simp] theorem commitWork_beatClock (s : State) (k : LWing) (p : PWing) (w : Work) (replayed : Bool) :
    (commitWork s k p w replayed).beatClock = s.beatClock := by simp [commitWork]

/-! ### Sealing and posting (R43-R62, R481) -/

@[simp] theorem holdLate_beatClock (s : State) (k : LWing) (b : Nat) : (holdLate s k b).beatClock = s.beatClock := by simp [holdLate]
@[simp] theorem markLate_beatClock (s : State) (b : Nat) : (markLate s b).beatClock = s.beatClock := by simp [markLate]
@[simp] theorem primaryItems_beatClock (s : State) (b : Nat) : (primaryItems s b).2.beatClock = s.beatClock := (rfl)
@[simp] theorem settleReviews_beatClock (s : State) (b : Nat) : (settleReviews s b).beatClock = s.beatClock := (rfl)
@[simp] theorem reviewItems_beatClock (s : State) (b : Nat) : (reviewItems s b).2.beatClock = s.beatClock := (rfl)
@[simp] theorem postFiring_beatClock (s : State) (e : EjEntry) : (postFiring s e).1.beatClock = s.beatClock := by
  unfold postFiring
  (repeat' split) <;> simp
@[simp] theorem countUa_beatClock (s : State) (reason n : Nat) : (countUa s reason n).beatClock = s.beatClock := by simp [countUa]
@[simp] theorem addRecord_beatClock (s : State) (r : VRec) : (addRecord s r).beatClock = s.beatClock := (rfl)
@[simp] theorem postFirings_beatClock (s : State) (fs : List (Nat × SealItem × EjEntry)) : (postFirings s fs).1.beatClock = s.beatClock := by
  unfold postFirings
  exact beatClock_foldl_fst _ (by simp) _ _
@[simp] theorem postItem_beatClock (s : State) (x : SealItem) (missed : Bool) : (postItem s x missed).beatClock = s.beatClock := by simp [postItem]
@[simp] theorem postSummary_beatClock (s : State) (b : Nat) (xs : List SealItem) (missed : Bool) :
    (postSummary s b xs missed).beatClock = s.beatClock := by
  unfold postSummary
  (repeat' split) <;> simp
@[simp] theorem enqueueRecords_beatClock (s : State) (n : Nat) : (enqueueRecords s n).beatClock = s.beatClock := by simp [enqueueRecords]
@[simp] theorem sealBeat_beatClock (s : State) (n b : Nat) : (sealBeat s n b).beatClock = s.beatClock := by
  unfold sealBeat
  dsimp only
  (repeat' split) <;> simp

/-! ### Slices, handovers and substitutions (R79, R423, R424, R428) -/

@[simp] theorem loadSlice_beatClock (s : State) (p : PWing) (dst src n : Nat) : (loadSlice s p dst src n).beatClock = s.beatClock := (rfl)
@[simp] theorem loadWeights_beatClock (s : State) (p : PWing) : (loadWeights s p).beatClock = s.beatClock := by
  unfold loadWeights
  (repeat' split) <;> simp
@[simp] theorem loadBanks_beatClock (s : State) (p : PWing) (k : Nat) : (loadBanks s p k).beatClock = s.beatClock := by simp [loadBanks]
@[simp] theorem loadCarried_beatClock (s : State) (p : PWing) (k w : Nat) : (loadCarried s p k w).beatClock = s.beatClock := by
  unfold loadCarried
  exact beatClock_foldl _ (fun s x => by (repeat' split) <;> simp) _ _
@[simp] theorem loadWing_beatClock (s : State) (p : PWing) (k w : Nat) : (loadWing s p k w).beatClock = s.beatClock := by simp [loadWing]
@[simp] theorem drainWing_beatClock (s : State) (p : PWing) : (drainWing s p).beatClock = s.beatClock := by
  unfold drainWing
  (repeat' split) <;> simp
@[simp] theorem commitAbandoned_beatClock (s : State) : (commitAbandoned s).beatClock = s.beatClock := by
  unfold commitAbandoned
  refine beatClock_foldl _ (fun s x => ?_) _ _
  split
  · exact beatClock_foldl _ (fun s r => by simp) _ _
  · rfl
@[simp] theorem kvRegisters_beatClock (n : Nat) (s : State) (k : LWing) : (kvRegisters n s k).beatClock = s.beatClock := by simp [kvRegisters]
@[simp] theorem endShadow_beatClock (s : State) (q : PWing) (role : Nat) (k : LWing) : (endShadow s q role k).beatClock = s.beatClock := (rfl)
@[simp] theorem startTest_beatClock (s : State) (p : PWing) : (startTest s p).beatClock = s.beatClock := (rfl)
@[simp] theorem startAsked_beatClock (s : State) (p : PWing) : (startAsked s p).beatClock = s.beatClock := by simp [startAsked]
@[simp] theorem settleHandover_beatClock (s : State) (n : Nat) (equal : Bool) : (settleHandover s n equal).beatClock = s.beatClock := by
  unfold settleHandover
  (repeat' split) <;> simp
@[simp] theorem updateRole_beatClock (s : State) (p : PWing) : (updateRole s p).beatClock = s.beatClock := by
  unfold updateRole
  (repeat' split) <;> simp
@[simp] theorem skipBeat_beatClock (s : State) (k : LWing) (p : PWing) (b : Nat) : (skipBeat s k p b).beatClock = s.beatClock := by simp [skipBeat]
@[simp] theorem substitute_beatClock (s : State) (n : Nat) (k : LWing) (q : PWing) (pd : Pending) :
    (substitute s n k q pd).beatClock = s.beatClock := by simp [substitute]
@[simp] theorem settlePending_beatClock (n : Nat) (acc : State × List PWing) (x : LWing × Pending) :
    (settlePending n acc x).1.beatClock = acc.1.beatClock := by
  unfold settlePending
  (repeat' split) <;> simp
@[simp] theorem updateLate_beatClock (n : Nat) (s : State) (k : LWing) : (updateLate n s k).beatClock = s.beatClock := by
  unfold updateLate
  dsimp only
  (repeat' split) <;> simp
@[simp] theorem restartRegion_beatClock (s : State) (p : PWing) (b : Int) (r : Sys2Proof.Region) :
    (restartRegion s p b r).beatClock = s.beatClock := by
  unfold restartRegion
  (repeat' split) <;> simp
@[simp] theorem carriedReset_beatClock (s : State) (k : LWing) : (carriedReset s k).beatClock = s.beatClock := by
  unfold carriedReset
  (repeat' split) <;> simp

/-! ### Weight copies, changeover, promotion and rotation (R285-R288, R430-R437, R531) -/

@[simp] theorem mismatch_beatClock (s : State) (n : Nat) (p : PWing) (j : Nat) (g : Segment) :
    (mismatch s n p j g).beatClock = s.beatClock := by simp [mismatch]
@[simp] theorem judgeSegment_beatClock (n start : Nat) (unread : List (PWing × Nat)) (s : State) (x : PWing × Nat × Segment) :
    (judgeSegment n start unread s x).beatClock = s.beatClock := by simp [judgeSegment]
@[simp] theorem compareRound_beatClock (s : State) (n : Nat) (unread : List (PWing × Nat)) : (compareRound s n unread).beatClock = s.beatClock := by
  unfold compareRound
  (repeat' split) <;> simp
@[simp] theorem reloadSegments_beatClock (s : State) (p : PWing) : (reloadSegments s p).beatClock = s.beatClock := by
  unfold reloadSegments
  simp only [beatClock_mk, beatClock_eta]
  exact beatClock_foldl _ (fun s x => by split <;> simp) _ _
@[simp] theorem pushDigests_beatClock (s : State) (b : Nat) (prog wgt : Digest) : (pushDigests s b prog wgt).beatClock = s.beatClock := (rfl)
@[simp] theorem releaseFormer_beatClock (s : State) (n : Nat) : (releaseFormer s n).beatClock = s.beatClock := by
  unfold releaseFormer
  (repeat' split) <;> simp
@[simp] theorem takeChangeover_beatClock (s : State) (n : Nat) (i : Image) : (takeChangeover s n i).beatClock = s.beatClock := by
  unfold takeChangeover
  simp only [pushDigests_beatClock]
  rw [beatClock_foldl _ (fun s x => by split <;> simp) _ _, beatClock_foldl _ (fun s x => by simp) _ _]
  rfl
@[simp] theorem refuseChangeover_beatClock (s : State) (r : Nat) : (refuseChangeover s r).beatClock = s.beatClock := (rfl)
@[simp] theorem changeoverLanding_beatClock (s : State) (n : Nat) : (changeoverLanding s n).beatClock = s.beatClock := by
  unfold changeoverLanding
  dsimp only
  rw [beatClock_ite]
  split
  · split
    · simp
    · (repeat' split) <;> simp
  · simp
@[simp] theorem adapterLanding_beatClock (s : State) (n : Nat) : (adapterLanding s n).beatClock = s.beatClock := by simp [adapterLanding]
@[simp] theorem setPower_beatClock (s : State) (new reason : Nat) : (setPower s new reason).beatClock = s.beatClock := by simp [setPower]
@[simp] theorem startRotation_beatClock (s : State) (n : Nat) : (startRotation s n).beatClock = s.beatClock := by
  unfold startRotation
  dsimp only
  (repeat' split) <;> simp
@[simp] theorem trackCounts_beatClock (s : State) (k : LWing) : (trackCounts s k).beatClock = s.beatClock := by simp [trackCounts]

/-! ### The Landing (R32) -/

/-- With no Idle asked for, no Landing begins or ends it (R547). -/
theorem idleLanding_of_awake {s : State} (n : Nat) (awake : s.beatClock.idleAt = none) : idleLanding s n = s := by
  have h : s.pwr.idleAt = none := awake
  simp [idleLanding, h]

/-- With no Idle asked for, the steps of a Landing leave the Escapement where it stands. -/
theorem landingSteps_beatClock {s : State} (n : Nat) (equal : Bool) (unread : List (PWing × Nat)) (awake : s.beatClock.idleAt = none) :
    (landingSteps s n equal unread).beatClock = s.beatClock := by
  simp [landingSteps, beatClock_foldl_fst _ (settlePending_beatClock n), idleLanding_of_awake, awake]

/-- The guard of a Landing begins (R31, R32). -/
def guardBegun (s : State) : State := { s with esc := { s.esc with phase := .guard, landingC := s.c } }

theorem exec_landingComplete {s : State} (equal : Bool) (unread : List (PWing × Nat)) (up : dieUp s = true) (drain : s.esc.phase = .drain)
    (all : allDrained s = true) : exec (.landingComplete equal unread) s = .next (landingSteps (guardBegun s) s.esc.beat equal unread) := by
  simp [exec, execLandingComplete, guardBegun, up, drain, all]

/-- Settles O26: the guard begins before the steps of the Landing, which leave the Escapement, the queue, the fuses and C alone. -/
theorem landingStarts : Obligations.LandingStarts := by
  unfold Obligations.LandingStarts
  intro equal unread s up drain all awake
  refine ⟨_, exec_landingComplete equal unread up drain all, ?_⟩
  have clock := landingSteps_beatClock (s := guardBegun s) s.esc.beat equal unread awake
  have kept := landingSteps_kept (guardBegun s) s.esc.beat equal unread
  generalize landingSteps (guardBegun s) s.esc.beat equal unread = t at clock kept ⊢
  exact ⟨congrArg BeatClock.phase clock, congrArg BeatClock.landingC clock, congrArg BeatClock.beat clock, congrArg (·.2.1) kept,
    congrArg (·.1) kept, congrArg (·.2.2) kept, congrArg BeatClock.edgeC clock⟩

end Sys2Proof.Machine
end

section
/-! Lines of a camera port (O41): the first packet, the end of a line, the header and the event packet. -/

namespace Sys2Proof.Machine

open Sys2Proof

/-! ### What a port receives (R296, R307) -/

theorem receiving_of_up {x : CamPort} (h : portUp x = true) : receiving x = true := by simp [receiving, h]

theorem exec_eventPacket {s : State} {p : Port} (up : portUp s.cam.port[p] = true) :
    exec (.eventPacket p) s = .next (updPort s p fun x => { x with ign := incW x.ign }) :=
  if_pos (receiving_of_up up)

/-! ### The first packet of a line (R307, R331, R333) -/

/-- The place in the FIFO that a line takes with its tag: an entry, or none where there is no room. -/
def takenEntry (beat row : Nat) (tag : Word) (room : Bool) : FifoLine :=
  { tag := tag, flags := if room then 0 else 1, ivl := beat, row := row, data := none, eligible := false, entry := room }

/-- A line in progress with its tag takes its place in the FIFO of the camera. -/
def lineTaken (s : State) (p : Port) (tag : Word) (room : Bool) : State :=
  updIsp (updPort s p fun x => { x with line := some { tag := tag, stored := room } }) p fun c => { c with
    fifo := c.fifo ++ [takenEntry s.esc.beat c.frameLines tag room]
    gaps := c.gaps.map fun g => (g.1, some (g.2.getD tag))
    frameLines := c.frameLines + 1, lastTag := tag, lastLine := some tag }

/-- A line without an entry is counted as dropped (R331). -/
def lineDropped (s : State) (p : Port) (tag : Word) : State :=
  ispFlag (updIsp (lineTaken s p tag false) p fun c => { c with drop := incW c.drop }) 1

section
variable {s : State} {p : Port} {n : Nat} (dt : Nat) {e : CamEntry} {i : IspEntry}
variable (cam : camEntry s p = some e) (isp : ispEntry s p = some i) (up : portUp s.cam.port[p] = true)
include cam isp up

theorem exec_lineFirstPacket_otherStream (other : n ≠ e.streamId) :
    exec (.lineFirstPacket p n dt) s = .next (updPort (advance s dt) p fun x => { x with ign := incW x.ign }) := by
  have cam' : camEntry (advance s dt) p = some e := cam
  have isp' : ispEntry (advance s dt) p = some i := isp
  simp [exec, execLineFirstPacket, cam', isp', receiving_of_up up, other, -Fin.getElem_fin]

variable (stream : n = e.streamId) (accepting : (s.cam.port[p]).accepting = true) (idle : (s.cam.port[p]).line = none)
  (short : (s.isp.cam[p]).frameLines < i.hF) (runs : pipeInReset s p = false)
include stream accepting idle short runs

theorem exec_lineFirstPacket_room (room : occupied s p < 4) :
    exec (.lineFirstPacket p n dt) s = .next (lineTaken (advance s dt) p (refCount (advance s dt)) true) := by
  have cam' : camEntry (advance s dt) p = some e := cam
  have isp' : ispEntry (advance s dt) p = some i := isp
  have runs' : pipeInReset (advance s dt) p = false := runs
  have room' : occupied (advance s dt) p < 4 := room
  simp [exec, execLineFirstPacket, cam', isp', receiving_of_up up, stream, up, accepting, idle, Nat.not_le.2 short, runs', room', lineTaken, takenEntry, -Fin.getElem_fin]

theorem exec_lineFirstPacket_full (full : 4 ≤ occupied s p) :
    exec (.lineFirstPacket p n dt) s = .next (flagEvent (lineDropped (advance s dt) p (refCount (advance s dt))) 0x41000 1) := by
  have cam' : camEntry (advance s dt) p = some e := cam
  have isp' : ispEntry (advance s dt) p = some i := isp
  have runs' : pipeInReset (advance s dt) p = false := runs
  have full' : ¬ occupied (advance s dt) p < 4 := Nat.not_lt.2 full
  simp [exec, execLineFirstPacket, cam', isp', receiving_of_up up, stream, up, accepting, idle, Nat.not_le.2 short, runs', full', lineTaken, takenEntry, lineDropped, -Fin.getElem_fin]

end

theorem lineTaken_port (s : State) (p : Port) (tag : Word) (room : Bool) :
    (lineTaken s p tag room).cam.port[p] = { s.cam.port[p] with line := some { tag := tag, stored := room } } := by
  rw [lineTaken, updIsp_cam, updPort_same]

theorem lineTaken_cam (s : State) (p : Port) (tag : Word) (room : Bool) :
    let c := (lineTaken s p tag room).isp.cam[p]
    c.fifo = (s.isp.cam[p]).fifo ++ [takenEntry s.esc.beat (s.isp.cam[p]).frameLines tag room] ∧ c.drop = (s.isp.cam[p]).drop ∧ c.frameLines = (s.isp.cam[p]).frameLines + 1 := by
  rw [lineTaken, updIsp_same]
  exact ⟨rfl, rfl, rfl⟩

theorem RecordsOnly.lineView {s t : State} (h : RecordsOnly s t) : t.cam = s.cam ∧ t.isp = s.isp ∧ t.mem = s.mem := by
  obtain ⟨_, _, _, _, _, _, _, _, _, _, _, rfl⟩ := h
  exact ⟨rfl, rfl, rfl⟩

theorem lineDropped_mem (s : State) (p : Port) (tag : Word) : (lineDropped s p tag).mem = s.mem := by
  simp only [lineDropped, lineTaken, ispFlag, updIsp_mem, updPort_mem]

theorem lineDropped_port (s : State) (p : Port) (tag : Word) :
    (lineDropped s p tag).cam.port[p] = { s.cam.port[p] with line := some { tag := tag, stored := false } } := by
  simp only [lineDropped, ispFlag, updIsp_cam, lineTaken_port]

theorem lineDropped_cam (s : State) (p : Port) (tag : Word) :
    (lineDropped s p tag).isp.cam[p] = { (lineTaken s p tag false).isp.cam[p] with drop := incW ((lineTaken s p tag false).isp.cam[p]).drop } := by
  simp only [lineDropped, ispFlag, updIsp_same]

theorem lineDropped_flag (s : State) (p : Port) (tag : Word) : bit (lineDropped s p tag).isp.status.toNat 0 = true :=
  bit_orW _ (by decide) (by decide)

/-! ### The end of a line (R24, R309, R310) -/

theorem speedCut_esc (s : State) (p : Port) : ∃ esc, speedCut s p = { s with esc := esc } := by
  unfold speedCut
  split
  · exact ⟨s.esc, rfl⟩
  · exact ⟨_, rfl⟩

theorem speedCut_isp (s : State) (p : Port) : (speedCut s p).isp = s.isp := by
  obtain ⟨esc, h⟩ := speedCut_esc s p
  rw [h]

/-- Completing the entry of a line changes the pipelines, and may flag the Escapement. -/
theorem fillEntry_state (s : State) (p : Port) (data : Option (List Nat)) : ∃ isp esc, fillEntry s p data = { s with isp := isp, esc := esc } := by
  unfold fillEntry
  extract_lets c
  split
  · exact ⟨s.isp, s.esc, rfl⟩
  next l _ =>
    obtain ⟨esc, h⟩ := speedCut_esc (updIsp s p _) p
    exact ⟨_, esc, h⟩

/-- The entry depends on the pipelines, the image, the Beat and C alone. -/
theorem fillEntry_isp {s u : State} (p : Port) (data : Option (List Nat)) (isp : u.isp = s.isp) (img : u.img = s.img) (esc : u.esc = s.esc)
    (c : u.c = s.c) : (fillEntry u p data).isp = (fillEntry s p data).isp := by
  simp only [fillEntry, capLines, planOf, isp, img, esc, c]
  cases (s.isp.cam[p]).fifo.find? fun l => !l.eligible with
  | none => exact isp
  | some l => simp only [speedCut_isp, updIsp_isp, isp]

/-- t is s with at most the camera ports changed and free values drawn. -/
def CamOnly (s t : State) : Prop := ∃ cam freeCtr, t = { s with cam := cam, freeCtr := freeCtr }

namespace CamOnly

variable {s t u : State} {p : Port}

theorem refl (s : State) : CamOnly s s := ⟨_, _, rfl⟩

theorem trans (h : CamOnly s t) (k : CamOnly t u) : CamOnly s u := by
  obtain ⟨_, _, rfl⟩ := h
  obtain ⟨_, _, rfl⟩ := k
  exact ⟨_, _, rfl⟩

theorem ite {c : Prop} [Decidable c] (h : CamOnly s t) (k : CamOnly s u) : CamOnly s (if c then t else u) := by split <;> assumption

theorem updPort (s : State) (p : Port) (f : CamPort → CamPort) : CamOnly s (updPort s p f) := ⟨_, _, rfl⟩

theorem codeErrors (s : State) (p : Port) : CamOnly s (codeErrors s p) := by
  unfold Machine.codeErrors updLanes
  exact ⟨_, _, rfl⟩

theorem camFlag (s : State) (mask : Nat) : CamOnly s (camFlag s mask) := ⟨_, _, rfl⟩

theorem countFmt (s : State) (p : Port) (n : Nat) : CamOnly s (countFmt s p n) := .ite (.refl s) ((CamOnly.updPort ..).trans (.camFlag ..))

end CamOnly

theorem countFmt_port (s : State) (p : Port) (n : Nat) : (countFmt s p n).cam.port[p] =
    { s.cam.port[p] with fmt := if n = 0 then (s.cam.port[p]).fmt else satInc (s.cam.port[p]).fmt n } := by
  unfold countFmt
  split
  · rfl
  · simp only [camFlag, updPort_same]

/-- A line that joins the chain and completes its entry leaves the ports as they were; the chain has its record, and the pipelines its entry. -/
theorem fillEntry_digestLine {s u v : State} {p : Port} {tag : Word} {bs : List Byte} (before : CamOnly s u) (after : CamOnly (digestLine u p tag bs) v)
    (data : Option (List Nat)) :
    (fillEntry v p data).cam = v.cam ∧ (fillEntry v p data).isp = (fillEntry s p data).isp ∧
    (fillEntry v p data).sealer.lines[p] = s.sealer.lines[p] ++ [lineRecord tag bs] ∧ (fillEntry v p data).c = s.c ∧
    (fillEntry v p data).mem = s.mem := by
  obtain ⟨_, _, rfl⟩ := before
  obtain ⟨_, _, rfl⟩ := after
  refine ⟨?_, fillEntry_isp p data rfl rfl rfl rfl, ?_⟩
  all_goals
    obtain ⟨isp, esc, h⟩ := fillEntry_state { digestLine { s with cam := _, freeCtr := _ } p tag bs with cam := _, freeCtr := _ } p data
    rw [h]
  simp only [digestLine, Fin.getElem_fin, Vector.getElem_set_self, and_self]

/-- A sound line: it joins the chain of its camera and is counted (R310, R281). -/
def soundLine (s : State) (p : Port) (tag : Word) (x : LineEnd) : State :=
  updPort (digestLine (updPort s p fun y => { y with crc := satInc y.crc x.crcBad }) p tag x.bytes) p fun y =>
    { y with line := none, lines := (y.lines + 1) % 2 ^ 64 }

theorem soundLine_port (s : State) (p : Port) (tag : Word) (x : LineEnd) : (soundLine s p tag x).cam.port[p] =
    { s.cam.port[p] with crc := satInc (s.cam.port[p]).crc x.crcBad, line := none, lines := ((s.cam.port[p]).lines + 1) % 2 ^ 64 } := by
  simp only [soundLine, digestLine, updPort_same]

/-- The errors of a line that ends are counted (R309). -/
def lineJudged (s : State) (p : Port) (x : LineEnd) (wrong : Bool) : State :=
  let s := updPort s p fun y => { y with crc := satInc y.crc x.crcBad }
  let s := if x.codeBad then codeErrors s p else s
  if wrong then countFmt s p 1 else s

theorem lineJudged_camOnly (s : State) (p : Port) (x : LineEnd) (wrong : Bool) : CamOnly s (lineJudged s p x wrong) := by
  have coded : CamOnly s (if x.codeBad then codeErrors (updPort s p fun y => { y with crc := satInc y.crc x.crcBad }) p
      else updPort s p fun y => { y with crc := satInc y.crc x.crcBad }) :=
    .ite ((CamOnly.updPort ..).trans (.codeErrors ..)) (.updPort ..)
  exact .ite (coded.trans (.countFmt ..)) coded

theorem codeErrors_port (s : State) (p : Port) : (codeErrors s p).cam.port[p] = s.cam.port[p] := by
  unfold codeErrors updLanes
  rfl

theorem lineJudged_port (s : State) (p : Port) (x : LineEnd) (wrong : Bool) : ∃ fmt, (lineJudged s p x wrong).cam.port[p] =
    { s.cam.port[p] with crc := satInc (s.cam.port[p]).crc x.crcBad, fmt := fmt } := by
  unfold lineJudged
  extract_lets u v
  have crc : u.cam.port[p] = { s.cam.port[p] with crc := satInc (s.cam.port[p]).crc x.crcBad } := updPort_same ..
  have counted : v.cam.port[p] = { s.cam.port[p] with crc := satInc (s.cam.port[p]).crc x.crcBad } := by
    unfold v
    split
    · exact (codeErrors_port u p).trans crc
    · exact crc
  split
  · exact ⟨_, by rw [countFmt_port, counted]⟩
  · exact ⟨(s.cam.port[p]).fmt, counted⟩

/-- A corrupt line ends: it joins the chain of its camera, is counted and flagged (R309). -/
def corruptEnded (s : State) (p : Port) (tag : Word) (bs : List Byte) : State :=
  camFlag (updPort (digestLine s p tag bs) p fun x => { x with line := none, corrupt := incW x.corrupt, lines := (x.lines + 1) % 2 ^ 64 }) 32

theorem corruptEnded_camOnly (s : State) (p : Port) (tag : Word) (bs : List Byte) : CamOnly (digestLine s p tag bs) (corruptEnded s p tag bs) :=
  (CamOnly.updPort ..).trans (.camFlag ..)

theorem corruptEnded_port (s : State) (p : Port) (tag : Word) (bs : List Byte) : (corruptEnded s p tag bs).cam.port[p] =
    { s.cam.port[p] with line := none, corrupt := incW (s.cam.port[p]).corrupt, lines := ((s.cam.port[p]).lines + 1) % 2 ^ 64 } := by
  simp only [corruptEnded, camFlag, updPort_same, digestLine]

theorem corruptEnded_flag (s : State) (p : Port) (tag : Word) (bs : List Byte) : bit (corruptEnded s p tag bs).cam.status.toNat 5 = true :=
  bit_orW _ (by decide) (by decide)

/-- Where it is not beyond H_f it becomes a fill line. -/
theorem corruptLine_eq {s : State} {p : Port} {l : LineIn} (line : (s.cam.port[p]).line = some l) (cut : l.cut = false) (bs : List Byte) :
    corruptLine s p bs = fillEntry (corruptEnded s p l.tag bs) p none := by
  simp only [corruptLine, corruptEnded, line, cut, Bool.false_eq_true, if_false]

section
variable {s : State} {p : Port} (dt : Nat) {e : CamEntry} {f : PixFmt} {l : LineIn} {x : LineEnd}
variable (line : (s.cam.port[p]).line = some l) (cam : camEntry s p = some e) (pix : pixFmt? e.pfnc = some f)
include line cam pix

theorem exec_lineComplete_sound (whole : x.bytes.length = lineBytes f e.width) (hdr : (s.cam.port[p]).badHdr = false) (code : x.codeBad = false)
    (crc : x.crcBad = 0) (cut : l.cut = false) : exec (.lineComplete p x dt) s =
      .next (fillEntry (countFmt (soundLine (advance s dt) p l.tag x) p (overDepth f e.width x.bytes)) p (some (unpack f e.width x.bytes))) := by
  have cam' : camEntry (advance s dt) p = some e := cam
  simp [exec, execLineComplete, line, cam', pix, whole, hdr, code, crc, cut, soundLine, -Fin.getElem_fin]

theorem exec_lineComplete_corrupt (bad : x.bytes.length ≠ lineBytes f e.width ∨ (s.cam.port[p]).badHdr = true ∨ x.codeBad = true ∨ 0 < x.crcBad) :
    exec (.lineComplete p x dt) s =
      .next (corruptLine (lineJudged (advance s dt) p x (decide (x.bytes.length ≠ lineBytes f e.width))) p x.bytes) := by
  have cam' : camEntry (advance s dt) p = some e := cam
  simp [exec, execLineComplete, line, cam', pix, lineJudged, -Fin.getElem_fin]
  intro whole hdr code crc
  simp [whole, hdr, code, crc, -Fin.getElem_fin] at bad

end

/-! ### The header of an image (R308, R333) -/

section
variable {s : State} {p : Port} {h : Header} {e : CamEntry} (cam : camEntry s p = some e) (up : portUp s.cam.port[p] = true)
include cam up

/-- A header before acceptance is compared only. -/
theorem exec_imageHeader_mismatch (closed : (s.cam.port[p]).accepting = false) (bad : h.width ≠ e.width) :
    exec (.imageHeader p h) s = .next (countFmt (updPort s p fun x => { x with badHdr := true }) p 1) := by
  simp [exec, execImageHeader, cam, receiving_of_up up, closed, bad, -Fin.getElem_fin]

end

/-- An update that gives back the pipeline state that stood there changes nothing. -/
theorem updIsp_fixed {s : State} {p : Port} {f : IspCam → IspCam} (h : f s.isp.cam[p] = s.isp.cam[p]) : updIsp s p f = s := by
  unfold updIsp
  rw [h, Fin.getElem_fin, Vector.set_getElem_self]

/-- Where no frame is open none is padded. -/
theorem padFrame_of_closed {s : State} {p : Port} (closed : (s.isp.cam[p]).frameOpen = false) : padFrame s p = s := by
  unfold padFrame
  split
  · rfl
  · extract_lets c
    rw [show c.frameOpen = false from closed, Bool.false_and, if_neg Bool.false_ne_true]
    exact updIsp_fixed (by rw [← closed])

/-- A header that agrees opens a frame while the port accepts lines. -/
theorem exec_imageHeader_opens {s : State} {p : Port} {h : Header} {e : CamEntry} (cam : camEntry s p = some e)
    (up : portUp s.cam.port[p] = true) (accepting : (s.cam.port[p]).accepting = true) (fmt : h.fmt &&& e.hdrMask = e.hdrCode)
    (width : h.width = e.width) (closed : (s.isp.cam[p]).frameOpen = false) :
    exec (.imageHeader p h) s = .next (updPort (updIsp s p fun c => { c with frameOpen := true, frameLines := 0, longSeen := false }) p
      fun x => { x with badHdr := false }) := by
  simp [exec, execImageHeader, cam, receiving_of_up up, accepting, fmt, width, padFrame_of_closed closed, -Fin.getElem_fin]

/-! ### The statement -/

/-- Settles O41: each command is put into the branch of its clause, whose answer then shows its fields. -/
theorem linesAccepted : Obligations.LinesAccepted := by
  unfold Obligations.LinesAccepted
  refine ⟨?room, ?full, ?other, ?sound, ?corrupt, fun p h e s cam up accepting fmt width closed => exec_imageHeader_opens cam up accepting fmt width closed,
    fun p h e s cam state closed bad => exec_imageHeader_mismatch cam (by simp [portUp, state, -Fin.getElem_fin]) closed bad,
    fun p s up => exec_eventPacket up⟩
  case room =>
    intro p n dt e i s ⟨cam, isp, up, stream, accepting, idle, short, runs⟩ room
    obtain ⟨fifo, drop, lines⟩ := lineTaken_cam (advance s dt) p (refCount (advance s dt)) true
    exact ⟨_, exec_lineFirstPacket_room dt cam isp up stream accepting idle short runs room, by rw [lineTaken_port], fifo, drop, lines, rfl⟩
  case full =>
    intro p n dt e i s ⟨cam, isp, up, stream, accepting, idle, short, runs⟩ full
    obtain ⟨fifo, drop, -⟩ := lineTaken_cam (advance s dt) p (refCount (advance s dt)) false
    refine ⟨_, exec_lineFirstPacket_full dt cam isp up stream accepting idle short runs full, ?_⟩
    obtain ⟨hcam, isp, mem⟩ := (flagEvent_recordsOnly (lineDropped (advance s dt) p (refCount (advance s dt))) 0x41000 1 [] 0xFF 0xFF).lineView
    simp only [hcam, isp, mem, lineDropped_port, lineDropped_cam, lineDropped_flag, lineDropped_mem, fifo, drop, true_and]
    exact ⟨rfl, rfl, rfl⟩
  case other => exact fun p n dt e i s cam isp up other => exec_lineFirstPacket_otherStream dt cam isp up other
  case sound =>
    intro p l x dt e f s line cam pix whole hdr code crc cut
    refine ⟨_, exec_lineComplete_sound dt line cam pix whole hdr code crc cut, ?_⟩
    have after : CamOnly (digestLine (updPort (advance s dt) p fun y => { y with crc := satInc y.crc x.crcBad }) p l.tag x.bytes)
        (countFmt (soundLine (advance s dt) p l.tag x) p (overDepth f e.width x.bytes)) := (CamOnly.updPort ..).trans (.countFmt ..)
    obtain ⟨hcam, isp, lines, c, mem⟩ := fillEntry_digestLine (.updPort (advance s dt) p _) after (some (unpack f e.width x.bytes))
    simp only [hcam, countFmt_port, soundLine_port, advance_cam, true_and]
    exact ⟨isp, lines, c, mem⟩
  case corrupt =>
    intro p l x dt e f s line cam pix bad cut
    refine ⟨_, exec_lineComplete_corrupt dt line cam pix bad, ?_⟩
    have judged := lineJudged_camOnly (advance s dt) p x (decide (x.bytes.length ≠ lineBytes f e.width))
    obtain ⟨fmt, port⟩ := lineJudged_port (advance s dt) p x (decide (x.bytes.length ≠ lineBytes f e.width))
    generalize lineJudged (advance s dt) p x _ = u at judged port
    have line' : (u.cam.port[p]).line = some l := by rw [port]; exact line
    obtain ⟨hcam, isp, lines, -, mem⟩ := fillEntry_digestLine judged (corruptEnded_camOnly u p l.tag x.bytes) none
    rw [corruptLine_eq line' cut]
    simp only [hcam, corruptEnded_port, corruptEnded_flag, port, advance_cam, true_and]
    exact ⟨lines, isp, mem⟩

end Sys2Proof.Machine
end

section
/-! The end of the broadcast and the edge of Beat 0 (O20): what placing the Wings and INIT leave alone, and what the first edge latches. -/

namespace Sys2Proof.Machine

open Sys2Proof

/-! ### Wings are placed (R74, R517) -/

/-- t is s with at most the Wings, their registers and memory changed. -/
def PlacesOnly (s t : State) : Prop := ∃ phys wng lw mem, t = { s with phys := phys, wng := wng, lw := lw, mem := mem }

namespace PlacesOnly

variable {s t u : State}

theorem refl (s : State) : PlacesOnly s s := ⟨_, _, _, _, rfl⟩

theorem trans (h : PlacesOnly s t) (k : PlacesOnly t u) : PlacesOnly s u := by
  obtain ⟨_, _, _, _, rfl⟩ := h
  obtain ⟨_, _, _, _, rfl⟩ := k
  exact ⟨_, _, _, _, rfl⟩

theorem foldl {α : Type} {f : State → α → State} (hf : ∀ s x, PlacesOnly s (f s x)) (l : List α) (s : State) : PlacesOnly s (l.foldl f s) := by
  induction l generalizing s with
  | nil => exact .refl s
  | cons x l ih => exact (hf s x).trans (ih _)

theorem updPhys (s : State) (p : PWing) (f : Phys → Phys) : PlacesOnly s (updPhys s p f) := ⟨_, _, _, _, rfl⟩

theorem updLw (s : State) (k : LWing) (f : LogWing → LogWing) : PlacesOnly s (updLw s k f) := ⟨_, _, _, _, rfl⟩

theorem setMap (s : State) (k : Nat) (p : Option PWing) (n : Nat) : PlacesOnly s (setMap s k p n) := ⟨_, _, _, _, rfl⟩

theorem mem (s : State) (m : Mem) : PlacesOnly s { s with mem := m } := ⟨_, _, _, _, rfl⟩

end PlacesOnly

theorem loadSlice_placesOnly (s : State) (p : PWing) (dst src n : Nat) : PlacesOnly s (loadSlice s p dst src n) := by
  unfold loadSlice
  exact .updPhys ..

theorem loadWeights_placesOnly (s : State) (p : PWing) : PlacesOnly s (loadWeights s p) := by
  unfold loadWeights
  split
  · exact .foldl (fun s _ => loadSlice_placesOnly s ..) _ _
  · exact .refl s

theorem loadBanks_placesOnly (s : State) (p : PWing) (k : Nat) : PlacesOnly s (loadBanks s p k) := by
  unfold loadBanks
  extract_lets w
  split
  · exact .refl s
  · exact .foldl (fun s _ => loadSlice_placesOnly s ..) _ _

theorem restartRegion_placesOnly (s : State) (p : PWing) (b : Int) (r : Sys2Proof.Region) : PlacesOnly s (restartRegion s p b r) := by
  unfold restartRegion
  extract_lets bs t
  have mirror : PlacesOnly s t := by
    unfold t
    split
    · exact .mem ..
    · exact .refl s
  split
  · exact mirror.trans (.updPhys ..)
  · exact mirror.trans (.mem ..)

theorem initialRegion_placesOnly (p : PWing) (s : State) (r : Sys2Proof.Region) : PlacesOnly s (initialRegion p s r) :=
  (restartRegion_placesOnly ..).trans (.mem ..)

theorem placeWing_placesOnly (s : State) (x : Nat × PWing) : PlacesOnly s (placeWing s x) := by
  unfold placeWing
  dsimp only
  split
  · exact ((((PlacesOnly.updPhys ..).trans (.setMap ..)).trans (.updLw ..)).trans
      (.foldl (fun s r => initialRegion_placesOnly _ s r) _ _)).trans (loadBanks_placesOnly ..)
  · exact .refl s

/-- Placing the Wings at start changes them, the map and memory alone. -/
theorem placeWings_placesOnly (s : State) : PlacesOnly s (placeWings s) :=
  (PlacesOnly.foldl (fun s p => (PlacesOnly.updPhys s p _).trans (loadWeights_placesOnly ..)) _ _).trans
    (.foldl (fun s x => placeWing_placesOnly s x) _ _)

/-! ### INIT (R517, R580-R583) -/

/-- t is s with at most the recorder, host levels and register locks changed. -/
def InitOnly (s t : State) : Prop := ∃ recd host regLock,
  t = { s with recd := recd, iio := { s.iio with host := host }, sec := { s.sec with regLock := regLock } }

theorem initWrite_initOnly (s : State) (w : InitWrite) : InitOnly s (initWrite s w) := by
  have value : ∃ recd host, initValue s w = { s with recd := recd, iio := { s.iio with host := host } } := by
    unfold initValue
    (repeat' split) <;> exact ⟨_, _, rfl⟩
  obtain ⟨recd, host, h⟩ := value
  unfold initWrite initLock
  rw [h]
  (repeat' split) <;> exact ⟨_, _, _, rfl⟩

theorem initWrites_initOnly (l : List InitWrite) (s : State) : InitOnly s (l.foldl initWrite s) := by
  induction l generalizing s with
  | nil => exact ⟨_, _, _, rfl⟩
  | cons w l ih =>
    obtain ⟨_, _, _, h⟩ := initWrite_initOnly s w
    obtain ⟨_, _, _, k⟩ := ih (initWrite s w)
    rw [List.foldl_cons, k, h]
    exact ⟨_, _, _, rfl⟩

/-! ### The end of the broadcast (R516, R517, R519) -/

/-- What BROADCAST_COMPLETE loads: the blocks of the compute die, the Wings and the digests. -/
def broadcastLoaded (i : Image) (s : State) : State :=
  pushDigests (placeWings (loadDieRegs i s)) 0 (progDigest i) (weightsDigest i (adptSection i))

/-- After a device start the Annex is loaded and INIT applied too. -/
def initApplied (i : Image) (ab : Byte) (inp : Dword) (s : State) : State :=
  (initWrites i).foldl initWrite (loadAnnexRegs i ab inp (broadcastLoaded i s))

theorem broadcastLoaded_view (i : Image) (s : State) : (broadcastLoaded i s).sec = s.sec ∧ (broadcastLoaded i s).start = s.start ∧
    (broadcastLoaded i s).fuse = s.fuse ∧ (broadcastLoaded i s).c = s.c := by
  obtain ⟨_, _, _, _, h⟩ := placeWings_placesOnly (loadDieRegs i s)
  rw [broadcastLoaded, h]
  simp only [loadDieRegs, pushDigests, and_self]

theorem initApplied_view (i : Image) (ab : Byte) (inp : Dword) (s : State) : (initApplied i ab inp s).start = s.start ∧
    (initApplied i ab inp s).fuse = s.fuse ∧ (initApplied i ab inp s).c = s.c := by
  obtain ⟨-, start, fuse, c⟩ := broadcastLoaded_view i s
  unfold initApplied
  generalize broadcastLoaded i s = t at start fuse c
  obtain ⟨_, _, _, h⟩ := initWrites_initOnly (initWrites i) (loadAnnexRegs i ab inp t)
  rw [h]
  simp only [loadAnnexRegs, start, fuse, c, and_self]

/-- The map of the image is in force and locked, and phase 5 begins (R519). -/
def mapInForceAt5 (i : Image) (s : State) : State :=
  { s with sec := { s.sec with mapLocked := true, map := some i.secmap, phase := 5 } }

theorem exec_broadcastComplete {m ab : Byte} {inp : Dword} {i : Image} {s : State} (img : s.img = some i) (run : running s = true)
    (phase : s.sec.phase = 4) (pass : 1 ≤ s.start.pass) (missing : s.start.missing = []) (digests : ∀ p ∈ availWings s, bit m.toNat p = true)
    (unlocked : s.sec.mapLocked = false) (device : s.start.dieOnly = false) :
    exec (.broadcastComplete m ab inp) s = .next (mapInForceAt5 i (initApplied i ab inp s)) := by
  have sec := (broadcastLoaded_view i s).1
  have start := (initApplied_view i ab inp s).1
  have all : (availWings s).all (fun p => bit m.toNat p) = true := List.all_eq_true.2 digests
  simp only [broadcastLoaded, initApplied] at sec start
  simp [exec, execBroadcastComplete, img, run, phase, pass, missing, all, sec, start, unlocked, device, mapInForceAt5, initApplied,
    broadcastLoaded, -List.all_eq_true]

/-! ### The edge of Beat 0 (R23, R495) -/

/-- What the first edge latches: Beat 0 with no interval to close before it. -/
def firstEdge (s : State) : State :=
  { s with
    enc := s.enc.map fun x => { x with atEdge := x.count }
    iio := { s.iio with pulseEnd := s.c + 1000 }
    esc := { s.esc with
      beat := 0, fresh := false, edgeC := s.c, edgeT := timeT s, edgeCount := refCount s, target := refCount s + s.esc.nb, reached := false
      phase := .drain } }

theorem issueEdge_of_fresh {s : State} (fresh : s.esc.fresh = true) (idle : WingsDone s) : ∃ phys, issueEdge s = { firstEdge s with phys := phys } := by
  obtain ⟨phys, fold, -⟩ := foldl_overrunAt_of_done (s := firstEdge s) idle allP
  refine ⟨phys, ?_⟩
  rw [← fold]
  simp only [issueEdge, fresh, if_true, firstEdge]

theorem exec_ready {s : State} (run : running s = true) (phase : s.sec.phase = 5) (up : s.pwr.dieSince = none) (met : readyMet s = true) :
    exec .ready s = .next (becomeReady s) := by
  simp [exec, execReady, run, phase, up, met]

/-- Settles O20: the map is locked after INIT, and the first edge finds no Wing at work. -/
theorem readyAndFirstBeat : Obligations.ReadyAndFirstBeat := by
  unfold Obligations.ReadyAndFirstBeat
  refine ⟨fun m ab inp i s img run phase pass missing digests unlocked device => ?broadcast, fun s run phase up met idle fresh => ?ready⟩
  case broadcast =>
    obtain ⟨-, fuse, c⟩ := initApplied_view i ab inp s
    exact ⟨_, exec_broadcastComplete img run phase pass missing digests unlocked device, rfl, rfl, rfl, fuse, c⟩
  case ready =>
    have done : WingsDone s := fun p w hw => nomatch (idle p).symm.trans hw
    obtain ⟨phys, h⟩ := issueEdge_of_fresh
      (s := { s with sec := { s.sec with phase := 6 }, iio := { s.iio with ready := true }, start := { s.start with dieOnly := false } }) fresh done
    refine ⟨_, exec_ready run phase up met, ?_⟩
    rw [becomeReady, h]
    exact ⟨rfl, rfl, rfl, rfl, rfl, rfl, rfl, rfl, rfl, rfl⟩

end Sys2Proof.Machine
end

section
/-! The drain between the two tables of a catch-up (O24): the results of the first table are copied then, and a slot that is found unwritten
sets result_missing in ESC_BEAT_STATUS (R247), so that the Escapement is not as it was. -/

namespace Sys2Proof.Machine

open Sys2Proof

/-- Late work of logical Wing 0 that has done its first table: its one object has closed and has no result. -/
def unassessedWork : Work := { beat := 0, lw := 0, catchUp := true, objs := [{ id := 1, slot := 0 }] }

/-- That work on physical Wing 0 within a Beat, with a plan that gives the logical Wing one result slot. -/
def unassessedRun : State :=
  { updPhys {} 0 (fun x => { x with role := 1, work := some unassessedWork }) with
    pwr := { held := false }, img := some { plan := { wings := [{ vShare := some 1 }] } }, esc := { phase := .run, fresh := false } }

/-- The drain between the tables reports the missing result. -/
theorem betweenTables_flags : (betweenTables (advance unassessedRun 0) 0).esc.status = 0x100 := by
  decide +kernel

/-- A late Wing that has done the first table of a catch-up goes on within the Beat (R427). -/
theorem exec_wingDrained_between {s : State} {p : PWing} {w : Work} (dt : Nat) (up : dieUp s = true) (hw : (s.phys[p]).work = some w)
    (done : workDone w = true) (run : s.esc.phase = .run) (two : w.catchUp = true) :
    exec (.wingDrained p dt) s = .next (betweenTables (advance s dt) p) := by
  simp [exec, execWingDrained, up, hw, done, run, two, -Fin.getElem_fin]

/-- Refutes O24: its second clause says that the drain between the tables of a catch-up leaves the Escapement as it was; with a result
missing it sets a flag of ESC_BEAT_STATUS. -/
theorem not_drainsAndGuard : ¬ Obligations.DrainsAndGuard := by
  unfold Obligations.DrainsAndGuard
  rintro ⟨-, between, -⟩
  have up : dieUp unassessedRun = true := rfl
  have hw : (unassessedRun.phys[(0 : Fin 8)]).work = some unassessedWork := rfl
  have done : workDone unassessedWork = true := by decide +kernel
  obtain ⟨t, -, run, -, -, -, -, -, esc, -⟩ := between 0 0 unassessedWork unassessedRun up hw done rfl rfl
  rw [exec_wingDrained_between 0 up hw done rfl rfl] at run
  obtain rfl := Host.Outcome.next.inj run
  have unflagged : unassessedRun.esc.status = 0 := rfl
  rw [← esc, betweenTables_flags] at unflagged
  exact absurd unflagged (by decide)

end Sys2Proof.Machine
end

section
/-! The canonical form of memory (O9): in it the cells are what reads give, so that reads alone determine the list. -/

namespace Sys2Proof.Machine

open Sys2Proof

/-- In the canonical form a cell stands in the list exactly if its address reads its byte, which is not the default. -/
theorem mem_iff_memRead {m : Memory} (wf : Memory.wf m) (c : Host.Cell) : c ∈ m ↔ memRead m c.1 = c.2 ∧ c.2 ≠ memDefault := by
  induction m with
  | nil => simp [eq_comm]
  | cons d m ih =>
    obtain ⟨rising, bytes⟩ := wf
    obtain ⟨above, rising⟩ := List.pairwise_cons.1 rising
    obtain ⟨byte, bytes⟩ := List.forall_mem_cons.1 bytes
    rw [List.mem_cons, ih ⟨rising, bytes⟩, memRead]
    by_cases at' : d.1 = c.1
    case neg =>
      have other : c ≠ d := fun h => at' (h ▸ rfl)
      simp [at', other]
    case pos =>
      have unlisted : memRead m c.1 = memDefault := memRead_below m c.1 (at' ▸ above)
      rw [unlisted, if_pos at']
      constructor
      · rintro (rfl | ⟨read, set⟩)
        · exact ⟨rfl, byte⟩
        · exact absurd read.symm set
      · rintro ⟨read, -⟩
        exact .inl (Prod.ext at'.symm read.symm)

/-- Memories in the canonical form that read alike are equal: they list the same cells, both by rising address. -/
theorem memory_eq_of_memRead {m n : Memory} (hm : Memory.wf m) (hn : Memory.wf n) (same : ∀ a, memRead m a = memRead n a) : m = n := by
  have : Std.Irrefl fun a b : Host.Cell => a.1 < b.1 := ⟨fun a => Nat.lt_irrefl a.1⟩
  have : Std.Antisymm fun a b : Host.Cell => a.1 < b.1 := ⟨fun _ _ h k => absurd h (Nat.lt_asymm k)⟩
  exact hm.1.eq_of_mem_iff hn.1 fun c => by rw [mem_iff_memRead hm, mem_iff_memRead hn, same]

/-- Settles O9: a cell that a canonical memory lists is one that it reads. -/
theorem memoryCanonical : Obligations.MemoryCanonical := by
  unfold Obligations.MemoryCanonical
  exact ⟨fun m a bs wf => memWrites_keeps_wf bs m a wf, fun m n hm hn same => memory_eq_of_memRead hm hn same⟩

end Sys2Proof.Machine
end

section
/-! Self-tests of a Wing (O34): what a request for one starts, and what the end of a step leaves. -/

namespace Sys2Proof.Machine

open Sys2Proof

/-! ### A request (R441, R454) -/

/-- The state once a request for a test of p is in TST_BIST_CTRL, with its start bit as given. -/
def testAsked (s : State) (p : PWing) (start : Bool) : State :=
  { s with tst := { s.tst with bistWing := p, bistFor := p, bistStart := start } }

section
variable {s : State} {p : PWing} (idle : s.tst.bistStart = false)
include idle

theorem requestTest_spare (hold : s.sec.phase ≠ 7) (spare : (planOf s).noSpare = false) (role : (s.phys[p]).role = 2)
    (bist : (s.phys[p]).bist = none) (reset : (s.phys[p]).softReset = none) (next : (s.phys[p]).nextRole = none) :
    requestTest s p = updPhys (testAsked s p true) p fun x =>
      if s.esc.phase = .off then { x with role := 3, bist := some { step := 1, until' := 6 } } else { x with nextRole := some 3 } := by
  have plan : planOf (testAsked s p true) = planOf s := rfl
  simp only [testAsked] at plan
  simp only [requestTest, idle, hold, plan, spare, role, bist, reset, next, testAsked, beq_iff_eq, Option.isSome_none, Bool.false_eq_true,
    or_false, if_false, if_true, reduceCtorEq, Nat.reduceEqDiff]
  split <;> rfl

theorem requestTest_refused (hold : s.sec.phase ≠ 7) (role : (s.phys[p]).role = 3 ∨ (s.phys[p]).role = 4) :
    requestTest s p = updPhys (testAsked s p false) p fun x => { x with bistResult := 7 } := by
  simp only [requestTest, idle, hold, role, beq_iff_eq, Bool.false_eq_true, if_false, if_true, ite_self]
  rfl

theorem requestTest_hold (hold : s.sec.phase = 7) (bist : (s.phys[p]).bist = none) (reset : (s.phys[p]).softReset = none)
    (next : (s.phys[p]).nextRole = none) :
    requestTest s p = updPhys (testAsked s p true) p fun x => { x with bist := some { step := 2, until' := 5 } } := by
  simp only [requestTest, idle, hold, bist, reset, next, beq_self_eq_true, Option.isSome_none, Bool.false_eq_true, or_false, if_false, if_true]
  rfl

end

theorem exec_bistStart {a : Acc} {s : State} (p : Fin 8) (run : running s = true) (free : dieBlocked s = false) (secure : a.secure = true) :
    exec (.bistStart a p) s = .next (requestTest s p) := by
  simp [exec, execBistStart, actionWrite, run, free, secure]

/-! ### The end of a step (R438-R440) -/

/-- The start bit of TST_BIST_CTRL once a test of p has ended (R454). -/
theorem endTest_eq (s : State) (p : PWing) (result : Nat) :
    endTest s p result = { updPhys s p fun x => { x with bist := none, bistResult := result, tested := true } with
      tst := { s.tst with bistStart := s.tst.bistStart && s.tst.bistFor != p.val } } := by
  unfold endTest
  dsimp only [updPhys]
  split
  next h => simp [h]
  next h => rw [bne_iff_ne.2 h, Bool.and_true]

section
variable {s : State} {p : PWing} {b : Bist} (run : running s = true) (bist : (s.phys[p]).bist = some b)
include run bist

theorem exec_bistStep_failed {r : BistResult} {result cause : Nat} (fails : bistFailure b.step r = some (result, cause)) :
    exec (.bistStepComplete p r) s = .next (failTest s p b result cause) := by
  simp [exec, execBistStepComplete, run, bist, fails, -Fin.getElem_fin]

theorem exec_bistStep_void : exec (.bistStepComplete p .void) s = .next s := by
  simp [exec, execBistStepComplete, run, bist, bistFailure, bistSuccess, -Fin.getElem_fin]

/-- A passing step takes no spare rows and columns. -/
theorem exec_bistStep_pass (rows : (s.phys[p]).rowsUsed ≤ 255) (cols : (s.phys[p]).colsUsed ≤ 255) :
    exec (.bistStepComplete p .pass) s = .next (nextStep s p b) := by
  have unused : updPhys s p (fun x =>
      { x with rowsUsed := Nat.min 255 x.rowsUsed, colsUsed := Nat.min 255 x.colsUsed, repairs := x.repairs }) = s := by
    refine updPhys_fixed ?_
    show { (s.phys[p]) with rowsUsed := min 255 (s.phys[p]).rowsUsed, colsUsed := min 255 (s.phys[p]).colsUsed } = s.phys[p]
    rw [min_eq_right rows, min_eq_right cols]
  simp [exec, execBistStepComplete, run, bist, bistFailure, bistSuccess, unused, -Fin.getElem_fin]

end

theorem nextStep_goesOn {b : Bist} (s : State) (p : PWing) (abort : b.abort = false) (more : b.step < b.until') :
    nextStep s p b = updPhys s p fun x => { x with bist := some { b with step := b.step + 1 } } := by
  simp [nextStep, abort, Nat.not_le.2 more]

/-- The last step of a background test ends it (R75, R437). -/
theorem nextStep_ends {b : Bist} (s : State) (p : PWing) (abort : b.abort = false) (last : b.until' = 6) (done : 6 ≤ b.step)
    (sound : b.repaired = false) :
    nextStep s p b = updPhys (endTest s p 1) p fun x => { x with nextRole := some 2, lastPass := s.esc.beat } := by
  have beat : (endTest s p 1).esc = s.esc := by rw [endTest_eq]; rfl
  simp [nextStep, passTest, abort, last, done, sound, beat]

/-! ### A failed test (R438, R439, R444) -/

/-- A report takes the next number, and sets the flag of a full log. -/
theorem addReport_int (s : State) (r : Report) : (addReport s r).int =
    { s.int with
      reportSeq := (s.int.reportSeq + 1) % 2 ^ 32
      status := if decide (512 ≤ s.ret.intLog.length) then orW s.int.status 0x800 else s.int.status } :=
  congrArg (·.2.2.2) (logEvent_recordsOnly ..).faultView

/-- A flag stays set when others are. -/
theorem bit_orW_of_bit {w : Word} {i : Nat} (mask : Nat) (h : bit w.toNat i = true) : bit (orW w mask).toNat i = true := by
  have set : w.getLsbD i = true := by
    simpa [bit, BitVec.getLsbD, Nat.testBit_eq_decide_div_mod_eq, Nat.shiftRight_eq_div_pow] using h
  have kept : (orW w mask).getLsbD i = true := by rw [orW, BitVec.getLsbD_or, set, Bool.true_or]
  simpa [bit, BitVec.getLsbD, Nat.testBit_eq_decide_div_mod_eq, Nat.shiftRight_eq_div_pow] using kept

theorem ReportsOnly.memory {s t : State} (h : ReportsOnly s t) : t.phys = s.phys ∧ t.mem = s.mem := by
  obtain ⟨_, _, _, _, _, _, _, _, _, _, _, _, _, _, _, rfl⟩ := h
  exact ⟨rfl, rfl⟩

/-- The state in which a failed test writes its report: the test has ended with its result and set its flag. -/
def testFailed (s : State) (p : PWing) (b : Bist) (result : Nat) : State :=
  let t := endTest { s with int := { s.int with status := orW s.int.status 0x100 } } p result
  if b.diag || b.until' == 6 then updPhys t p fun x => { x with nextRole := some 6 } else t

theorem testFailed_phys (s : State) (p : PWing) (b : Bist) (result : Nat) :
    ((testFailed s p b result).phys[p]).bist = none ∧ ((testFailed s p b result).phys[p]).bistResult = result := by
  unfold testFailed
  rw [endTest_eq]
  dsimp only
  split
  · rw [updPhys_same, updPhys_same]
    exact ⟨rfl, rfl⟩
  · rw [updPhys_same]
    exact ⟨rfl, rfl⟩

theorem testFailed_view (s : State) (p : PWing) (b : Bist) (result : Nat) :
    (testFailed s p b result).int = { s.int with status := orW s.int.status 0x100 } ∧ (testFailed s p b result).mem = s.mem := by
  unfold testFailed
  rw [endTest_eq]
  dsimp only
  split <;> exact ⟨rfl, rfl⟩

/-- A failed test of p has ended with its result, its flag and one more report. -/
theorem failTest_frame (s : State) (p : PWing) (b : Bist) (result cause : Nat) :
    let t := failTest s p b result cause
    (t.phys[p]).bist = none ∧ (t.phys[p]).bistResult = result ∧ bit t.int.status.toNat 8 = true ∧
    t.int.reportSeq = (s.int.reportSeq + 1) % 2 ^ 32 ∧ t.mem = s.mem := by
  intro t
  obtain ⟨r, report⟩ : ∃ r, t = addReport (testFailed s p b result) r := ⟨_, rfl⟩
  obtain ⟨bist, res⟩ := testFailed_phys s p b result
  obtain ⟨int, mem⟩ := testFailed_view s p b result
  obtain ⟨phys', mem'⟩ := (addReport_reportsOnly (testFailed s p b result) r).memory
  have flag : bit (orW s.int.status 0x100).toNat 8 = true := bit_orW _ (by decide) (by decide)
  rw [report, phys', mem', addReport_int, int]
  refine ⟨bist, res, ?_, rfl, mem⟩
  dsimp only
  split
  · exact bit_orW_of_bit _ flag
  · exact flag

/-- Settles O34: a request starts the test of the Wing's role, and each outcome of a step has its own equation. -/
theorem selfTests : Obligations.SelfTests := by
  unfold Obligations.SelfTests
  refine ⟨?spare, ?refused, ?hold, ?goesOn, ?ends, ?fails, fun p b s run bist => exec_bistStep_void run bist⟩
  case spare =>
    intro a p s run free secure idle hold noSpare role bist reset next
    rw [exec_bistStart p run free secure, requestTest_spare idle hold noSpare role bist reset next]
    rfl
  case refused =>
    intro a p s run free secure idle hold role
    rw [exec_bistStart p run free secure, requestTest_refused idle hold role]
    rfl
  case hold =>
    intro a p s run free secure idle hold bist reset next
    rw [exec_bistStart p run free secure, requestTest_hold idle hold bist reset next]
    rfl
  case goesOn =>
    intro p b s run bist abort more rows cols
    rw [exec_bistStep_pass run bist rows cols, nextStep_goesOn s p abort more]
  case ends =>
    intro p b s run bist abort last done sound rows cols
    refine ⟨_, exec_bistStep_pass run bist rows cols, ?_⟩
    rw [nextStep_ends s p abort last done sound, endTest_eq]
    refine ⟨?_, rfl, rfl, rfl, fun q other => ?_⟩
    · rw [updPhys_same]
      dsimp only
      rw [updPhys_same]
    · rw [updPhys_other _ _ _ q other]
      dsimp only
      rw [updPhys_other _ _ _ q other]
  case fails =>
    intro p b s run bist step
    exact ⟨_, exec_bistStep_failed run bist (by simp [bistFailure, step]), failTest_frame s p b 5 0x0C⟩

end Sys2Proof.Machine
end

section
/-! A command that passes its checks (O27): every engine row is one step of its queue, and completing takes the command off it. -/

namespace Sys2Proof.Machine

open Sys2Proof

/-! ### Flags of completed work (R209, R251, R360) -/

theorem foldl_phys {α : Type} {f : State → α → State} (hf : ∀ s x, (f s x).phys = s.phys) (l : List α) (s : State) :
    (l.foldl f s).phys = s.phys := by
  induction l generalizing s with
  | nil => rfl
  | cons x l ih => exact (ih (f s x)).trans (hf s x)

theorem noteDefect_phys (s : State) (a : Nat) : (noteDefect s a).phys = s.phys := rfl

theorem asmFlags_phys (k : LWing) (s : State) (o : AsmNote) : (asmFlags k s o).phys = s.phys := by
  unfold asmFlags
  dsimp only
  split
  · exact (raiseAlarm_recordsOnly ..).phys.trans (foldl_phys noteDefect_phys _ _)
  · exact foldl_phys noteDefect_phys _ _

theorem flagTally_phys (s : State) (k : LWing) (t : Tally) : (flagTally s k t).phys = s.phys :=
  (foldl_phys (fun _ _ => (raiseAlarm_recordsOnly ..).phys) _ _).trans (foldl_phys (asmFlags_phys k) _ _)

/-! ### The queues of a Wing while a command completes (R71, R353) -/

/-- The Wing has work whose latency-critical queues, and the commands they have completed, are those of w. -/
def QueuesOf (p : PWing) (w : Work) (t : State) : Prop := ∃ x, (t.phys[p]).work = some x ∧ x.lc = w.lc ∧ x.prog = w.prog

theorem QueuesOf.of_phys {p : PWing} {w : Work} {s t : State} (h : QueuesOf p w s) (same : t.phys = s.phys) : QueuesOf p w t := by
  unfold QueuesOf
  rw [same]
  exact h

theorem queuesOf_updPhys {p : PWing} {w x : Work} {f : Phys → Phys} (s : State) (work : ∀ y, (f y).work = some x) (lc : x.lc = w.lc)
    (prog : x.prog = w.prog) : QueuesOf p w (updPhys s p f) :=
  ⟨x, by rw [updPhys_same, work], lc, prog⟩

theorem applyEng_queuesOf (s : State) (p : PWing) (w : Work) (e : Eng) : QueuesOf p w (applyEng s p w e) := by
  unfold applyEng
  extract_lets w' t
  have used : QueuesOf p w t := queuesOf_updPhys s (fun _ => rfl) rfl rfl
  split
  · exact used
  · exact used.of_phys (flagTally_phys ..)

theorem noteExport_phys (s : State) (p : PWing) (w : Work) (c : Cmd) : (noteExport s p w c).phys = s.phys := by
  unfold noteExport
  (repeat' split) <;> rfl

/-- A run of the Assembler takes no command off a queue (R353). -/
theorem assemble_queues (s : State) (k : LWing) (w : WingPlan) (b addr rows width pitch : Nat) (dram : Memory) (bad : List Nat) (x : Work) :
    (assemble s k w b addr rows width pitch dram bad x).work.lc = x.lc ∧ (assemble s k w b addr rows width pitch dram bad x).work.prog = x.prog := by
  unfold assemble
  dsimp only
  split
  · exact ⟨rfl, rfl⟩
  · split <;> exact ⟨rfl, rfl⟩

theorem runAssembler_queuesOf {s : State} {p : PWing} {w : Work} (h : QueuesOf p w s) (c : Cmd) : QueuesOf p w (runAssembler s p c) := by
  obtain ⟨x, work, lc, prog⟩ := h
  unfold runAssembler
  rw [work]
  dsimp -zeta only
  extract_lets plan d dram m secret o o' u note w'
  have made : o'.work = o.work := by unfold o'; generalize m = m'; cases m' <;> rfl
  obtain ⟨lc', prog'⟩ : o'.work.lc = x.lc ∧ o'.work.prog = x.prog := by
    rw [made]
    exact assemble_queues ..
  split
  · refine queuesOf_updPhys u (fun _ => rfl) ?_ ?_
    exacts [lc'.trans lc, prog'.trans prog]
  · refine .of_phys (queuesOf_updPhys _ (fun _ => rfl) ?_ ?_) (flagTally_phys ..)
    exacts [lc'.trans lc, prog'.trans prog]

/-- A latency-critical command leaves its queue, is counted, signals its token, and marks the regions that it wrote (R71, R267). -/
theorem popCmd_lc {s : State} {p : PWing} {w : Work} (work : (s.phys[p]).work = some w) (qi : Nat) (c : Cmd) :
    ∃ bank failing, popCmd s p qi false c = updPhys s p fun x => { x with work := some { w with
      tok := if cSigEn c then vUpd w.tok c.sigTok fun n => Nat.min 65535 (n + 1) else w.tok
      lc := vUpd w.lc qi List.tail, prog := vUpd w.prog qi (· + 1), written := w.written ++ writtenRegions s w.lw c
      bank := bank, failing := failing } } := by
  refine ⟨if qi = 0 && !chainOpen c then none else w.bank, w.failing.filter fun f => f.queue != qi, ?_⟩
  simp only [popCmd, updPhys, work, Option.map_some, Bool.false_eq_true, if_false]
  split <;> rfl

theorem popCmd_queues {s : State} {p : PWing} {w : Work} (h : QueuesOf p w s) (qi : Nat) (c : Cmd) :
    ∃ x, ((popCmd s p qi false c).phys[p]).work = some x ∧ x.lc = vUpd w.lc qi List.tail ∧ x.prog = vUpd w.prog qi (· + 1) := by
  obtain ⟨x, work, lc, prog⟩ := h
  obtain ⟨bank, failing, popped⟩ := popCmd_lc work qi c
  rw [popped, updPhys_same, ← lc, ← prog]
  exact ⟨_, rfl, rfl, rfl⟩

theorem completeCmd_queues (s : State) (p : PWing) (w : Work) (qi : Nat) (c : Cmd) (e : Eng) :
    ∃ x, ((completeCmd s p w qi false c e).phys[p]).work = some x ∧ x.lc = vUpd w.lc qi List.tail ∧ x.prog = vUpd w.prog qi (· + 1) := by
  have exported : QueuesOf p w (noteExport (applyEng (markVerified s w c) p w e) p w c) :=
    (applyEng_queuesOf ..).of_phys (noteExport_phys ..)
  unfold completeCmd
  simp only [Bool.false_eq_true, if_false]
  refine popCmd_queues ?_ qi c
  split
  · exact runAssembler_queuesOf exported c
  · exact exported

/-! ### A step of a queue (R71, R255, R271) -/

/-- A head that may start, and passes every check, completes. -/
theorem engineStep_completes {s : State} {p : PWing} {qi : Nat} {want : WingPlan → Cmd → Bool} {hw : Hw} {w : Work} {be : Bool} {idx : Nat}
    {c : Cmd} {e : Eng} {u : State} (up : dieUp s = true) (work : (s.phys[p]).work = some w)
    (head : queueHead s p w qi (cyclesNow (advance s hw.dt) w - hw.cycles) = some (be, idx, c)) (named : want (wingPlan s w.lw) c = true)
    (inTime : be = true ∨ startsLate s w c (cyclesNow (advance s hw.dt) w - hw.cycles) = false) (sound : hw.fail = none)
    (links : hw.uncorr = [])
    (counted : u = violations (worldHits (linkErrors (advance s hw.dt) hw) (issueOf (linkErrors (advance s hw.dt) hw) w qi be idx c)).length
      (linkErrors (advance s hw.dt) hw))
    (passed : evalCmd u p w qi be idx c = .ok e) : engineStep p qi want hw s = completeCmd u p w qi be c e := by
  have onTime : (!be && startsLate s w c (cyclesNow (advance s hw.dt) w - hw.cycles)) = false := by
    rcases inTime with rfl | h
    · rfl
    · rw [h, Bool.and_false]
  have noFail : hwFail qi hw = none := by simp [hwFail, sound, links]
  simp only [engineStep, up, work, head, named, onTime, issueNow, noFail, ← counted, passed, Bool.not_true, Bool.false_and,
    Bool.false_eq_true, if_false]

/-- Instruction x is a step of its queue. -/
def StepsQueue (x : Instr × PWing × Nat × (WingPlan → Cmd → Bool) × Hw) : Prop :=
  ∀ s, exec x.1 s = .next (engineStep x.2.1 x.2.2.1 x.2.2.2.1 x.2.2.2.2 s)

/-- Settles O27: each of the 43 rows is a step of its queue, whose head completes. -/
theorem engineCommands : Obligations.EngineCommands := by
  unfold Obligations.EngineCommands
  intro rows
  have steps : ∀ row ∈ rows, ∀ x, row x → StepsQueue x := by
    simp only [rows, List.forall_mem_cons, List.not_mem_nil, false_imp_iff, implies_true, and_true]
    refine ⟨?any, ?transfer, ?matrix, ?elementwise, ?rowwise⟩
    case any => rintro _ ⟨p, q, hw, rfl | rfl⟩ s <;> rfl
    case transfer => rintro _ ⟨p, d, hw, rfl | rfl | rfl⟩ s <;> rfl
    case matrix => rintro _ ⟨p, hw, rfl | rfl | rfl | rfl | rfl | rfl | rfl | rfl | rfl⟩ s <;> rfl
    case elementwise =>
      rintro _ ⟨p, v, hw, rfl | rfl | rfl | rfl | rfl | rfl | rfl | rfl | rfl | rfl | rfl | rfl | rfl | rfl | rfl⟩ s <;> rfl
    case rowwise =>
      rintro _ ⟨p, v, hw, rfl | rfl | rfl | rfl | rfl | rfl | rfl | rfl | rfl | rfl | rfl | rfl | rfl | rfl⟩ s <;> rfl
  intro row mem i p qi want hw isRow s w be idx c e t v u up work time head named inTime sound links linked counted passed
  subst time linked
  have step := steps row mem _ isRow s
  rw [engineStep_completes up work head named inTime sound links counted passed] at step
  refine ⟨step, ?_⟩
  rintro rfl
  exact completeCmd_queues u p w qi c e

end Sys2Proof.Machine
end

section
/-! NOP and SYNC (O28): a command with no operand computes nothing, so that only the queue and the token move. -/

namespace Sys2Proof.Machine

open Sys2Proof

/-! ### No memory that a non-secure Wing would drop (R518) -/

/-- A canonical memory differs from itself nowhere. -/
theorem memDiff_self {m : Memory} (wf : Memory.wf m) : memDiff m m = [] := by
  have same : (m.filter fun c => memRead m c.1 != c.2) = [] := by
    refine List.filter_eq_nil_iff.2 fun c mem => ?_
    rw [bne_iff_ne, not_not]
    exact ((mem_iff_memRead wf c).1 mem).1
  rw [memDiff, same]
  rfl

theorem keepSecure_self (m : SecMap) (k sp : Nat) {a : Memory} (wf : Memory.wf a) : keepSecure m k sp a a = a := by
  rw [keepSecure, memDiff_self wf]
  rfl

/-- Of a view that the engine left as it was, only cells of the scratch area are dropped. -/
theorem dropWorld_self (s : State) (i : Issue) {e : Eng} (gal : Memory.wf e.gal) (dram : Memory.wf e.dram) :
    ∃ scratch, dropWorld s i e e = { e with scratch := scratch } := by
  unfold dropWorld
  split
  · exact ⟨e.scratch, rfl⟩
  next m _ =>
    have kept : ∀ (sp : Nat) (l : List Nat), (l.filter fun b => l.contains b || secureAt m i.k sp (512 * b)) = l := fun sp l =>
      List.filter_eq_self.2 fun b mem => by simp [mem]
    refine ⟨e.scratch.filter fun c => !secureAt m i.k 1 c.1, ?_⟩
    simp only [keepSecure_self _ _ _ gal, keepSecure_self _ _ _ dram, kept]

/-! ### Counters that count nothing (R11, R29) -/

theorem satInc_zero (w : Word) : satInc w 0 = w := by
  have : Nat.min 0xFFFFFFFF (w.toNat + 0) = w.toNat := Nat.min_eq_right (Nat.le_of_lt_succ w.isLt)
  rw [satInc, this, BitVec.ofNat_toNat, BitVec.setWidth_eq]

theorem orW_zero (w : Word) : orW w 0 = w := BitVec.or_zero

theorem flagTally_nothing (s : State) (k : LWing) : flagTally s k {} = s := by
  simp [flagTally, satInc_zero, orW_zero]

theorem linkErrors_none {s : State} {hw : Hw} (corr : hw.corr = []) (uncorr : hw.uncorr = []) : linkErrors s hw = s := by
  simp [linkErrors, corr, uncorr, satInc_zero]

/-! ### A command without operands (R254, R257) -/

section
variable {c : Cmd} (absent : ∀ j, opAbsent c j = true)
include absent

theorem opDesc_of_absent (w : WingPlan) (j : Nat) : opDesc w c j = none := by rw [opDesc, absent, if_pos rfl]

theorem worldHits_of_absent (s : State) (w : Work) (qi : Nat) (be : Bool) (idx : Nat) : worldHits s (issueOf s w qi be idx c) = [] := by
  unfold worldHits
  split
  · rfl
  · simp [operand, issueOf, absent]

variable (control : c.opcode < 2)
include control

theorem markVerified_of_control (s : State) (w : Work) : markVerified s w c = s := by
  have kv : kvReads c.opcode = false := by simp [kvReads]; omega
  simp [markVerified, readVersions, kv, opDesc_of_absent absent]

theorem writtenRegions_of_control (s : State) (k : Nat) : writtenRegions s k c = [] := by
  have kv : kvWrites c.opcode = false := by simp [kvWrites]; omega
  simp [writtenRegions, kv, opDesc_of_absent absent]

end

/-- NOP and SYNC compute nothing (R257). -/
theorem opBody_of_control {i : Issue} (control : i.cmd.opcode < 2) (e : Eng) : opBody i e = .ok e := by
  have early : i.cmd.opcode < 0x10 := by omega
  rw [opBody, if_pos early, xfBody]
  split
  · omega
  · omega
  · rfl

/-- A NOP or SYNC that passes its checks leaves the engine's view as it is, but for the scratch area. -/
theorem evalCmd_of_control {s : State} {p : PWing} {w : Work} {qi : Nat} {be : Bool} {idx : Nat} {c : Cmd} {e : Eng} (control : c.opcode < 2)
    (gal : Memory.wf (s.phys[p]).gallery) (dram : Memory.wf s.mem.dram) (passed : evalCmd s p w qi be idx c = .ok e) :
    ∃ scratch, e = { engOf s p w with scratch := scratch } := by
  have left : dropWorld s (issueOf s w qi be idx c) (engOf s p w) (engOf s p w) = e := by
    unfold evalCmd at passed
    dsimp only at passed
    rw [opBody_of_control control] at passed
    -- an ill-formed command, an operand, a secure block and a Carried version each end in a failed check
    split at passed
    · cases passed
    split at passed
    · cases passed
    split at passed
    · cases passed
    split at passed
    · cases passed
    exact Except.ok.inj passed
  obtain ⟨scratch, dropped⟩ := dropWorld_self s (issueOf s w qi be idx c) (e := engOf s p w) gal dram
  exact ⟨scratch, left.symm.trans dropped⟩

/-! ### Completion (R71, R265) -/

/-- Results that are the engine's own view change the work of the Wing alone. -/
theorem applyEng_unchanged {s : State} {p : PWing} {w : Work} (own : w.shadow = false) (scratch : List Host.Cell) :
    ∃ x, applyEng s p w { engOf s p w with scratch := scratch } = updPhys s p (fun y => { y with work := some x }) ∧
      x.lc = w.lc ∧ x.prog = w.prog ∧ x.tok = w.tok ∧ x.be = w.be ∧ x.written = w.written := by
  have flags : addTally {} { engOf s p w with scratch := scratch } = {} := by simp [addTally, engOf]
  refine ⟨{ w with scratch := scratch, unassessed := w.unassessed ++ [], tally := addTally w.tally (engOf s p w) }, ?_, rfl, rfl, rfl, rfl, rfl⟩
  rw [applyEng, if_neg (by rw [own]; exact Bool.false_ne_true), flags, flagTally_nothing]
  rfl

/-- A latency-critical NOP or SYNC that completes changes the work of its Wing alone. -/
theorem completeCmd_of_control {s : State} {p : PWing} {w : Work} {qi : Nat} {c : Cmd} (own : w.shadow = false)
    (absent : ∀ j, opAbsent c j = true) (control : c.opcode < 2) (scratch : List Host.Cell) :
    ∃ x, completeCmd s p w qi false c { engOf s p w with scratch := scratch } = updPhys s p (fun y => { y with work := some x }) ∧
      x.lc = vUpd w.lc qi List.tail ∧ x.prog = vUpd w.prog qi (· + 1) ∧
      x.tok = (if cSigEn c then vUpd w.tok c.sigTok fun n => Nat.min 65535 (n + 1) else w.tok) ∧ x.be = w.be ∧ x.written = w.written := by
  obtain ⟨x, applied, lc, prog, tok, be, written⟩ := applyEng_unchanged (s := s) (p := p) own scratch
  have noExport : ∀ t, noteExport t p w c = t := fun t => by rw [noteExport, if_pos (.inl (by omega))]
  have noMail : ∀ v, mailboxCopy v c = false := fun v => by
    have other : (c.opcode == 0x08) = false := by simp; omega
    simp [mailboxCopy, other]
  simp only [completeCmd, markVerified_of_control absent control, applied, noExport, noMail, Bool.false_eq_true, if_false]
  obtain ⟨bank, failing, popped⟩ := popCmd_lc (s := updPhys s p fun y => { y with work := some x }) (w := x) (by rw [updPhys_same]) qi c
  rw [popped, updPhys_updPhys, writtenRegions_of_control absent control, List.append_nil, ← lc, ← prog, ← tok, ← be, ← written]
  exact ⟨_, rfl, rfl, rfl, rfl, rfl, rfl⟩

/-- NOP and SYNC are steps of the queue that they name. -/
theorem exec_control (sync : Bool) (p : PWing) (q : Queue) (hw : Hw) (s : State) :
    exec (if sync then .sync p q hw else .nop p q hw) s = .next (engineStep p (queueIdx q) (opIs (if sync then 0x01 else 0x00)) hw s) := by
  cases sync <;> rfl

/-- Settles O28: the head computes nothing, writes nothing and leaves its queue. -/
theorem queueOrderAndTokens : Obligations.QueueOrderAndTokens := by
  unfold Obligations.QueueOrderAndTokens
  intro sync p q hw s w idx c e up sound corr uncorr work own dram gal head inTime opcode absent passed
  have control : c.opcode < 2 := by rw [opcode]; split <;> decide
  have noLink := linkErrors_none (s := advance s hw.dt) corr uncorr
  have noHit : advance s hw.dt = violations (worldHits (linkErrors (advance s hw.dt) hw)
      (issueOf (linkErrors (advance s hw.dt) hw) w (queueIdx q) false idx c)).length (linkErrors (advance s hw.dt) hw) := by
    rw [worldHits_of_absent absent, noLink]
    rfl
  rw [noLink] at passed
  have step := engineStep_completes (want := opIs (if sync then 0x01 else 0x00)) up work head (by rw [opIs, opcode, beq_self_eq_true])
    (.inr inTime) sound uncorr noHit passed
  obtain ⟨scratch, rfl⟩ := evalCmd_of_control (s := advance s hw.dt) control gal dram passed
  obtain ⟨x, completed, lc, prog, tok, be, written⟩ := completeCmd_of_control (s := advance s hw.dt) (p := p) (qi := queueIdx q) own absent
    control scratch
  refine ⟨_, exec_control .., ?_⟩
  rw [step, completed]
  exact ⟨rfl, fun r other => updPhys_other (advance s hw.dt) p _ r other, x, updPhys_same .., lc, prog, tok, be, written⟩

end Sys2Proof.Machine
end

section
/-! A failed check of a latency-critical command (O29): it uses no result, and its queue waits for the repeat. -/

namespace Sys2Proof.Machine

open Sys2Proof

/-! ### What is counted before a check (R12, R415) -/

/-- World violations are counted in the security unit alone. -/
theorem violations_sec (n : Nat) (s : State) : ∃ sec, violations n s = { s with sec := sec } := by
  induction n generalizing s with
  | zero => exact ⟨_, rfl⟩
  | succ n ih =>
    obtain ⟨sec, h⟩ := ih (violation s)
    exact ⟨sec, h⟩

/-- Link errors and world violations are counters: Wings, DRAM and time are as they were. -/
theorem counted_frame (n : Nat) (s : State) (hw : Hw) :
    let v := violations n (linkErrors s hw)
    v.phys = s.phys ∧ v.mem.dram = s.mem.dram ∧ v.c = s.c ∧ timeT v = timeT s := by
  obtain ⟨sec, h⟩ := violations_sec n (linkErrors s hw)
  rw [h]
  exact ⟨rfl, rfl, rfl, rfl⟩

/-! ### A command that fails (R169, R250, R413, R419) -/

/-- A summary is written to the check log of its Wing, and nowhere else. -/
theorem logSummary_eq (s : State) (p : PWing) (bs : List Byte) :
    ∃ log, logSummary s p bs = updPhys s p fun x => { x with checkLog := log } := by
  unfold logSummary
  split
  · exact ⟨(s.phys[p]).checkLog, (updPhys_fixed rfl).symm⟩
  · exact ⟨(s.phys[p]).checkLog ++ [bs], rfl⟩

/-- Without a best-effort step in flight there is none to discard (R274). -/
theorem discardStep_of_noStep {s : State} {p : PWing} {w : Work} (work : (s.phys[p]).work = some w) (none' : w.beJob = none) :
    discardStep s p = s := by
  simp only [discardStep, work, none']

/-- What a queue keeps of a failed check until the repeat. -/
def failedCheck (s : State) (w : Work) (qi idx : Nat) (c : Cmd) (f : CheckFail) : Failing :=
  { queue := qi, be := false, index := idx, cmd := c, atT := timeT s, fail := f, summary := summaryBytes qi idx w.beat c.opcode f false }

/-- A latency-critical command that fails a check is kept with the failure; its summary is logged. -/
theorem failCmd_lc {s : State} {p : PWing} {w : Work} (work : (s.phys[p]).work = some w) (noStep : w.beJob = none) (qi idx : Nat) (c : Cmd)
    (f : CheckFail) : ∃ log, failCmd s p w qi false idx c f = updPhys s p fun x =>
      { x with checkLog := log, work := some { w with repeated := true, failing := w.failing ++ [failedCheck s w qi idx c f] } } := by
  obtain ⟨log, logged⟩ := logSummary_eq s p (summaryBytes qi idx w.beat c.opcode f false)
  have kept : ((updPhys s p fun x => { x with checkLog := log }).phys[p]).work = some w := by rw [updPhys_same, work]
  refine ⟨log, ?_⟩
  simp only [failCmd, logged, discardStep_of_noStep kept noStep, Bool.false_eq_true, if_false, updPhys_updPhys]
  simp only [updPhys, work, Option.map_some]
  rfl

/-- A head in time that the hardware fails runs into the failed check. -/
theorem engineStep_fails {s : State} {p : PWing} {qi : Nat} {want : WingPlan → Cmd → Bool} {hw : Hw} {f : CheckFail} {w : Work} {idx : Nat}
    {c : Cmd} (up : dieUp s = true) (work : (s.phys[p]).work = some w)
    (head : queueHead s p w qi (cyclesNow (advance s hw.dt) w - hw.cycles) = some (false, idx, c)) (named : want (wingPlan s w.lw) c = true)
    (inTime : startsLate s w c (cyclesNow (advance s hw.dt) w - hw.cycles) = false) (fails : hw.fail = some f) :
    ∃ n, engineStep p qi want hw s = failCmd (violations n (linkErrors (advance s hw.dt) hw)) p w qi false idx c f := by
  have failed : hwFail qi hw = some f := by simp [hwFail, fails]
  simp only [engineStep, up, work, head, named, inTime, issueNow, failed, Bool.not_true, Bool.not_false, Bool.and_false, Bool.false_and,
    Bool.false_eq_true, if_false]
  exact ⟨_, rfl⟩

/-- A queue with a failed check issues no latency-critical command. -/
theorem headLc_of_failing {w : Work} {qi : Nat} {x : Failing} (mem : x ∈ w.failing) (queue : x.queue = qi) : headLc w qi = none := by
  have found : (failingOn w qi).isSome = true := List.find?_isSome.2 ⟨x, mem, beq_iff_eq.2 queue⟩
  have blocked : (failingOn w qi).isNone = false := by rw [← Option.not_isSome, found]; rfl
  unfold headLc
  split
  · rw [blocked, Bool.and_false, if_neg Bool.false_ne_true]
  · rfl

/-- Settles O29: before the check only counters move, and the failed check itself changes the check log and the work of its Wing. -/
theorem failedCheckWaits : Obligations.FailedCheckWaits := by
  unfold Obligations.FailedCheckWaits
  rintro p qi want hw f s _ w idx c up work noStep head named inTime fails rfl
  obtain ⟨n, step⟩ := engineStep_fails up work head named inTime fails
  obtain ⟨phys, dram, time, stamp⟩ := counted_frame n (advance s hw.dt) hw
  obtain ⟨log, failed⟩ := failCmd_lc (s := violations n (linkErrors (advance s hw.dt) hw)) (p := p) (by rw [phys]; exact work) noStep qi idx c f
  rw [step, failed, updPhys_same, phys]
  exact ⟨dram, rfl, rfl, time, _, _, rfl, rfl, rfl, rfl, rfl, rfl, rfl, stamp,
    headLc_of_failing (List.mem_append_right _ (List.mem_singleton_self _)) rfl⟩

end Sys2Proof.Machine
end

section
/-! The repeat of a failing command (O31): one that passes completes the command, and any other outcome fences the Wing. -/

namespace Sys2Proof.Machine

open Sys2Proof

/-! ### A confirmed Wing fault (R416, R422) -/

/-- An isolated Wing is in soft reset from now on. -/
theorem isolate_softReset (s : State) (p : PWing) (resetCause faultCause : Nat) :
    ((isolate s p resetCause faultCause).phys[p]).softReset = some s.c := by
  rw [isolate, (resetEvent_recordsOnly ..).phys, updPhys_same]

/-- A Wing that is fenced for a fault has role 5 and no work, is in soft reset, and counts as a persistent fault. -/
theorem fenceWing_frame (s : State) (p : PWing) (r : Report) :
    let t := fenceWing s p r
    (t.phys[p]).role = 5 ∧ (t.phys[p]).work = none ∧ t.c = s.c ∧ (t.phys[p]).softReset = some t.c ∧ t.int.persist = incW s.int.persist := by
  have now : (fenceWing s p r).c = s.c := congrArg (fun k => k.2.2) (fenceWing_kept s p r)
  unfold fenceWing
  extract_lets x seq s₁ int s₂ s₃ s₄ t
  obtain ⟨role, work, -, -, counters⟩ := fence_frame s₃ p 0x10 r.cause x.role x.logical x.work
  have phys : t.phys = s₄.phys := congrArg Prod.fst (afterFence_faultView s₄ p x.role x.logical x.work)
  have time : t.c = (discardStep s₃ p).c := congrArg (fun k => k.2.2) (show t.kept = (discardStep s₃ p).kept by simp [t, s₄])
  have reset : (t.phys[p]).softReset = some t.c := by rw [phys, isolate_softReset, time]
  have alarmed : s₃.int = s₂.int := congrArg (fun v => v.2.2.2) (raiseAlarm_recordsOnly s₂ ..).faultView
  have reported : s₁.int.persist = s.int.persist := (congrArg Integrity.persist (addReport_int s _)).trans rfl
  exact ⟨role, work, now, reset, by rw [counters, alarmed, ← reported]⟩

/-- A failure in one of a Wing's own units, 0 to 9, that names no memory block is ascribed to the Wing (R416). -/
theorem faultAttrib_of_wing {f : CheckFail} (noBlock : f.block = none) (wingUnit : f.unit ≤ 9) (s : State) (p : PWing) (qi : Nat)
    (g : CheckFail) (beat : Nat) (r : Report) : faultAttrib s p qi f g beat r = fenceWing s p r := by
  have noUnit : ¬ (f.unit = g.unit ∧ 10 ≤ f.unit ∧ f.unit ≤ 12) := by omega
  simp only [faultAttrib, noBlock, if_neg noUnit]

/-! ### The repeat (R419, R420) -/

section
variable {s : State} {p : PWing} {qi : Nat} {w : Work} {f : Failing} (up : dieUp s = true) (work : (s.phys[p]).work = some w)
  (failing : failingOn w qi = some f) (going : f.halted = false)
include up work failing going

theorem repeatStep_admitted (r : Repeat) (slack : w.delta + repeatWcc w f ≤ sigmaK (planOf s)) :
    repeatStep p qi r s = repeatNow p qi r w f (repeatTime r).2 (advance s (repeatTime r).1) := by
  simp only [repeatStep, up, work, failing, going, Nat.not_lt.2 slack, Bool.not_true, Bool.false_eq_true, if_false]

theorem repeatStep_notAdmitted (r : Repeat) (slack : sigmaK (planOf s) < w.delta + repeatWcc w f) :
    repeatStep p qi r s = confirmFault s p w f f.fail f.summary := by
  simp only [repeatStep, up, work, failing, going, slack, Bool.not_true, Bool.false_eq_true, if_false, if_true]

end

/-- A repeat whose commands all pass uses the results of the last. -/
theorem repeatNow_passes {s u : State} {p : PWing} {qi dt cycles : Nat} {w w' : Work} {f : Failing} {x : Nat × Cmd} {xs : List (Nat × Cmd)}
    {sums : List (List Byte)} {e : Eng} (cycled : w' = { w with delta := w.delta + cycles })
    (kept : u = updPhys s p fun y => { y with work := some w' }) (cmds : repeatCmds w' f = x :: xs)
    (ran : repeatRun u p qi w' x xs = (sums, .ok e)) :
    repeatNow p qi (.pass dt cycles) w f cycles s = repeatPassed u p qi w' f sums e := by
  subst cycled kept
  simp only [repeatNow, cmds, ran]

/-- A repeat that fails logs its summary and fences the Wing, where neither a shared unit nor a memory block is to blame (R416). -/
theorem repeatNow_fails {f : Failing} (noBlock : f.fail.block = none) (wingUnit : f.fail.unit ≤ 9) (p : PWing) (qi : Nat) (g : CheckFail)
    (dt cycles : Nat) (w : Work) (s : State) :
    ∃ u r, repeatNow p qi (.fail g dt cycles) w f cycles s = fenceWing u p r ∧ u.c = s.c ∧ u.int = s.int := by
  obtain ⟨log, logged⟩ := logSummary_eq (updPhys s p fun x => { x with work := some { w with delta := w.delta + cycles } }) p
    (summaryBytes qi f.index w.beat f.cmd.opcode g true)
  refine ⟨_, _, faultAttrib_of_wing noBlock wingUnit .., ?_⟩
  rw [List.foldl_cons, List.foldl_nil, logged]
  exact ⟨rfl, rfl⟩

theorem exec_commandRepeat (p : PWing) (q : Queue) (r : Repeat) (s : State) :
    exec (.commandRepeat p q r) s = .next (repeatStep p (queueIdx q) r s) := rfl

/-! ### Transient faults (R420, R421) -/

/-- A transient fault is counted and flagged, whether or not the Wing is to be tested next. -/
theorem countTransient_int (s : State) (p : PWing) :
    (countTransient s p).int = { s.int with status := orW s.int.status 1, transient := incW s.int.transient } := by
  unfold countTransient
  dsimp only
  split <;> rfl

/-- Settles O31: each outcome of the repeat has its own equation, and the last two end in the fencing of the Wing. -/
theorem commandRepeats : Obligations.CommandRepeats := by
  unfold Obligations.CommandRepeats
  refine ⟨?passes, ?transient, ?fails, ?notAdmitted⟩
  case passes =>
    intro p q dt cycles s u w w' f x xs sums e up work failing going slack cycled kept cmds ran
    rw [exec_commandRepeat, repeatStep_admitted up work failing going _ slack, repeatTime, repeatNow_passes cycled kept cmds ran]
    refine ⟨_, ?first, ?again, ?index, ?time, ?outcome, rfl⟩ <;> rfl
  case transient =>
    intro v p
    rw [countTransient_int]
    exact ⟨rfl, bit_orW _ (by decide) (by decide)⟩
  case fails =>
    intro p q dt cycles g s w f up work failing going slack noBlock _ wingUnit
    obtain ⟨u, r, fenced, time, int⟩ := repeatNow_fails noBlock wingUnit p (queueIdx q) g dt cycles w (advance s dt)
    obtain ⟨role, idle, now, reset, persist⟩ := fenceWing_frame u p r
    rw [exec_commandRepeat, repeatStep_admitted up work failing going _ slack, repeatTime, fenced]
    exact ⟨_, rfl, role, idle, now.trans time, reset, persist.trans (congrArg (fun i => incW i.persist) int)⟩
  case notAdmitted =>
    intro p q r s w f up work failing going slack noBlock wingUnit
    rw [exec_commandRepeat, repeatStep_notAdmitted up work failing going r slack, confirmFault, faultAttrib_of_wing noBlock wingUnit]
    obtain ⟨role, idle, now, -, persist⟩ := fenceWing_frame s p
      { failReport s w f.index f.cmd f.fail f.summary f.summary with time := f.atT, phys := p }
    exact ⟨_, rfl, role, idle, now, persist⟩

end Sys2Proof.Machine
end

section
/-! The commit, a changeover and a promotion (O53): what a request does once it acts, and what loading slices and staging banks leave alone. -/

namespace Sys2Proof.Machine

open Sys2Proof

/-! ### A request acts (R12, R571, R574) -/

/-- A secure write of an action bit acts on a running device; one in the compute die, while the die's registers act. -/
theorem actionWrite_acts {s : State} {a : Acc} {die : Bool} (run : running s = true) (secure : a.secure = true)
    (free : die = true → dieBlocked s = false) (f : State → State) : actionWrite s a die f = f s := by
  have unblocked : (die && dieBlocked s) = false := by cases die <;> simp [free]
  simp only [actionWrite, run, unblocked, secure, Bool.not_true, Bool.false_eq_true, if_false, if_true]

section
variable {s : State} {a : Acc} (run : running s = true) (secure : a.secure = true)
include run secure

theorem exec_commit : exec (.commit a) s = .next (commitCore s) :=
  congrArg Host.Outcome.next (actionWrite_acts (die := false) run secure nofun commitCore)

theorem exec_changeover : exec (.changeover a) s = .next (changeoverCore s) :=
  congrArg Host.Outcome.next (actionWrite_acts (die := false) run secure nofun changeoverCore)

theorem exec_cancel : exec (.cancel a) s = .next (actCancelCore s) :=
  congrArg Host.Outcome.next (actionWrite_acts (die := false) run secure nofun actCancelCore)

theorem exec_submit (free : dieBlocked s = false) : exec (.submit a) s = .next (submitCore s) :=
  congrArg Host.Outcome.next (actionWrite_acts run secure (fun _ => free) submitCore)

theorem exec_adapterCancel (free : dieBlocked s = false) : exec (.adapterCancel a) s = .next (cancelCore s) :=
  congrArg Host.Outcome.next (actionWrite_acts run secure (fun _ => free) cancelCore)

end

/-! ### Commit and changeover (R514, R531, R532) -/

/-- After readiness a commit leaves the greater of the fused counter and the image's. -/
theorem commitCore_ready {s : State} (ready : s.sec.phase = 6) :
    commitCore s = { s with fuse := { s.fuse with svn := Nat.max s.fuse.svn s.sec.imgSvn } } := by
  unfold commitCore
  split
  next raises =>
    obtain ⟨-, below⟩ := raises
    have greater : Nat.max s.fuse.svn s.sec.imgSvn = s.sec.imgSvn := Nat.max_eq_right below.le
    rw [greater]
  next keeps =>
    have notBelow : s.sec.imgSvn ≤ s.fuse.svn := Nat.le_of_not_lt fun below => keeps ⟨ready, below⟩
    have greater : Nat.max s.fuse.svn s.sec.imgSvn = s.fuse.svn := Nat.max_eq_left notBelow
    rw [greater]

theorem changeoverCore_busy {s : State} (busy : changeoverBusy s = true) :
    changeoverCore s = updSec s fun x => { x with actReason := 0x0F, actState := if x.actState = 1 then 1 else 3 } := if_pos busy

theorem changeoverCore_preloads {s : State} (idle : changeoverBusy s = false) (verified : s.sec.stage = 4) (fits : s.sec.chgOk = true)
    (ahead : s.esc.beat + 2 ≤ landingOf s (join48 s.sec.actTgtLo s.sec.actTgtHi)) (noPromotion : promotionBusy s = false)
    (ready : s.sec.phase = 6) :
    changeoverCore s = { updSec s fun x =>
      { x with actState := 1, actAt := landingOf s (join48 x.actTgtLo x.actTgtHi), actReason := 0, preloaded := false } with
      imgNew := (s.nvm.slots[otherSlot s]).img } := by
  rw [changeoverCore, if_neg (by simp [idle]), if_pos ⟨verified, fits, ahead, noPromotion, ready⟩]

theorem actCancelCore_preloading {s : State} (preloading : s.sec.actState = 1) (notDone : s.sec.actDone = none) :
    actCancelCore s = { updSec s fun x => { x with actState := 3, actReason := 0x0F, preloaded := false } with imgNew := none } :=
  if_pos ⟨preloading, by rw [notDone]; rfl⟩

/-! ### Loads of slices and banks (R286, R531) -/

/-- t is s with at most the Wings changed. -/
def WingsOnly (s t : State) : Prop := ∃ phys, t = { s with phys := phys }

theorem WingsOnly.refl (s : State) : WingsOnly s s := ⟨_, rfl⟩

theorem WingsOnly.trans {s t u : State} (h : WingsOnly s t) (k : WingsOnly t u) : WingsOnly s u := by
  obtain ⟨_, rfl⟩ := h
  obtain ⟨_, rfl⟩ := k
  exact ⟨_, rfl⟩

theorem WingsOnly.foldl {α : Type} {f : State → α → State} (hf : ∀ s x, WingsOnly s (f s x)) (l : List α) (s : State) :
    WingsOnly s (l.foldl f s) :=
  List.foldlRecOn l f (.refl s) fun t reached x _ => reached.trans (hf t x)

theorem loadSlice_wingsOnly (s : State) (p : PWing) (dst src n : Nat) : WingsOnly s (loadSlice s p dst src n) := ⟨_, rfl⟩

/-- The preload of an accepted image writes its parts to memory; the broadcast of its weight copies is to the Wings alone. -/
theorem exec_changeoverPreloadDone {s : State} {i : Image} (accepted : s.imgNew = some i) (up : dieUp s = true)
    (preloading : s.sec.actState = 1) :
    ∃ u, exec .changeoverPreloadDone s = .next (updSec u fun x => { x with preloaded := true }) ∧
      WingsOnly { s with mem := placeImage s.mem i } u := by
  have copies : ∀ (t : State) (p : PWing), WingsOnly t (i.segments.foldl (fun t g => loadSlice t p g.gal g.master g.len) t) :=
    fun t p => .foldl (fun t _ => loadSlice_wingsOnly t p ..) _ t
  refine ⟨_, ?_, .foldl copies (availWings s) _⟩
  simp only [exec, execChangeoverPreloadDone, accepted, up, preloading, beq_self_eq_true, Bool.and_self, if_true]
  rfl

/-- Staging a bank changes a Wing and memory. -/
theorem stageBank_frame (s : State) (k : LWing) : ∃ mem, WingsOnly { s with mem := mem } (stageBank s k) := by
  unfold stageBank
  dsimp only
  split
  · exact ⟨_, loadSlice_wingsOnly ..⟩
  · exact ⟨_, .refl _⟩

/-- Staging the banks of any number of logical Wings changes no more than Wings and memory. -/
theorem foldl_stageBank_frame (l : List LWing) (s : State) : ∃ mem, WingsOnly { s with mem := mem } (l.foldl stageBank s) := by
  refine List.foldlRecOn (motive := fun t => ∃ mem, WingsOnly { s with mem := mem } t) l stageBank ⟨_, .refl s⟩ ?_
  rintro _ ⟨_, _, rfl⟩ k -
  obtain ⟨mem, phys, staged⟩ := stageBank_frame _ k
  exact ⟨mem, phys, staged⟩

/-! ### Promotion (R285, R287, R288, R290) -/

/-- A request with no reason against it stages the candidate for its Landing. -/
theorem submitCore_accepts {s : State} (first : s.wng.adpt.submit = false) (accepted : submitReason s = none) :
    submitCore s = updAdpt s fun x => { x with
      submit := true, target := landingOf s (join48 x.tgtLo x.tgtHi), state := 1, reason := 0
      staged := false, stagedSet := x.set.getD [], stagedWgt := x.wgt } := by
  rw [submitCore, if_neg (by simp [first]), accepted]

theorem submitCore_refuses {s : State} {r : Nat} (first : s.wng.adpt.submit = false) (refused : submitReason s = some r) :
    submitCore s = updAdpt s fun x => { x with state := 3, reason := r } := by
  rw [submitCore, if_neg (by simp [first]), refused]

/-- A digest that is not the candidate's is the first reason of a plan that promotes. -/
theorem submitReason_wrongDigest {s : State} (promotes : (planOf s).promotion = true) (wrong : s.wng.adpt.dig ≠ s.wng.adpt.cand) :
    submitReason s = some 2 := by
  simp [submitReason, promotes, wrong]

theorem cancelCore_staging {s : State} (staging : s.wng.adpt.state = 1) :
    cancelCore s = updAdpt s fun x => { x with state := 3, reason := 6, submit := false, staged := false } := if_pos staging

theorem exec_adapterStagingDone {s : State} (up : dieUp s = true) (staging : s.wng.adpt.state = 1) :
    exec (.adapterStagingDone true) s = .next (updAdpt ((usedLw s).foldl stageBank s) fun x => { x with staged := true }) :=
  if_pos (by rw [up, staging]; rfl)

theorem exec_adapterStagingDone_unverified (s : State) : exec (.adapterStagingDone false) s = .next s :=
  if_neg (by simp)

theorem exec_adapterCandidate {s : State} {i : Image} (img : s.img = some i) (up : dieUp s = true) (ready : s.sec.phase = 6)
    (steps : i.plan.nCk ≤ s.wng.adpt.steps) :
    exec .adapterCandidate s = .next (updAdpt s fun x => { x with
      steps := 0, set := some (memReads s.mem.dram i.plan.candBase i.plan.candSize)
      cand := digestWords (sha3 (memReads s.mem.dram i.plan.candBase i.plan.candSize))
      wgt := weightsDigest i (memReads s.mem.dram i.plan.candBase i.plan.candSize) }) := by
  simp only [exec, execAdapterCandidate, img, up, ready, steps, beq_self_eq_true, decide_true, Bool.and_self, if_true]

/-- Settles O53: a request that acts is its own core, and the loads at its end change the Wings and memory alone. -/
theorem activationAndAdapters : Obligations.ActivationAndAdapters := by
  unfold Obligations.ActivationAndAdapters
  refine ⟨?commit, ?preloads, ?busy, ?cancel, ?preloadDone, ?submit, ?wrongDigest, ?adapterCancel, ?stagingDone, ?candidate⟩
  case commit =>
    intro a s run secure ready
    rw [exec_commit run secure, commitCore_ready ready]
  case preloads =>
    intro a s run secure idle verified fits ahead noPromotion ready
    rw [exec_changeover run secure, changeoverCore_preloads idle verified fits ahead noPromotion ready]
    rfl
  case busy =>
    intro a s run secure busy
    rw [exec_changeover run secure, changeoverCore_busy busy]
    rfl
  case cancel =>
    intro a s run secure preloading notDone
    rw [exec_cancel run secure, actCancelCore_preloading preloading notDone]
    rfl
  case preloadDone =>
    intro i s accepted up preloading
    obtain ⟨_, done, phys, rfl⟩ := exec_changeoverPreloadDone accepted up preloading
    exact ⟨_, done, rfl, rfl, rfl, accepted, rfl, rfl⟩
  case submit =>
    intro a s run free secure first accepted
    rw [exec_submit run secure free, submitCore_accepts first accepted]
  case wrongDigest =>
    intro a s run free secure first promotes wrong
    rw [exec_submit run secure free, submitCore_refuses first (submitReason_wrongDigest promotes wrong)]
  case adapterCancel =>
    intro a s run free secure staging
    rw [exec_adapterCancel run secure free, cancelCore_staging staging]
  case stagingDone =>
    intro s up staging
    refine ⟨⟨_, exec_adapterStagingDone up staging, ?_⟩, exec_adapterStagingDone_unverified s⟩
    obtain ⟨mem, phys, staged⟩ := foldl_stageBank_frame (usedLw s) s
    rw [staged]
    exact ⟨rfl, rfl, rfl, rfl, rfl⟩
  case candidate =>
    intro i s img up ready steps
    exact exec_adapterCandidate img up ready steps

end Sys2Proof.Machine
end

section
/-! A failed attempt of a camera port (O39): hold-off, power cycle, or given up with a pending alarm. -/

namespace Sys2Proof.Machine

open Sys2Proof

/-! ### A pending alarm (R474) -/

/-- An alarm of a code is pending. -/
def Alarmed (n : Net) (code : Nat) : Prop := ∃ a ∈ n.alarms, a.code = code

theorem Alarmed.ite {p : Prop} [Decidable p] {s t : State} {c : Nat} (h : Alarmed s.net c) (k : Alarmed t.net c) :
    Alarmed (if p then s else t).net c := by split <;> assumption

theorem alarmEntry_alarmed (s : State) (code phys lwing : Nat) (arg : List Byte) : Alarmed (alarmEntry s code phys lwing arg).net code := by
  unfold Alarmed alarmEntry
  simp only [alarmFn_net]
  split
  next pending =>
    obtain ⟨a, mem, same⟩ := List.any_eq_true.1 pending
    refine ⟨_, List.mem_map_of_mem mem, ?_⟩
    rw [if_pos (beq_iff_eq.1 same)]
    exact beq_iff_eq.1 same
  next => exact ⟨_, List.mem_append_right _ (List.mem_singleton_self _), rfl⟩

section
variable {s : State} {c : Nat} (h : Alarmed s.net c)
include h

theorem alarmEntry_keeps_alarmed (code phys lwing : Nat) (arg : List Byte) : Alarmed (alarmEntry s code phys lwing arg).net c := by
  obtain ⟨a, mem, rfl⟩ := h
  unfold Alarmed alarmEntry
  simp only [alarmFn_net]
  split
  · refine ⟨_, List.mem_map_of_mem mem, ?_⟩
    split <;> rfl
  · exact ⟨a, List.mem_append_left _ mem, rfl⟩

theorem putRecord_keeps_alarmed (e : Ev) (again : Nat) : Alarmed (putRecord s e again).net c := by
  unfold putRecord
  refine .ite (.ite h (alarmEntry_keeps_alarmed ?_ ..)) h
  exact h

theorem logEvent_keeps_alarmed (e : Ev) : Alarmed (logEvent s e).net c := by
  unfold logEvent
  refine .ite (.ite (putRecord_keeps_alarmed ?_ ..) h) (.ite h (putRecord_keeps_alarmed h ..))
  exact h

end

theorem raiseAlarm_alarmed (s : State) (code phys lwing : Nat) (arg : List Byte) : Alarmed (raiseAlarm s code phys lwing arg).net code :=
  logEvent_keeps_alarmed (alarmEntry_alarmed ..) _

/-! ### Flags and lanes of a port (R299, R327) -/

@[simp] theorem camFlag_port (s : State) (mask : Nat) : (camFlag s mask).cam.port = s.cam.port := rfl

theorem sleepLanes_lane (s : State) (p : Nat) (l : Fin 32) : (sleepLanes s p).cam.lane[l] =
    if (portLanes s p).contains l.val then { s.cam.lane[l] with rx := 1, tx := false, locked := false } else s.cam.lane[l] := by
  simp only [sleepLanes, updLanes, Fin.getElem_fin, Vector.getElem_ofFn]

@[simp] theorem sleepLanes_port (s : State) (p : Nat) : (sleepLanes s p).cam.port = s.cam.port := by
  unfold sleepLanes updLanes
  rfl

theorem sleepLanes_err (s : State) (p : Nat) (l : Fin 32) : ((sleepLanes s p).cam.lane[l]).err = (s.cam.lane[l]).err := by
  rw [sleepLanes_lane]
  split <;> rfl

/-! ### A failed attempt (R303, R304, R316) -/

/-- A port with its lanes asleep after a failed attempt that counts, in state st and in a power cycle or not. -/
def attemptEnded (s : State) (p : Port) (cause st : Nat) (cyc : Bool) : State :=
  sleepLanes (updPort s p fun x => { x with
    state := st, stage := .idle, speed := 0, fast := false, cause := cause, attempts := (s.cam.port[p]).attempts + 1, holdC := s.c
    waiting := none, sends := 0, cycling := cyc, enable := if cyc then some false else x.enable }) p

theorem attemptEnded_port (s : State) (p : Port) (cause st : Nat) (cyc : Bool) : (attemptEnded s p cause st cyc).cam.port[p] =
    { s.cam.port[p] with
      state := st, stage := .idle, speed := 0, fast := false, cause := cause, attempts := (s.cam.port[p]).attempts + 1, holdC := s.c
      waiting := none, sends := 0, cycling := cyc, enable := if cyc then some false else (s.cam.port[p]).enable } := by
  simp only [attemptEnded, sleepLanes_port, updPort_same]

theorem attemptEnded_lane {s : State} {p : Port} {e : CamEntry} (cam : camEntry s p = some e) (cause st : Nat) (cyc : Bool) {l : Fin 32}
    (own : (camLanes e).contains l.val = true) :
    (attemptEnded s p cause st cyc).cam.lane[l] = { s.cam.lane[l] with rx := 1, tx := false, locked := false } := by
  have owned : (portLanes s p).contains l.val = true := by simpa only [portLanes, cam] using own
  exact (sleepLanes_lane _ p l).trans (if_pos owned)

section
variable {s : State} {p : Port} {e : CamEntry} (cam : camEntry s p = some e) (clear : (s.cam.port[p]).fault = false)
include cam clear

/-- After an attempt that may be repeated the port holds off, in a power cycle after every third failure. -/
theorem failAttempt_holdsOff (more : e.relinkMax = 0 ∨ (s.cam.port[p]).attempts + 1 < e.relinkMax)
    (retries : e.required = true ∨ (s.cam.port[p]).first = false ∨ atStart s = false) (cause : Nat) :
    failAttempt s p cause = attemptEnded s p cause 2 (e.pocxp && ((s.cam.port[p]).attempts + 1) % 3 == 0) := by
  have last : ¬ (e.relinkMax ≠ 0 ∧ e.relinkMax ≤ (s.cam.port[p]).attempts + 1) := by omega
  have stay : ((s.cam.port[p]).first && !e.required && atStart s) = false := by
    rcases retries with h | h | h <;> simp only [h, Bool.not_true, Bool.and_false, Bool.false_and]
  simp [failAttempt, cam, clear, last, stay, attemptEnded, -Fin.getElem_fin]

/-- The port is given up at relink_max. -/
theorem failAttempt_givesUp (max : e.relinkMax ≠ 0) (last : e.relinkMax ≤ (s.cam.port[p]).attempts + 1) (cause : Nat) :
    failAttempt s p cause = raiseAlarm (camFlag (attemptEnded s p cause 5 false) 2) 0x000A p := by
  simp [failAttempt, cam, clear, max, last, attemptEnded, -Fin.getElem_fin]

/-- A port without the required flag stays down at start (log entry 79). -/
theorem failAttempt_staysDown (more : e.relinkMax = 0 ∨ (s.cam.port[p]).attempts + 1 < e.relinkMax) (optional : e.required = false)
    (first : (s.cam.port[p]).first = true) (start : atStart s = true) (cause : Nat) :
    failAttempt s p cause = attemptEnded s p cause 5 false := by
  have last : ¬ (e.relinkMax ≠ 0 ∧ e.relinkMax ≤ (s.cam.port[p]).attempts + 1) := by omega
  simp [failAttempt, cam, clear, last, optional, first, start, attemptEnded, -Fin.getElem_fin]

end

/-! ### The commands of a failure (R303, R306, R316, R320) -/

theorem exec_lockTimeout {s : State} {p : Port} {b : Bool} (stage : (s.cam.port[p]).stage = .lock b) :
    exec (.lockTimeout p) s = .next (failAttempt (reach s ((s.cam.port[p]).holdC + 100000000)) p 1) := by
  simp only [exec, execLockTimeout, stage]

theorem exec_controlAck_nack {s : State} {p : Port} {e : CamEntry} (waits : controlStage (s.cam.port[p]).stage = true) (cam : camEntry s p = some e) :
    exec (.controlAck p .nack) s = .next (failAttempt s p 8 (stageStep (s.cam.port[p]).stage)) := by
  simp only [exec, execControlAck, cam, waits, if_true]

theorem exec_holdoffExpiry {s : State} {p : Port} (down : (s.cam.port[p]).state = 2) : exec (.holdoffExpiry p) s =
    .next (if (s.cam.port[p]).fault || faultAsserted s p then reach s (holdoffEnd s.cam.port[p])
      else startAttempt (reach s (holdoffEnd s.cam.port[p])) p) := if_pos down

/-- Settles O39: the three outcomes of a failed attempt are one update, which differs in the state of the port and its power cycle. -/
theorem cameraFailures : Obligations.CameraFailures := by
  unfold Obligations.CameraFailures
  refine ⟨?holdsOff, ?givesUp, ?staysDown, fun _ _ _ => exec_lockTimeout, fun _ _ _ => exec_controlAck_nack, fun _ _ => exec_holdoffExpiry⟩
  case holdsOff =>
    intro p e k s cam clear more retries
    rw [failAttempt_holdsOff cam clear more retries k]
    refine ⟨attemptEnded_port .., fun l own => ?_⟩
    rw [attemptEnded_lane cam _ _ _ own]
    exact ⟨rfl, rfl⟩
  case givesUp =>
    intro p e k s cam clear max last
    rw [failAttempt_givesUp cam clear max last k]
    obtain ⟨hcam, -, -⟩ := (raiseAlarm_recordsOnly (camFlag (attemptEnded s p k 5 false) 2) 0x000A p 0xFF []).lineView
    simp only [hcam, camFlag_port, attemptEnded_port, true_and]
    exact ⟨bit_orW (mask := 2) (i := 1) _ (by decide) (by decide), raiseAlarm_alarmed ..⟩
  case staysDown =>
    intro p e k s cam clear more optional first start
    rw [failAttempt_staysDown cam clear more optional first start k, attemptEnded_port]
    exact ⟨rfl, rfl, rfl, rfl⟩

end Sys2Proof.Machine
end

section
/-! Ports that are up (O40): what taking one down leaves, and what heartbeats, the fault input and the requests of R318 do. -/

namespace Sys2Proof.Machine

open Sys2Proof

/-! ### The line and the frame in progress end (R309, R315, R332) -/

/-- t is s with at most the ports, the pipelines, the Escapement's flags and the chains of the lines changed. -/
def ReceptionOnly (s t : State) : Prop := ∃ cam isp esc sealer, t = { s with cam := cam, isp := isp, esc := esc, sealer := sealer }

namespace ReceptionOnly

variable {s t u : State} {p : Port}

theorem refl (s : State) : ReceptionOnly s s := ⟨_, _, _, _, rfl⟩

theorem trans (h : ReceptionOnly s t) (k : ReceptionOnly t u) : ReceptionOnly s u := by
  obtain ⟨_, _, _, _, rfl⟩ := h
  obtain ⟨_, _, _, _, rfl⟩ := k
  exact ⟨_, _, _, _, rfl⟩

theorem updPort (s : State) (p : Port) (f : CamPort → CamPort) : ReceptionOnly s (updPort s p f) := ⟨_, _, _, _, rfl⟩

theorem corruptEnded (s : State) (p : Port) (tag : Word) (bs : List Byte) : ReceptionOnly s (corruptEnded s p tag bs) := ⟨_, _, _, _, rfl⟩

theorem sleepLanes (s : State) (p : Nat) : ReceptionOnly s (sleepLanes s p) := by
  unfold Machine.sleepLanes updLanes
  exact ⟨_, _, _, _, rfl⟩

end ReceptionOnly

/-- Padding a short frame changes the pipelines, and may flag the Escapement. -/
theorem padFrame_state (s : State) (p : Port) : ∃ isp esc, padFrame s p = { s with isp := isp, esc := esc } := by
  unfold padFrame
  split
  · exact ⟨s.isp, s.esc, rfl⟩
  · dsimp only
    split
    · obtain ⟨esc, cut⟩ := speedCut_esc (ispFlag (updIsp s p _) 2) p
      exact ⟨_, esc, cut⟩
    · exact ⟨_, s.esc, rfl⟩

/-- A line that is given up leaves the ports as counting it left them. -/
theorem corruptLine_state {s : State} {p : Port} {l : LineIn} (line : (s.cam.port[p]).line = some l) (bs : List Byte) :
    ∃ isp esc, corruptLine s p bs = { corruptEnded s p l.tag bs with isp := isp, esc := esc } := by
  cases cut : l.cut with
  | false =>
    rw [corruptLine_eq line cut]
    exact fillEntry_state ..
  | true =>
    refine ⟨(updIsp (corruptEnded s p l.tag bs) p fun c => { c with cut := incW c.cut }).isp, (corruptEnded s p l.tag bs).esc, ?_⟩
    simp only [corruptLine, line, cut, if_true]
    rfl

/-- t is s with the line of port p ended. -/
structure LineEnded (p : Port) (s t : State) : Prop where
  port : ∃ crc corrupt lines, t.cam.port[p] = { s.cam.port[p] with line := none, crc := crc, corrupt := corrupt, lines := lines }
  lane : t.cam.lane = s.cam.lane
  rest : ReceptionOnly s t

/-- The first part of portDown: the line in progress ends as corrupt, and the frame that the port accepted is padded. -/
def receptionEnded (s : State) (p : Port) : State :=
  let s := match (s.cam.port[p]).line with
    | some l => corruptLine (updPort s p fun x => { x with crc := satInc x.crc (Config.crcSoFar p x.lines l.tag.toNat s.esc.beat) }) p (bytesSoFar s p l)
    | none => s
  if (s.cam.port[p]).accepting then padFrame s p else s

theorem LineEnded.padFrame {p : Port} {s t : State} (h : LineEnded p s t) : LineEnded p s (padFrame t p) := by
  obtain ⟨isp, esc, padded⟩ := padFrame_state t p
  rw [padded]
  exact ⟨h.port, h.lane, h.rest.trans ⟨_, _, _, _, rfl⟩⟩

theorem receptionEnded_lineEnded (s : State) (p : Port) : LineEnded p s (receptionEnded s p) := by
  unfold receptionEnded
  extract_lets t
  have ended : LineEnded p s t := by
    unfold t
    split
    next l line =>
      generalize counted : updPort s p _ = u
      have port : u.cam.port[p] = { s.cam.port[p] with crc := (u.cam.port[p]).crc } := by rw [← counted, updPort_same]
      obtain ⟨isp, esc, corrupt⟩ := corruptLine_state (s := u) (p := p) (l := l) (by rw [port]; exact line) (bytesSoFar s p l)
      rw [corrupt]
      refine ⟨⟨_, _, _, (corruptEnded_port ..).trans (by rw [port])⟩, ?_, ?_⟩
      · rw [← counted]
        rfl
      · rw [← counted]
        exact ((ReceptionOnly.updPort ..).trans (.corruptEnded ..)).trans ⟨_, _, _, _, rfl⟩
    next idle => exact ⟨⟨_, _, _, by rw [← idle]⟩, rfl, .refl s⟩
  split
  · exact ended.padFrame
  · exact ended

/-! ### A port goes down (R314, R315) -/

/-- The last part of portDown: the port is in state 2, the pipeline of its camera has a gap after its last line, and its lanes sleep. -/
def portFell (s : State) (p : Port) (cause : Nat) : State :=
  let g := ((s.cam.port[p]).gen + 1) % 16
  sleepLanes (updIsp (updPort s p fun x =>
    { x with state := 2, stage := .idle, cause := cause, gen := g, accepting := false, holdC := s.c, relinkReq := false
             badHdr := false, cycling := false, waiting := none, speed := 0, fast := false }) p fun c =>
    { c with
      gaps := c.gaps ++ (match c.lastLine with
        | some t => [(t, none)]
        | none => [])
      lastLine := none }) p

theorem portDown_recordsOnly (s : State) (p : Port) (cause resetCause : Nat) :
    RecordsOnly (portFell (receptionEnded s p) p cause) (portDown s p cause resetCause) := resetEvent_recordsOnly ..

theorem losePort_recordsOnly (s : State) (p : Port) (cause : Nat) :
    RecordsOnly (camFlag (updPort (portDown s p cause 0x0E) p fun x => { x with loss := incW x.loss }) 1) (losePort s p cause) :=
  raiseAlarm_recordsOnly ..

/-- Memory, the fuses, the Wings and C, which no port holds. -/
def State.offPorts (s : State) : Mem × Fuses × Vector Phys 8 × Nat := (s.mem, s.fuse, s.phys, s.c)

@[simp] theorem updPort_offPorts (s : State) (p : Port) (f : CamPort → CamPort) : (updPort s p f).offPorts = s.offPorts := (rfl)
@[simp] theorem camFlag_offPorts (s : State) (mask : Nat) : (camFlag s mask).offPorts = s.offPorts := (rfl)

theorem RecordsOnly.offPorts {s t : State} (h : RecordsOnly s t) : t.offPorts = s.offPorts := by
  obtain ⟨_, _, _, _, _, _, _, _, _, _, _, rfl⟩ := h
  rfl

theorem ReceptionOnly.offPorts {s t : State} (h : ReceptionOnly s t) : t.offPorts = s.offPorts := by
  obtain ⟨_, _, _, _, rfl⟩ := h
  rfl

/-- A camera port once it is down, its line ended with these counters. -/
def downPort (x : CamPort) (cause c : Nat) (crc corrupt : Word) (lines : Nat) : CamPort := { x with
  state := 2, stage := .idle, cause := cause, gen := (x.gen + 1) % 16, accepting := false, holdC := c, relinkReq := false
  badHdr := false, cycling := false, waiting := none, speed := 0, fast := false, line := none, crc := crc, corrupt := corrupt, lines := lines }

/-- t is s with port p down, and with at most its lanes asleep, its flags, the pipelines, the chains and records changed besides. -/
structure Fell (p : Port) (cause : Nat) (s t : State) : Prop where
  port : ∃ crc corrupt lines, t.cam.port[p] = downPort s.cam.port[p] cause s.c crc corrupt lines
  err : ∀ l : Fin 32, (t.cam.lane[l]).err = (s.cam.lane[l]).err
  rest : t.offPorts = s.offPorts

theorem portFell_port (s : State) (p : Port) (cause : Nat) : (portFell s p cause).cam.port[p] = { s.cam.port[p] with
    state := 2, stage := .idle, cause := cause, gen := ((s.cam.port[p]).gen + 1) % 16, accepting := false, holdC := s.c, relinkReq := false
    badHdr := false, cycling := false, waiting := none, speed := 0, fast := false } := by
  simp only [portFell, sleepLanes_port, updIsp_cam, updPort_same]

theorem portDown_fell (s : State) (p : Port) (cause resetCause : Nat) : Fell p cause s (portDown s p cause resetCause) := by
  have ended := receptionEnded_lineEnded s p
  have recorded := portDown_recordsOnly s p cause resetCause
  obtain ⟨cam, -, -⟩ := recorded.lineView
  have offPorts : (portFell (receptionEnded s p) p cause).offPorts = s.offPorts :=
    (ReceptionOnly.sleepLanes ..).offPorts.trans ended.rest.offPorts
  refine ⟨?_, fun l => ?_, recorded.offPorts.trans offPorts⟩
  · obtain ⟨crc, corrupt, lines, port⟩ := ended.port
    have c : (receptionEnded s p).c = s.c := congrArg (·.2.2.2) ended.rest.offPorts
    exact ⟨crc, corrupt, lines, by rw [cam, portFell_port, port, c]; rfl⟩
  · rw [cam, portFell, sleepLanes_err, updIsp_cam, updPort_cam, ended.lane]

/-- t is s with port p lost: down, counted, flagged and with its alarm. -/
structure Lost (p : Port) (cause : Nat) (s t : State) : Prop where
  port : ∃ crc corrupt lines, t.cam.port[p] =
    { downPort s.cam.port[p] cause s.c crc corrupt lines with loss := incW (s.cam.port[p]).loss }
  err : ∀ l : Fin 32, (t.cam.lane[l]).err = (s.cam.lane[l]).err
  rest : t.offPorts = s.offPorts
  flag : bit t.cam.status.toNat 0 = true
  alarm : Alarmed t.net 0x0009

theorem losePort_alarmed (s : State) (p : Port) (cause : Nat) : Alarmed (losePort s p cause).net 0x0009 := by
  unfold losePort lossAlarm
  exact raiseAlarm_alarmed ..

theorem losePort_lost (s : State) (p : Port) (cause : Nat) : Lost p cause s (losePort s p cause) := by
  have fell := portDown_fell s p cause 0x0E
  have recorded := losePort_recordsOnly s p cause
  obtain ⟨cam, -, -⟩ := recorded.lineView
  refine ⟨?_, fun l => ?_, ?_, ?_, losePort_alarmed ..⟩
  · obtain ⟨crc, corrupt, lines, port⟩ := fell.port
    exact ⟨crc, corrupt, lines, by rw [cam, camFlag_port, updPort_same, port]; rfl⟩
  · rw [cam]
    exact fell.err l
  · rw [recorded.offPorts, camFlag_offPorts, updPort_offPorts, fell.rest]
  · rw [cam]
    exact bit_orW (mask := 1) _ (by decide) (by decide)

/-! ### The commands (R314, R320) -/

theorem exec_lockLoss {s : State} {l : Lane} {p : Port} (owner : lanePort s l = some p) (up : portUp s.cam.port[p] = true) :
    exec (.lockLoss l) s =
      .next (losePort { s with cam := { s.cam with lane := vUpd s.cam.lane l fun y => { y with locked := false } } } p 1) := by
  simp only [exec, execLockLoss, owner, up, if_true]

theorem exec_codeErrorLimit {s : State} {l : Lane} {p : Port} (owner : lanePort s l = some p) (up : portUp s.cam.port[p] = true) :
    exec (.codeErrorLimit l) s =
      .next (losePort { s with cam := { s.cam with lane := vUpd s.cam.lane l fun y => { y with err := satInc y.err 64 } } } p 2) := by
  simp only [exec, execCodeErrorLimit, owner, up, Bool.true_or, if_true]

theorem exec_heartbeatTimeout {s : State} {p : Port} {e : CamEntry} (cam : camEntry s p = some e) (accepts : (s.cam.port[p]).state = 4) :
    exec (.heartbeatTimeout p) s = .next (losePort (reach s ((s.cam.port[p]).lastHb + e.hbTimeout * 1000000)) p 3) := by
  simp only [exec, execHeartbeatTimeout, cam, accepts, if_true]

theorem exec_heartbeat {s : State} {p : Port} (dt : Nat) (accepts : (s.cam.port[p]).state = 4) :
    exec (.heartbeat p dt) s = .next (updPort (advance s dt) p fun x => { x with lastHb := (advance s dt).c }) := by
  simp only [exec, execHeartbeat, advance_cam, accepts, if_true]

/-- The port of a fault input that is asserted: its fault is latched and its enable is not driven high (R320). -/
def faultLatched (s : State) (p : Port) : State :=
  camFlag (updPort (updPort s p fun x => { x with fault := true }) p fun x => { x with enable := x.enable.map fun _ => false }) 4

theorem faultLatched_port (s : State) (p : Port) : (faultLatched s p).cam.port[p] =
    { s.cam.port[p] with fault := true, enable := (s.cam.port[p]).enable.map fun _ => false } := by
  rw [faultLatched, camFlag_port, updPort_same, updPort_same]

theorem exec_faultInputAssert {s : State} {p : Port} (asserted : faultAsserted s p = true) (clear : (s.cam.port[p]).fault = false)
    (up : portUp s.cam.port[p] = true) : exec (.faultInputAssert p) s = .next (losePort (faultLatched s p) p 4) := by
  cases cam : camEntry s p with
  | none => simp [faultAsserted, cam] at asserted
  | some e =>
    have used : e.faultUsed = true := by
      simp only [faultAsserted, cam, Bool.and_eq_true] at asserted
      exact asserted.1
    simp only [exec, execFaultInputAssert, cam, used, asserted, clear, up, Bool.not_false, Bool.and_self, if_true]
    rfl

theorem exec_faultInputDeassert {s : State} {p : Port} (released : faultAsserted s p = false) (fault : (s.cam.port[p]).fault = true) :
    exec (.faultInputDeassert p) s = .next (if (s.cam.port[p]).state = 2 ∧ holdoffEnd s.cam.port[p] ≤ s.c
      then startAttempt (updPort s p fun x => { x with fault := false }) p else updPort s p fun x => { x with fault := false }) := by
  simp only [exec, execFaultInputDeassert, released, fault, Bool.true_and, Bool.and_eq_true, beq_iff_eq, Bool.false_eq_true, if_false,
    updPort_c]
  split
  next expired => rw [if_pos (expired.imp_right of_decide_eq_true)]
  next waits => rw [if_neg fun h => waits (h.imp_right decide_eq_true)]

/-! ### The requests of R318 -/

section
variable {s : State} {a : Acc} {p : Port} (run : running s = true) (secure : a.secure = true)
include run secure

theorem exec_relink : exec (.relink a p) s = .next (relinkPort s p) :=
  congrArg Host.Outcome.next (actionWrite_acts (die := false) run secure nofun fun s => relinkPort s p)

theorem exec_stop : exec (.stop a p) s = .next (stopPort s p) :=
  congrArg Host.Outcome.next (actionWrite_acts (die := false) run secure nofun fun s => stopPort s p)

end

theorem relinkPort_up {s : State} {p : Port} (up : portUp s.cam.port[p] = true) :
    relinkPort s p = updPort s p fun x => { x with relinkReq := true } := if_pos up

/-- A relink of a port that was given up or stopped starts an attempt. -/
theorem relinkPort_down {s : State} {p : Port} (down : (s.cam.port[p]).state = 5 ∨ (s.cam.port[p]).state = 6) :
    relinkPort s p = startAttempt (updPort s p fun x => { x with attempts := 0, stopReq := false }) p := by
  have notUp : portUp s.cam.port[p] = false := by
    rcases down with h | h <;> rw [portUp, h] <;> rfl
  simp only [relinkPort, notUp, down, Bool.false_eq_true, if_false, if_true]

theorem stopPort_up {s : State} {p : Port} (up : portUp s.cam.port[p] = true) :
    stopPort s p = updPort s p fun x => { x with stopReq := true } := by
  refine if_pos fun off => ?_
  simp [portUp, off, -Fin.getElem_fin] at up

/-! ### The statement -/

/-- The port p of t is down with a cause, against what s was. -/
def DownFrom (s t : State) (p : Port) (k : Nat) : Prop :=
  (t.cam.port[p]).state = 2 ∧ (t.cam.port[p]).cause = k ∧ (t.cam.port[p]).accepting = false ∧
  (t.cam.port[p]).line = none ∧ (t.cam.port[p]).loss = incW (s.cam.port[p]).loss ∧ (t.cam.port[p]).gen = ((s.cam.port[p]).gen + 1) % 16 ∧
  bit t.cam.status.toNat 0 = true ∧ (∃ a ∈ t.net.alarms, a.code = 0x0009) ∧ t.mem.bad = s.mem.bad ∧ t.fuse = s.fuse ∧ t.phys = s.phys

/-- A port that is lost is down against each earlier state with the same losses, generation, memory, fuses and Wings. -/
theorem Lost.downFrom {s u t : State} {p : Port} {k : Nat} (h : Lost p k u t) (loss : (u.cam.port[p]).loss = (s.cam.port[p]).loss)
    (gen : (u.cam.port[p]).gen = (s.cam.port[p]).gen) (mem : u.mem = s.mem) (fuse : u.fuse = s.fuse) (phys : u.phys = s.phys) :
    DownFrom s t p k := by
  obtain ⟨crc, corrupt, lines, port⟩ := h.port
  have hmem : t.mem = u.mem := congrArg (·.1) h.rest
  have hfuse : t.fuse = u.fuse := congrArg (·.2.1) h.rest
  have hphys : t.phys = u.phys := congrArg (·.2.2.1) h.rest
  rw [DownFrom, port]
  exact ⟨rfl, rfl, rfl, rfl, congrArg incW loss, by rw [← gen]; rfl, h.flag, h.alarm, by rw [hmem, mem], hfuse.trans fuse, hphys.trans phys⟩

/-- Settles O40: the losses are one loss of a port, from the state in which its cause is latched. -/
theorem cameraLosses : Obligations.CameraLosses := by
  unfold Obligations.CameraLosses
  intro Down
  refine ⟨?lock, ?code, ?heartbeat, fun p dt s accepts => exec_heartbeat dt accepts, ?fault, fun p s => exec_faultInputDeassert, ?requests, ?restart⟩
  case lock =>
    intro l p s owner up
    exact ⟨_, exec_lockLoss owner up, (losePort_lost ..).downFrom rfl rfl rfl rfl rfl⟩
  case code =>
    intro l p s owner up
    have lost := losePort_lost { s with cam := { s.cam with lane := vUpd s.cam.lane l fun y => { y with err := satInc y.err 64 } } } p 2
    refine ⟨_, exec_codeErrorLimit owner up, lost.downFrom rfl rfl rfl rfl rfl, (lost.err l).trans ?_⟩
    simp [vUpd]
  case heartbeat =>
    intro p e s cam accepts
    have lost := losePort_lost (reach s ((s.cam.port[p]).lastHb + e.hbTimeout * 1000000)) p 3
    exact ⟨_, exec_heartbeatTimeout cam accepts, lost.downFrom rfl rfl rfl rfl rfl, congrArg (·.2.2.2) lost.rest⟩
  case fault =>
    intro p s asserted clear up
    have lost := losePort_lost (faultLatched s p) p 4
    obtain ⟨crc, corrupt, lines, port⟩ := lost.port
    refine ⟨_, exec_faultInputAssert asserted clear up, lost.downFrom ?_ ?_ rfl rfl rfl, ?_, ?_⟩
    · rw [faultLatched_port]
    · rw [faultLatched_port]
    · rw [port, faultLatched_port]
      rfl
    · rw [port, faultLatched_port]
      simp [downPort]
  case requests =>
    intro a p s run secure up
    exact ⟨by rw [exec_relink run secure, relinkPort_up up], by rw [exec_stop run secure, stopPort_up up]⟩
  case restart =>
    intro a p s run secure down
    rw [exec_relink run secure, relinkPort_down down]

end Sys2Proof.Machine
end

section
/-! Triggers of the lock groups and the adaptation of a lane (O43). -/

namespace Sys2Proof.Machine

open Sys2Proof

/-! ### The events of a source (R311) -/

/-- Taking an event changes the targets and the last events of the sources. -/
theorem takeEvent_state (s : State) (g : Fin 8) (t : Nat) : ∃ target reached at', takeEvent s g t =
    { s with cam := { s.cam with trigTarget := target, trigReached := reached, trigAt := at' } } := by
  unfold takeEvent
  split
  · exact ⟨_, _, s.cam.trigAt, rfl⟩
  · exact ⟨s.cam.trigTarget, s.cam.trigReached, _, rfl⟩

section
variable {s : State} {g : Fin 8}

theorem takeEvent_lastTrig (t : Nat) : (takeEvent s g t).cam.lastTrig = s.cam.lastTrig := by
  obtain ⟨target, reached, at', taken⟩ := takeEvent_state s g t
  rw [taken]

theorem groupDue_reached {e : EncCh} {n c : Nat} (source : trigSource s g = .encoder e n) (clear : (s.enc[e]).fault = false)
    (reached : s.cam.trigReached[g] = some c) : groupDue s g = some c := by
  simp only [groupDue, source, clear, reached, Bool.false_eq_true, if_false]

theorem takeEvent_encoder {e : EncCh} {n : Nat} (source : trigSource s g = .encoder e n) (t : Nat) :
    (takeEvent s g t).cam.trigTarget[g] = s.cam.trigTarget[g] + BitVec.ofNat 32 n ∧ (takeEvent s g t).cam.trigReached[g] = none := by
  simp only [takeEvent, source, Fin.getElem_fin, Vector.getElem_set_self, and_self]

theorem groupDue_period {tT a : Nat} (source : trigSource s g = .period tT) (last : s.cam.trigAt[g] = some a) (locked : encLocked s = true) :
    groupDue s g = some (a + tT) := by
  simp only [groupDue, source, last, locked, Bool.not_true, Bool.false_and, Bool.false_eq_true, if_false]

theorem groupDue_beat (source : trigSource s g = .beat) (new : s.cam.trigAt[g] ≠ some s.esc.edgeC) : groupDue s g = some s.esc.edgeC := by
  simp only [groupDue, source, new, if_false]

/-- A Beat edge that was taken is no event again. -/
theorem groupDue_takeEvent_beat (source : trigSource s g = .beat) : groupDue (takeEvent s g s.esc.edgeC) g = none := by
  have taken : takeEvent s g s.esc.edgeC = { s with cam := { s.cam with trigAt := s.cam.trigAt.set g (some s.esc.edgeC) } } := by
    simp only [takeEvent, source]
  have source' : trigSource (takeEvent s g s.esc.edgeC) g = .beat := by rw [taken]; exact source
  simp only [groupDue, source']
  rw [taken]
  simp only [Fin.getElem_fin, Vector.getElem_set_self, if_true]

end

/-! ### Trigger packets (R312, R313) -/

/-- The least spacing of a group: that of its slowest member that is up, and 1 µs at least. -/
def leastSpacing (s : State) (g : Fin 8) : Nat := ((trigMembers s g).map fun (p : Port) => (trigTimes s p).2).foldl Nat.max 1000

/-- The packets of a group for an event at t. -/
def trigPackets (s : State) (g : Fin 8) (t : Nat) : List (Nat × Nat × List Nat) :=
  (trigMembers s g).map fun (p : Port) => (g.val, t + (trigTimes s p).1, [p.val])

theorem trigTimes_spacing (s : State) (p : Nat) : (trigTimes s p).2 = 1000 ∨ (trigTimes s p).2 = 2000 := by
  unfold trigTimes
  split
  · split
    · exact .inl rfl
    · exact .inr rfl
  · exact .inr rfl

theorem foldl_max_le {l : List Nat} {a b : Nat} : l.foldl Nat.max a ≤ b ↔ a ≤ b ∧ ∀ x ∈ l, x ≤ b := by
  induction l generalizing a with
  | nil => simp
  | cons x l ih => simp [ih, and_assoc]

/-- The spacing is at most n exactly where 1 µs and that of each member are. -/
theorem leastSpacing_le {s : State} {g : Fin 8} {n : Nat} :
    leastSpacing s g ≤ n ↔ 1000 ≤ n ∧ ∀ m ∈ trigMembers s g, (trigTimes s m.val).2 ≤ n := by
  rw [leastSpacing, foldl_max_le, List.forall_mem_map]

theorem takeEvent_leastSpacing (s : State) (g : Fin 8) (t : Nat) : leastSpacing (takeEvent s g t) g = leastSpacing s g := by
  obtain ⟨target, reached, at', taken⟩ := takeEvent_state s g t
  rw [taken]
  rfl

theorem leastSpacing_le_max (s : State) (g : Fin 8) : leastSpacing s g ≤ 2000 :=
  leastSpacing_le.2 ⟨by decide, fun m _ => by rcases trigTimes_spacing s m.val with h | h <;> rw [h]; decide⟩

section
variable {s : State} {g : Fin 8} {t : Nat}

theorem fireGroup_sends (spaced : ∀ l, s.cam.lastTrig[g] = some l → l + leastSpacing s g ≤ t) :
    fireGroup s g t = { s with cam := { s.cam with lastTrig := s.cam.lastTrig.set g (some t), sent := s.cam.sent ++ trigPackets s g t } } := by
  have far : ¬ (s.cam.lastTrig[g]).any (fun l => decide (t < l + leastSpacing s g)) = true := by
    intro near
    obtain ⟨l, last, close⟩ := (Option.any_eq_true ..).1 near
    exact absurd (of_decide_eq_true close) (Nat.not_lt.2 (spaced l last))
  exact if_neg far

theorem fireGroup_skips {l : Nat} (last : s.cam.lastTrig[g] = some l) (close : t < l + leastSpacing s g) :
    fireGroup s g t = camFlag { s with cam := { s.cam with skip := s.cam.skip.set g (incW s.cam.skip[g]) } } 8 := by
  have near : (s.cam.lastTrig[g]).any (fun l => decide (t < l + leastSpacing s g)) = true := by
    simp only [last, Option.any_some, close, decide_true]
  exact if_pos near

end

section
variable {s : State} {g : Fin 8} {dt t : Nat} (ready : isReady (advance s dt) = true) (due : groupDue (advance s dt) g = some t)
  (come : t ≤ (advance s dt).c)
include ready due come

theorem exec_triggerEvent_fires (runs : triggersStopped s = false) :
    exec (.triggerEvent g dt) s = .next (fireGroup (takeEvent (advance s dt) g t) g t) := by
  have runs' : triggersStopped (advance s dt) = false := runs
  simp only [exec, execTriggerEvent, ready, due, come, runs', Bool.not_true, Bool.false_eq_true, if_false, if_true]

theorem exec_triggerEvent_stopped (stopped : triggersStopped s = true) :
    exec (.triggerEvent g dt) s = .next (takeEvent (advance s dt) g t) := by
  have stopped' : triggersStopped (advance s dt) = true := stopped
  simp only [exec, execTriggerEvent, ready, due, come, stopped', Bool.not_true, Bool.false_eq_true, if_false, if_true]

end

/-! ### Eye scans (R298) -/

section
variable {s : State} {l : Lane} {p : Port}

section
variable {e : CamEntry} (a : Nat) {b c : Nat} (owner : lanePort s l = some p) (cam : camEntry s p = some e) (up : portUp s.cam.port[p] = true)
include owner cam up

theorem exec_eyeScanDone_records (fixed : e.adaptive = false) : exec (.eyeScanDone l a b c) s =
    .next { s with cam := { s.cam with lane := s.cam.lane.set l { s.cam.lane[l] with open' := b, next := none } } } := by
  simp only [exec, execEyeScanDone, owner, cam, up, fixed, Bool.false_eq_true, if_false, if_true]

theorem exec_eyeScanDone_adopts (adapts : e.adaptive = true) (peak : (s.cam.lane[l]).peak < 31) (better : b + 32 ≤ c) (worse : a < b + 32) :
    exec (.eyeScanDone l a b c) s = .next { s with cam := { s.cam with
      lane := s.cam.lane.set l { s.cam.lane[l] with open' := b, next := some ((s.cam.lane[l]).peak + 1) } } } := by
  simp only [exec, execEyeScanDone, owner, cam, up, adapts, peak, better, Nat.not_le.2 worse, and_false, and_self, if_false, if_true]

end

theorem exec_peakingChange {c : Nat} (next : (s.cam.lane[l]).next = some c) (owner : lanePort s l = some p) (up : portUp s.cam.port[p] = true) :
    exec (.peakingChange l) s = .next { s with cam := { s.cam with
      lane := s.cam.lane.set l { s.cam.lane[l] with peak := c, changes := Nat.min 255 ((s.cam.lane[l]).changes + 1), next := none } } } := by
  simp only [exec, execPeakingChange, next, owner, up, if_true]

end

/-! ### The statement -/

/-- Settles O43: an event is taken and then fired or skipped by the least spacing of the members that are up. -/
theorem triggersAndEyes : Obligations.TriggersAndEyes := by
  unfold Obligations.TriggersAndEyes
  intro Due
  refine ⟨?sends, ?skips, ?stopped,
    fun g n c t e s source clear reached => ⟨groupDue_reached source clear reached, takeEvent_encoder source t⟩,
    fun g tT a s => groupDue_period, fun g s source new => ⟨groupDue_beat source new, groupDue_takeEvent_beat source⟩,
    fun l p e a b c s => exec_eyeScanDone_records a, fun l p e a b c s => exec_eyeScanDone_adopts a, fun l p c s => exec_peakingChange⟩
  case sends =>
    intro g dt t s ⟨ready, due, come⟩ runs spaced
    obtain ⟨target, reached, at', taken⟩ := takeEvent_state (advance s dt) g t
    have far : ∀ l, (takeEvent (advance s dt) g t).cam.lastTrig[g] = some l → l + leastSpacing (takeEvent (advance s dt) g t) g ≤ t := by
      intro l last
      rw [takeEvent_lastTrig] at last
      rw [takeEvent_leastSpacing]
      rcases spaced l last with two | ⟨one, fast⟩
      · exact (Nat.add_le_add_left (leastSpacing_le_max ..) l).trans two
      · exact (Nat.add_le_add_left (leastSpacing_le.2 ⟨le_rfl, fun m mem => (fast m mem).le⟩) l).trans one
    refine ⟨_, exec_triggerEvent_fires ready due come runs, ?_⟩
    rw [fireGroup_sends far, taken]
    exact ⟨Vector.getElem_set_self .., rfl, rfl, rfl, rfl⟩
  case skips =>
    intro g dt t l s ⟨ready, due, come⟩ runs last close
    obtain ⟨target, reached, at', taken⟩ := takeEvent_state (advance s dt) g t
    obtain ⟨least, members⟩ := leastSpacing_le.1 (le_refl (leastSpacing (advance s dt) g))
    have near : t < l + leastSpacing (takeEvent (advance s dt) g t) g := by
      rw [takeEvent_leastSpacing]
      rcases close with one | ⟨two, m, mem, slow⟩
      · omega
      · have := members m mem
        omega
    have last' : (takeEvent (advance s dt) g t).cam.lastTrig[g] = some l := by rw [takeEvent_lastTrig]; exact last
    refine ⟨_, exec_triggerEvent_fires ready due come runs, ?_⟩
    rw [fireGroup_skips last' near, taken]
    exact ⟨rfl, bit_orW (mask := 8) (i := 3) _ (by decide) (by decide), rfl, rfl, rfl⟩
  case stopped =>
    intro g dt t s ⟨ready, due, come⟩ stopped
    obtain ⟨target, reached, at', taken⟩ := takeEvent_state (advance s dt) g t
    refine ⟨_, exec_triggerEvent_stopped ready due come stopped, ?_⟩
    rw [taken]
    exact ⟨rfl, rfl⟩

end Sys2Proof.Machine
end

section
/-! Vestibule hold and boot halt (O21): what entry to hold stops, and what passes in either. -/

namespace Sys2Proof.Machine

open Sys2Proof

/-! ### Entry (R319, R399, R497, R499) -/

/-- Each part of the entry stops one part of the state. -/
theorem enterHold_frame (s : State) (reason sect index offset : Nat) :
    let t := enterHold s reason sect index offset
    t.sec = { s.sec with phase := 7, reason := reason, sect := sect, index := index, offset := offset } ∧ t.ejc.entries = [] ∧
    t.esc.phase = .off ∧ t.iio = { s.iio with ready := false } ∧ t.fuse = s.fuse ∧ t.img = s.img ∧ t.c = s.c ∧ t.mem = s.mem := by
  simp only [enterHold, stopBeats, emptyCalendar, stopCameras, and_self]

theorem enterHold_port (s : State) (reason sect index offset : Nat) (p : Fin 16) :
    (((enterHold s reason sect index offset).cam.port[p]).state = 0) ∧ ((enterHold s reason sect index offset).cam.port[p]).accepting = false := by
  simp only [enterHold, stopBeats, emptyCalendar, stopCameras, Fin.getElem_fin, Vector.getElem_map, and_self]

theorem enterHold_work (s : State) (reason sect index offset : Nat) (p : Fin 8) : ((enterHold s reason sect index offset).phys[p]).work = none := by
  simp only [enterHold, stopBeats, Fin.getElem_fin, Vector.getElem_map]

/-! ### What passes in hold and in boot halt (R319, R496, R497) -/

/-- The next notice is due, and its time is kept. -/
def noticeDue (s : State) : State :=
  let s := reach s (s.start.noticeC + 1000000000)
  { s with start := { s.start with noticeC := s.c } }

theorem exec_holdNotice {s : State} (run : running s = true) (hold : s.sec.phase = 7) : exec .holdNotice s =
    .next (sendDg (noticeDue s) 0x30 0
      (leBytes 1 s.sec.reason ++ leBytes 1 s.sec.sect ++ leBytes 1 s.sec.index ++ leBytes 1 s.nvm.active ++ leBytes 4 s.sec.offset ++
       padTo 32 s.sec.prog ++ leBytes 1 s.fuse.svn ++ leBytes 1 s.sec.stage ++ leBytes 2 0 ++ leBytes 4 (firmware s).version)) := by
  simp only [exec, execHoldNotice, run, hold, beq_self_eq_true, Bool.and_self, if_true]
  rfl

theorem exec_pocxpHoldRelease {s : State} {c : Nat} (low : s.start.pocxpLow = some c) : exec .pocxpHoldRelease s =
    .next { reach s (c + 500000000) with
      cam := { s.cam with port := s.cam.port.map fun p => { p with enable := none } }, start := { s.start with pocxpLow := none } } := by
  simp only [exec, execPocxpHoldRelease, low]
  rfl

theorem exec_bootHaltReport {s : State} (halt : s.sec.bootHalt = true) : exec .bootHaltReport s =
    .next { advance s 1000000000 with
      recd := { s.recd with crownOut := s.recd.crownOut ++ [ascii "boot halt: firmware A and B failed"] } } := by
  -- The records are rewritten in a step of their own: unfolding `advance` beside them makes the kernel count up the second.
  have written : exec .bootHaltReport s = .next { advance s 1000000000 with
      recd := { (advance s 1000000000).recd with
        crownOut := (advance s 1000000000).recd.crownOut ++ [ascii "boot halt: firmware A and B failed"] } } := if_pos halt
  rw [written, advance_recd]

/-- Settles O21: entry is a chain of updates of one part each, and each command of hold and of boot halt is one update. -/
theorem holdAndHalt : Obligations.HoldAndHalt := by
  unfold Obligations.HoldAndHalt
  refine ⟨?entry, ?notice, fun s c => exec_pocxpHoldRelease, fun s halt => ⟨_, exec_bootHaltReport halt⟩⟩
  case entry =>
    intro s r x y z
    obtain ⟨sec, entries, off, iio, kept⟩ := enterHold_frame s r x y z
    exact ⟨sec, entries, off, iio, enterHold_port s r x y z, enterHold_work s r x y z, kept⟩
  case notice =>
    intro s run hold
    exact ⟨_, _, exec_holdNotice run hold, rfl, rfl, rfl, rfl, rfl, rfl, rfl, rfl, rfl⟩

end Sys2Proof.Machine
end

section
/-! Pipes of the image pipeline and their shadow tables (O42): the stages keep the order of a camera's lines, and a word of the table
window takes its place. -/

namespace Sys2Proof.Machine

open Sys2Proof

/-! ### The stages of a line (R330, R335, R341) -/

/-- The lines that wait in a camera's FIFO, the index of its next line, and the camera ports. -/
def State.lineOrder (s : State) (p : Port) : List FifoLine × Nat × Cam := ((s.isp.cam[p]).fifo, (s.isp.cam[p]).index, s.cam)

theorem updIsp_lineOrder (s : State) (p : Port) (f : IspCam → IspCam) :
    (updIsp s p f).lineOrder p = ((f s.isp.cam[p]).fifo, (f s.isp.cam[p]).index, s.cam) := by
  simp only [State.lineOrder, updIsp_same, updIsp_cam]

theorem foldl_lineOrder {α : Type} {f : State → α → State} {p : Port} (keeps : ∀ s x, (f s x).lineOrder p = s.lineOrder p) (l : List α)
    (s : State) : (l.foldl f s).lineOrder p = s.lineOrder p :=
  List.foldlRecOn l f (motive := fun t => t.lineOrder p = s.lineOrder p) rfl fun t kept x _ => (keeps t x).trans kept

theorem StoresOnly.lineOrder {s t : State} (h : StoresOnly s t) (p : Port) : t.lineOrder p = s.lineOrder p := by
  obtain ⟨_, _, rfl⟩ := h
  rfl

theorem ringWrite_storesOnly (s : State) (p : Nat) (o : OutStream) (ivl index flags : Nat) (tag : Word) (vals : List Nat) :
    StoresOnly s (ringWrite s p o ivl index flags tag vals) :=
  (unitWrite_storesOnly ..).trans (unitWrite_storesOnly ..)

theorem flagWritten_lineOrder (s : State) (p : Port) (j ivl mask : Nat) : (flagWritten s p j ivl mask).lineOrder p = s.lineOrder p := by
  unfold flagWritten
  split
  · extract_lets a u mark
    exact (updIsp_lineOrder u p fun c => { c with ring := c.ring.map mark }).trans ((unitWrite_storesOnly ..).lineOrder p)
  · rfl

theorem cutLine_lineOrder (s : State) (p : Port) (ivl : Nat) : (cutLine s p ivl).lineOrder p = s.lineOrder p :=
  foldl_lineOrder (fun s j => flagWritten_lineOrder s p j ivl 8) _ s

theorem emitLine_lineOrder (s : State) (p : Port) (j : Nat) (o : OutStream) (ivl flags : Nat) (tag : Word) (vals : List Nat) :
    (emitLine s p j o ivl flags tag vals).lineOrder p = s.lineOrder p :=
  (updIsp_lineOrder ..).trans ((ringWrite_storesOnly ..).lineOrder p)

theorem stage7_lineOrder (s : State) (p : Port) (colour : Bool) (j : Nat) (o : OutStream) (l : StageLine) :
    (stage7 s p colour j o l).lineOrder p = s.lineOrder p := by
  unfold stage7
  extract_lets g u
  have forgotten : u.lineOrder p = s.lineOrder p := updIsp_lineOrder ..
  split
  · exact updIsp_lineOrder ..
  · split
    · exact forgotten
    · exact (emitLine_lineOrder ..).trans forgotten

/-- An armed group changes tables only. -/
theorem armedApply_order (e : IspEntry) (ivl : Nat) (c : IspCam) :
    (armedApply e ivl c).fifo = c.fifo ∧ (armedApply e ivl c).index = c.index := by
  unfold armedApply
  extract_lets note ig im due c₁ c₂
  have gains : c₂.fifo = c.fifo ∧ c₂.index = c.index := by
    unfold c₂
    split <;> exact ⟨rfl, rfl⟩
  split <;> exact gains

/-- A line that passes the stages is counted, and leaves what waits behind it (R330, R335). -/
theorem processLine_lineOrder (s : State) (p : Port) (e : IspEntry) (w : Nat) (f : PixFmt) (l : FifoLine) :
    (processLine s p e w f l).lineOrder p = ((s.isp.cam[p]).fifo, (s.isp.cam[p]).index + 1, s.cam) := by
  obtain ⟨fifo, index⟩ := armedApply_order e l.ivl s.isp.cam[p]
  unfold processLine
  extract_lets s₁ c s₂ n t x2 s₃
  have counted : s₂.lineOrder p = ((s.isp.cam[p]).fifo, (s.isp.cam[p]).index + 1, s.cam) := by
    rw [updIsp_lineOrder, updIsp_same, fifo, index, updIsp_cam]
  split
  · exact (cutLine_lineOrder ..).trans counted
  · have tapped : s₃.lineOrder p = s₂.lineOrder p := by
      unfold s₃
      split
      · exact emitLine_lineOrder ..
      · rfl
    refine (foldl_lineOrder (fun s o => foldl_lineOrder (fun s x => stage7_lineOrder ..) _ s) _ _).trans ?_
    exact (updIsp_lineOrder ..).trans (tapped.trans counted)

/-! ### Pipes (R330, R537, R539) -/

/-- The input of which a pipe takes a line, if it asks input a first. -/
def nextInput (s : State) (q : Pipe) (a b : Nat) : Option Nat :=
  if (headLine s q a).isSome then some a else if (headLine s q b).isSome then some b else none

/-- A line has left its FIFO at its time and passed the stages of its pipe. -/
def linePassed (s : State) (q : Pipe) (p : Port) (e : IspEntry) (w : Nat) (f : PixFmt) (l : FifoLine) : State :=
  processLine (updIsp (reach s (Nat.max l.since s.isp.freeC[q] + lineCycles s p)) p fun c => { c with fifo := c.fifo.drop 1 }) p e w f l

theorem exec_pipeLineDone {s : State} {q : Pipe} {input : Nat} {p : Port} {l : FifoLine} {e : IspEntry} {c : CamEntry} {f : PixFmt}
    (runs : s.isp.inReset[q] = false) (line : currentLine s q = some (input, p, l)) (isp : ispEntry s p = some e)
    (cam : camEntry s p = some c) (pix : pixFmt? c.pfnc = some f) :
    let u := linePassed s q p e c.width f l
    exec (.pipeLineDone q) s = .next { u with isp := { u.isp with
      busy := u.isp.busy.set q (nextInput u q (1 - input) input), freeC := u.isp.freeC.set q u.c } } := by
  simp only [exec, execPipeLineDone, runs, line, isp, cam, pix, Bool.false_eq_true, if_false]
  rfl

theorem linePassed_lineOrder (s : State) (q : Pipe) (p : Port) (e : IspEntry) (w : Nat) (f : PixFmt) (l : FifoLine) :
    (linePassed s q p e w f l).lineOrder p = ((s.isp.cam[p]).fifo.drop 1, (s.isp.cam[p]).index + 1, s.cam) := by
  rw [linePassed, processLine_lineOrder, updIsp_same]
  rfl

theorem linePassed_kept (s : State) (q : Pipe) (p : Port) (e : IspEntry) (w : Nat) (f : PixFmt) (l : FifoLine) :
    (linePassed s q p e w f l).kept = (reach s (Nat.max l.since s.isp.freeC[q] + lineCycles s p)).kept :=
  processLine_kept ..

theorem foldl_updIsp (f : IspCam → IspCam) (l : List Port) (s : State) :
    ∃ cam, l.foldl (fun s p => updIsp s p f) s = { s with isp := { s.isp with cam := cam } } := by
  induction l generalizing s with
  | nil => exact ⟨_, rfl⟩
  | cons p l ih => exact ih (updIsp s p f)

/-- A pipe in reset: the lines in its FIFOs are lost, it works on none, and its generation is the next (R537). -/
theorem resetPipe_recordsOnly (s : State) (q : Pipe) (cause : Nat) : ∃ cam, RecordsOnly
    { s with
      isp := { s.isp with cam := cam, inReset := s.isp.inReset.set q true, busy := s.isp.busy.set q none }
      pwr := { s.pwr with genPipe := s.pwr.genPipe.set q ((s.pwr.genPipe[q] + 1) % 16) } } (resetPipe s q cause) := by
  unfold resetPipe
  dsimp only
  generalize lost : List.foldl _ s _ = u
  obtain ⟨cam, rfl⟩ : ∃ cam, u = { s with isp := { s.isp with cam := cam } } := lost ▸ foldl_updIsp ..
  exact ⟨cam, resetEvent_recordsOnly ..⟩

/-- The line of a pipe was not finished in its time: the fault is counted (R539). -/
def lateCounted (s : State) (p : Port) (l : FifoLine) : State :=
  { reach s (l.since + lineCycles s p + 4096) with pwr := { s.pwr with prog := incW s.pwr.prog } }

theorem exec_pipeLineTimeout {s : State} {q : Pipe} {input : Nat} {p : Port} {l : FifoLine} (up : dieUp s = true)
    (line : currentLine s q = some (input, p, l)) (runs : s.isp.inReset[q] = false) :
    exec (.pipeLineTimeout q) s = .next (resetPipe (lateCounted s p l) q 0x05) := by
  simp only [exec, execPipeLineTimeout, line, up, runs, Bool.not_false, Bool.and_self, if_true]
  rfl

theorem exec_pipeResetComplete {s : State} {q : Pipe} (inReset : s.isp.inReset[q] = true) :
    exec (.pipeResetComplete q) s = .next { s with isp := { s.isp with
      inReset := s.isp.inReset.set q false, busy := s.isp.busy.set q (nextInput s q 0 1), freeC := s.isp.freeC.set q s.c } } :=
  congrArg Host.Outcome.next (if_pos inReset)

/-! ### Tables (R342, R343, R345, R369) -/

/-- A field that was written reads back. -/
theorem bits_setBits (x l n v : Nat) : bits (setBits x l n v) l n = v % 2 ^ n := by
  have above : x / 2 ^ l - x / 2 ^ l % 2 ^ n = 2 ^ n * (x / 2 ^ l / 2 ^ n) := by
    have := Nat.div_add_mod (x / 2 ^ l) (2 ^ n)
    omega
  simp only [setBits, bits, Nat.shiftLeft_eq, Nat.shiftRight_eq_div_pow]
  rw [Nat.add_mul_div_right _ _ (Nat.two_pow_pos l), Nat.mul_comm _ (2 ^ l), Nat.sub_mul_div, above, Nat.mul_add_mod, Nat.mod_mod]

/-- The address of the table window moves on to the next word. -/
def tblStepped (s : State) : State :=
  { s with isp := { s.isp with tblAddr := setBits s.isp.tblAddr 0 20 ((bits s.isp.tblAddr 0 20 + 1) % 2 ^ 20) } }

/-- A word of a table with no pending group goes to its place in the shadow copy (R342, R345). -/
theorem tblWrite_stores {s : State} {p : Port} {e : IspEntry} (cam : bits s.isp.tblAddr 20 4 = p.val) (isp : ispEntry s p = some e)
    (room : bits s.isp.tblAddr 0 20 < tableWords s p (bits s.isp.tblAddr 24 3))
    (gain : bits s.isp.tblAddr 24 3 = 3 → e.calEn = false ∧ (s.isp.cam[p]).gainSt = 0)
    (main : bits s.isp.tblAddr 24 3 ≠ 3 → (s.isp.cam[p]).mainSt = 0) (v : Word) :
    tblWrite s v = updIsp (tblStepped s) p fun c =>
      { c with shadow := putWord c.shadow (bits s.isp.tblAddr 24 3) (bits s.isp.tblAddr 0 20) v } := by
  have noCal : ¬(bits s.isp.tblAddr 24 3 = 3 ∧ e.calEn = true) := fun ⟨gains, calEn⟩ =>
    Bool.false_ne_true ((gain gains).1.symm.trans calEn)
  have idle : (if bits s.isp.tblAddr 24 3 = 3 then (s.isp.cam[p]).gainSt else (s.isp.cam[p]).mainSt) = 0 := by
    split
    next gains => exact (gain gains).2
    next other => exact main other
  simp only [tblWrite, cam, isp, p.isLt, dif_pos, if_neg (Nat.not_le.2 room), noCal, if_false, ne_eq]
  exact if_neg (not_not.2 idle)

theorem exec_ispTblData {s : State} (a : Acc) (v : Word) (run : running s = true) (free : dieBlocked s = false) :
    exec (.ispTblData a v) s = .next (tblWrite s v) :=
  congrArg Host.Outcome.next (if_pos (by rw [run, free]; rfl))

section
variable {s : State} {a : Acc} (run : running s = true) (free : dieBlocked s = false) (secure : a.secure = true)
include run free secure

theorem exec_commitMain : exec (.commitMain a) s = .next (commitMainCore s) :=
  congrArg Host.Outcome.next (actionWrite_acts run secure (fun _ => free) commitMainCore)

theorem exec_commitGain : exec (.commitGain a) s = .next (commitGainCore s) :=
  congrArg Host.Outcome.next (actionWrite_acts run secure (fun _ => free) commitGainCore)

end

theorem commitMainCore_of_entry {s : State} (isp : (ispEntry s (tblCam s)).isSome = true) : commitMainCore s =
    if (s.isp.cam[tblCam s]).mainSt = 0 then updIsp s (tblCam s) fun c => { c with mainSt := 1 } else ispFlag s 8 := by
  rw [commitMainCore, if_neg (by simp [Option.isSome_iff_ne_none.1 isp]), ite_not]

theorem commitGainCore_of_entry {s : State} {e : IspEntry} (isp : ispEntry s (tblCam s) = some e) : commitGainCore s =
    if e.calEn then ispFlag s 16
    else if (s.isp.cam[tblCam s]).gainSt = 0 then updIsp s (tblCam s) fun c => { c with gainSt := 1 } else ispFlag s 8 := by
  simp only [commitGainCore, isp, ite_not]

/-! ### The statement -/

/-- Settles O42: the line of a pipe is taken off and passes the stages, which keep the order of the lines behind it. -/
theorem pipesAndTables : Obligations.PipesAndTables := by
  unfold Obligations.PipesAndTables
  intro First
  refine ⟨?done, ?timeout, fun q s => exec_pipeResetComplete, ?word,
    fun a s run free secure isp => by rw [exec_commitMain run free secure, commitMainCore_of_entry isp],
    fun a e s run free secure isp => by rw [exec_commitGain run free secure, commitGainCore_of_entry isp]⟩
  case done =>
    intro q input p l e c f s u runs line isp cam pix passed
    have passed : u = linePassed s q p e c.width f l := passed
    have order := linePassed_lineOrder s q p e c.width f l
    have kept := linePassed_kept s q p e c.width f l
    have done := exec_pipeLineDone runs line isp cam pix
    rw [← passed] at order kept done
    refine ⟨_, done, rfl, ?_⟩
    exact ⟨congrArg (·.1) order, congrArg (·.2.1) order, congrArg (·.2.2) kept, congrArg (·.2.1) kept, congrArg (·.2.2) order⟩
  case timeout =>
    intro q input p l s up line runs
    obtain ⟨cam, records⟩ := resetPipe_recordsOnly (lateCounted s p l) q 0x05
    obtain ⟨_, _, _, _, _, _, _, _, _, _, _, reset⟩ := records
    refine ⟨_, exec_pipeLineTimeout up line runs, ?_⟩
    rw [reset]
    exact ⟨Vector.getElem_set_self .., Vector.getElem_set_self .., rfl, rfl, rfl⟩
  case word =>
    intro a v e p s run free cam isp room gain main
    refine ⟨_, exec_ispTblData a v run free, ?_⟩
    rw [tblWrite_stores cam isp room gain main]
    refine ⟨updIsp_same .., ?_, rfl⟩
    exact (bits_setBits ..).trans (Nat.mod_mod ..)

end Sys2Proof.Machine
end

section
/-! Line-data messages (O44): a fragment that begins one, a whole one that enters the interval, and one that is given up. -/

namespace Sys2Proof.Machine

open Sys2Proof

/-! ### Fragments of a host (R480) -/

/-- No message of a host with this number is in reassembly. -/
def NoMessage (s : State) (h n : Nat) : Prop := ∀ m ∈ s.net.lds, m.host ≠ h ∨ m.msgId ≠ n

section
variable {s : State} {h n : Nat} (new : NoMessage s h n)
include new

theorem NoMessage.find? : (s.net.lds.find? fun m => m.host == h && m.msgId == n) = none :=
  List.find?_eq_none.2 fun m mem same => by
    obtain ⟨host, msgId⟩ := Bool.and_eq_true_iff.1 same
    exact (new m mem).elim (· (beq_iff_eq.1 host)) (· (beq_iff_eq.1 msgId))

theorem NoMessage.filter : (s.net.lds.filter fun m => !(m.host == h && m.msgId == n)) = s.net.lds :=
  List.filter_eq_self.2 fun m mem => by rw [Bool.eq_false_iff.2 (List.find?_eq_none.1 new.find? m mem)]; rfl

end

/-- The one fragment of a message holds all its bytes. -/
theorem fragmentOk_single {f : Fragment} (sound : fragmentOk f = true) (one : f.nFrag = 1) : f.frag = 0 ∧ f.bytes.length = f.total := by
  obtain ⟨-, -, -, -, below, length⟩ := of_decide_eq_true sound
  rw [one] at below length
  exact ⟨Nat.lt_one_iff.1 below, by simpa using length⟩

/-- The message that a fragment begins. -/
def firstPart (s : State) (h : Nat) (f : Fragment) : LdMsg :=
  { host := h, msgId := f.msgId, channel := f.channel, nFrag := f.nFrag, total := f.total, frags := [(f.frag, f.bytes)], since := s.c }

section
variable {s : State} {h : Nat} {f : Fragment} (new : NoMessage s h f.msgId) (e : EthPort)
include new

theorem joinFragment_begins (more : 1 < f.nFrag) :
    joinFragment s h e f = { s with net := { s.net with lds := s.net.lds ++ [firstPart s h f] } } := by
  simp only [joinFragment, new.find?, new.filter, Option.getD_none, ne_eq, not_true, or_self, if_false, List.any_nil, Bool.false_eq_true,
    List.nil_append, List.length_singleton, more, if_true, firstPart]

theorem joinFragment_whole (one : f.nFrag = 1) (first : f.frag = 0) : joinFragment s h e f = takeLine s f.channel f.bytes := by
  simp [-Bool.not_and, joinFragment, new.find?, new.filter, one, first]

end

/-- In an open interval a sound fragment of a message that is not in reassembly has no late one to drop first. -/
theorem lineCore_new {s : State} {h : Fin 8} {pl : List Byte} (interval : intervalOpen s = true) (long : 8 ≤ pl.length)
    (sound : fragmentOk (parseFragment pl) = true) (new : NoMessage s h (parseFragment pl).msgId) (e : EthPort) :
    lineCore s h e pl = joinFragment s h e (parseFragment pl) := by
  have hold : s.sec.phase ≠ 7 := by
    simp only [intervalOpen, Bool.and_eq_true, beq_iff_eq] at interval
    omega
  have late : (s.net.lds.any fun m => m.host == h.val && m.msgId == (parseFragment pl).msgId && decide (m.since + 10000000 < s.c)) = false :=
    List.any_eq_false.2 fun m mem same => List.find?_eq_none.1 new.find? m mem (Bool.and_eq_true_iff.1 same).1
  have short : (decide (pl.length < 8) || !fragmentOk (parseFragment pl)) = false := by simp [sound, long]
  simp only [lineCore, hold, interval, late, short, Bool.not_true, Bool.false_eq_true, if_false]

/-- A sound fragment that arrives on a live port goes to reassembly at once where no message with its number waits. -/
theorem exec_lineData_new {s : State} {h : Fin 8} {e : EthPort} {pl : List Byte} (run : running s = true) (live : portLive s e = true)
    (host : h.val < s.boot.hosts.length) (interval : intervalOpen s = true) (long : 8 ≤ pl.length)
    (sound : fragmentOk (parseFragment pl) = true) (new : NoMessage s h (parseFragment pl).msgId) (dt : Nat) :
    exec (.lineData h e pl dt) s = .next (joinFragment (advance s dt) h e (parseFragment pl)) := by
  have taken : exec (.lineData h e pl dt) s = .next (lineCore (advance s dt) h e pl) := if_pos (by rw [run, live, decide_eq_true host]; rfl)
  rw [taken, lineCore_new (s := advance s dt) interval long sound new]

/-! ### A message of an interval (R363-R365) -/

/-- The IDs of a message in the vocabulary of the image. -/
def tokenIds (s : State) (bytes : List Byte) : List Nat :=
  tokenize (vocab (match s.img with | some i => i.tok | none => [])) bytes.length bytes

/-- A message that is one of the first 16 of its interval enters the chain and the line-data area; more IDs than the area takes set a flag. -/
theorem takeLine_tokenized {s : State} (room : (s.isp.ldArea.filter fun x => x.1 == s.esc.beat).length < 16) (channel : Nat)
    (bytes : List Byte) : ∃ status, takeLine s channel bytes = { s with
      sealer := { s.sealer with msgs := s.sealer.msgs ++ [leBytes 4 bytes.length ++ bytes] }
      isp := { s.isp with ldArea := s.isp.ldArea ++ [(s.esc.beat, channel, (tokenIds s bytes).take 1024)], status := status } } := by
  have taken : ¬ 16 ≤ ((chainMsg s bytes).isp.ldArea.filter fun x => x.1 == (chainMsg s bytes).esc.beat).length := Nat.not_le.2 room
  by_cases truncated : 1024 < (tokenIds s bytes).length
  · exact ⟨orW s.isp.status 0x800, (if_neg taken).trans (if_pos truncated)⟩
  · exact ⟨s.isp.status, (if_neg taken).trans (if_neg truncated)⟩

/-! ### A message is given up (R480) -/

theorem exec_lineDataTimeout {s : State} {h : Fin 8} {n : Nat} {m : LdMsg} (run : running s = true)
    (waits : (s.net.lds.find? fun m => m.host == h.val && m.msgId == n) = some m) :
    exec (.lineDataTimeout h n) s = .next { reach s (m.since + 10000000) with net := { s.net with
      lds := s.net.lds.filter fun m => !(m.host == h.val && m.msgId == n)
      ldIncomplete := satInc s.net.ldIncomplete m.frags.length, status := orW s.net.status 0x40 } } := by
  simp only [exec, execLineDataTimeout, waits, run, if_true, dropLd, reach_net]

/-! ### The statement -/

/-- Settles O44: a sound fragment of a new message joins it, which is then in reassembly or, with one fragment, whole. -/
theorem lineMessages : Obligations.LineMessages := by
  unfold Obligations.LineMessages
  intro Sound
  refine ⟨?begins, ?whole, fun h n m s => exec_lineDataTimeout⟩
  case begins =>
    intro h e pl dt s ⟨run, live, host, interval, long, sound, new⟩ more
    rw [exec_lineData_new run live host interval long sound new, joinFragment_begins (s := advance s dt) new e more]
    rfl
  case whole =>
    intro h e pl dt s ⟨run, live, host, interval, long, sound, new⟩ one room
    obtain ⟨first, length⟩ := fragmentOk_single sound one
    obtain ⟨status, taken⟩ := takeLine_tokenized (s := advance s dt) room (parseFragment pl).channel (parseFragment pl).bytes
    refine ⟨_, exec_lineData_new run live host interval long sound new dt, ?_⟩
    rw [joinFragment_whole (s := advance s dt) new e one first, taken, ← length]
    exact ⟨rfl, rfl, rfl, rfl, rfl, rfl⟩

end Sys2Proof.Machine
end

section
/-! A pending alarm (O12): a code that is not pending appends its entry, and one that is counts into the entry it has. -/

namespace Sys2Proof.Machine

open Sys2Proof

/-- The entry that an alarm fills where its code is not pending (R474). -/
def firstAlarm (s : State) (code phys lwing : Nat) (arg : List Byte) : AlarmEntry :=
  { code := code, phys := phys, lwing := lwing, first := timeT s, last := timeT s, beat := beatField s, arg := padTo 16 arg }

/-- The entry of a pending code after one more alarm (R474). -/
def repeatedAlarm (s : State) (phys lwing : Nat) (arg : List Byte) (a : AlarmEntry) : AlarmEntry :=
  { a with count := Nat.min 0xFFFFFFFF (a.count + 1), last := timeT s, beat := beatField s, phys := phys, lwing := lwing, arg := padTo 16 arg }

section
variable {s : State} {code : Nat} (phys lwing : Nat) (arg : List Byte)

theorem alarmEntry_appends (new : ∀ a ∈ s.net.alarms, a.code ≠ code) :
    (alarmEntry s code phys lwing arg).net.alarms = s.net.alarms ++ [firstAlarm s code phys lwing arg] := by
  have none_pending : ¬ (s.net.alarms.any fun a => a.code == code) = true := fun h =>
    have ⟨a, mem, same⟩ := List.any_eq_true.1 h
    new a mem (beq_iff_eq.1 same)
  exact if_neg none_pending

theorem alarmEntry_counts (pending : Alarmed s.net code) : (alarmEntry s code phys lwing arg).net.alarms =
    s.net.alarms.map fun a => if a.code = code then repeatedAlarm s phys lwing arg a else a := by
  obtain ⟨a, mem, same⟩ := pending
  have found : (s.net.alarms.any fun a => a.code == code) = true := List.any_eq_true.2 ⟨a, mem, beq_iff_eq.2 same⟩
  exact if_pos found

end

/-- Settles O12: by whether the code is pending; a pending one maps over the entries, so their number stays. -/
theorem alarmEntries : Obligations.AlarmEntries := by
  unfold Obligations.AlarmEntries
  refine ⟨alarmEntry_recordsOnly, ?new, ?pending, fun s code phys lwing arg => rfl⟩
  case new =>
    intro s code phys lwing arg new
    exact ⟨firstAlarm s code phys lwing arg, alarmEntry_appends phys lwing arg new, rfl, rfl, rfl, rfl, rfl, rfl⟩
  case pending =>
    intro s code phys lwing arg j x at_j same
    rw [alarmEntry_counts phys lwing arg ⟨x, List.mem_of_getElem? at_j, same⟩]
    refine ⟨repeatedAlarm s phys lwing arg x, ?_, same, rfl, rfl, rfl, List.length_map _⟩
    rw [List.getElem?_map, at_j, Option.map_some, if_pos same]

end Sys2Proof.Machine
end

section
/-! Absolute and sin/cos encoder channels (O46): a rejected word or sample touches its channel and may raise its fault, an accepted one
also what the count reaches. -/

namespace Sys2Proof.Machine

open Sys2Proof

/-! ### Updates of one channel (R374) -/

theorem updEnc_updEnc (s : State) (ch : EncCh) (f g : Enc → Enc) : updEnc (updEnc s ch f) ch g = updEnc s ch fun x => g (f x) := by
  simp [updEnc]

/-- t is s with at most the encoder channels and the targets that a count has reached written (R20, R311). -/
def CountsOnly (s t : State) : Prop :=
  t = { s with enc := t.enc, esc := { s.esc with reached := t.esc.reached }, cam := { s.cam with trigReached := t.cam.trigReached } }

/-- The Escapement remembers a target that is reached (R20). -/
theorem latchTarget_frame (s : State) : ∃ reached, latchTarget s = { s with esc := { s.esc with reached := reached } } := by
  unfold latchTarget
  split
  · exact ⟨true, rfl⟩
  · exact ⟨s.esc.reached, rfl⟩

section
variable (s : State) (ch : EncCh) (f : Enc → Enc)

theorem countEnc_frame : ∃ reached trigReached, countEnc s ch f =
    { updEnc s ch f with esc := { s.esc with reached := reached }, cam := { s.cam with trigReached := trigReached } } := by
  obtain ⟨reached, latched⟩ := latchTarget_frame (updEnc s ch f)
  rw [countEnc, latched]
  exact ⟨reached, _, rfl⟩

theorem countEnc_countsOnly : CountsOnly s (countEnc s ch f) := by
  obtain ⟨_, _, h⟩ := countEnc_frame s ch f
  rw [h]
  rfl

theorem countEnc_same : (countEnc s ch f).enc[ch] = f s.enc[ch] := by
  obtain ⟨_, _, h⟩ := countEnc_frame s ch f
  rw [h]
  exact updEnc_same s ch f

theorem countEnc_updEnc (g : Enc → Enc) : countEnc (updEnc s ch f) ch g = countEnc s ch fun x => g (f x) := by
  simp only [countEnc, updEnc_updEnc]

end

/-- Only the channel's own value counts. -/
theorem countEnc_congr {s : State} {ch : EncCh} {f g : Enc → Enc} (same : f s.enc[ch] = g s.enc[ch]) : countEnc s ch f = countEnc s ch g := by
  simp only [countEnc, updEnc, same]

/-! ### Rejected words and samples (R383) -/

/-- A channel after one more rejection. -/
def rejected (x : Enc) : Enc := { x with err := incW x.err, rejects := x.rejects + 1, good := 0 }

/-- A channel that enters fault. -/
def faulted (cause : Nat) (x : Enc) : Enc :=
  { x with fault := true, cause := cause, faults := incW x.faults, before := x.last, last := none, good := 0, rejects := 0, resume := false }

/-- A fault is its flag and its alarm. -/
theorem enterFault_recordsOnly (s : State) (ch : EncCh) (cause : Nat) :
    RecordsOnly { updEnc s ch (faulted cause) with encStatus := orW s.encStatus (2 ^ ch.val) } (enterFault s ch cause) :=
  raiseAlarm_recordsOnly ..

theorem RecordsOnly.enc {s t : State} (h : RecordsOnly s t) : t.enc = s.enc := by
  obtain ⟨_, _, _, _, _, _, _, _, _, _, _, rfl⟩ := h
  rfl

theorem enterFault_same (s : State) (ch : EncCh) (cause : Nat) : (enterFault s ch cause).enc[ch] = faulted cause s.enc[ch] := by
  rw [(enterFault_recordsOnly s ch cause).enc]
  exact updEnc_same s ch (faulted cause)

theorem enterFault_alarmed (s : State) (ch : EncCh) (cause : Nat) : Alarmed (enterFault s ch cause).net 0x000B := raiseAlarm_alarmed ..

section
variable {s : State} {ch : EncCh} {limit : Nat} (cause : Nat)

/-- Too few rejections in a row, or a fault already, only count. -/
theorem rejectWord_counts (few : (s.enc[ch]).fault = true ∨ (s.enc[ch]).rejects + 1 < limit) :
    rejectWord s ch cause limit = updEnc s ch rejected := by
  have stays : ¬ (!(rejected s.enc[ch]).fault && decide (limit ≤ (rejected s.enc[ch]).rejects)) = true := by
    rw [rejected, Bool.and_eq_true, Bool.not_eq_true', decide_eq_true_eq]
    rintro ⟨sound, last⟩
    exact few.elim (fun h => Bool.noConfusion (h.symm.trans sound)) (fun h => Nat.not_lt.2 last h)
  rw [← updEnc_same s ch rejected] at stays
  exact if_neg stays

theorem rejectWord_faults (sound : (s.enc[ch]).fault = false) (last : limit ≤ (s.enc[ch]).rejects + 1) :
    rejectWord s ch cause limit = enterFault (updEnc s ch rejected) ch cause := by
  have faults : (!(rejected s.enc[ch]).fault && decide (limit ≤ (rejected s.enc[ch]).rejects)) = true := by
    simp [rejected, sound, last, -Fin.getElem_fin]
  rw [← updEnc_same s ch rejected] at faults
  exact if_pos faults

/-- A rejection on a channel without a fault counts an error and moves no count; it is the fault if enough are in a row (R383). -/
theorem rejectWord_sound (sound : (s.enc[ch]).fault = false) :
    ((rejectWord s ch cause limit).enc[ch]).err = incW (s.enc[ch]).err ∧
    ((rejectWord s ch cause limit).enc[ch]).count = (s.enc[ch]).count ∧
    (((rejectWord s ch cause limit).enc[ch]).fault = true ↔ limit ≤ (s.enc[ch]).rejects + 1) ∧
    (limit ≤ (s.enc[ch]).rejects + 1 →
      ((rejectWord s ch cause limit).enc[ch]).cause = cause ∧ Alarmed (rejectWord s ch cause limit).net 0x000B) := by
  by_cases last : limit ≤ (s.enc[ch]).rejects + 1
  · have alarmed := enterFault_alarmed (updEnc s ch rejected) ch cause
    rw [rejectWord_faults cause sound last, enterFault_same, updEnc_same]
    exact ⟨rfl, rfl, ⟨fun _ => last, fun _ => rfl⟩, fun _ => ⟨rfl, alarmed⟩⟩
  · rw [rejectWord_counts cause (.inr (Nat.not_le.1 last)), updEnc_same]
    exact ⟨rfl, rfl, ⟨fun h => Bool.noConfusion (sound.symm.trans h), fun h => absurd h last⟩, fun h => absurd h last⟩

end

/-! ### Position words (R379, R380) -/

section
variable {s : State} {ch : EncCh} (counting : encCounting s = true)
include counting

theorem exec_positionRequest (abs : absolute s.enc[ch] = true) : exec (.positionRequest ch false) s =
    .next (updEnc (reach s ((s.enc[ch]).lastReq + (s.enc[ch]).cfg.reqPeriod * 1000)) ch fun y =>
      { y with lastReq := (reach s ((s.enc[ch]).lastReq + (s.enc[ch]).cfg.reqPeriod * 1000)).c
               request := some (reach s ((s.enc[ch]).lastReq + (s.enc[ch]).cfg.reqPeriod * 1000)).c }) :=
  if_pos (by rw [counting, abs]; rfl)

/-- The request of a channel without a word in time ends in a rejection. -/
theorem exec_startBitTimeout {c : Nat} (mode : (s.enc[ch]).cfg.mode = 3) (waits : (s.enc[ch]).request = some c) :
    exec (.startBitTimeout ch) s = .next (rejectWord (updEnc (reach s (c + 20000)) ch fun y => { y with request := none }) ch 4 3) := by
  simp only [exec, execStartBitTimeout, waits, counting, mode, beq_self_eq_true, Bool.and_self, if_true]

end

/-- The position of a BiSS-C word (R380). -/
def wordPos (x : Enc) (w : PosWord) : Int := (w.value % 2 ^ x.cfg.wordBits : Nat)

/-- A channel that takes a BiSS-C word (R380, R384). -/
def wordTaken (w : PosWord) (v : Int) (x : Enc) : Enc :=
  let y := { x with request := none, warn := !w.nW }
  if y.fault then acceptInFault y v else acceptWord y v

/-- A channel without a fault and without a position so far takes a word as its count. -/
theorem wordTaken_first {x : Enc} (sound : x.fault = false) (first : x.last = none) (steady : x.resume = false) (w : PosWord) (v : Int) :
    wordTaken w v x = { x with
      request := none, warn := !w.nW, count := BitVec.ofInt 32 v, last := some v, rejects := 0, resume := false } := by
  simp [wordTaken, acceptWord, sound, first, steady]

/-- What a requested BiSS-C word leaves (R380, R383). -/
def wordHeard (s : State) (ch : EncCh) (w : PosWord) : State :=
  let t := updEnc (advance s w.dt) ch fun y => { y with request := none }
  (wordCause t s.enc[ch] w (wordPos s.enc[ch] w)).elim (countEnc (advance s w.dt) ch (wordTaken w (wordPos s.enc[ch] w)))
    fun cause => rejectWord t ch cause 3

theorem exec_positionWord {s : State} {ch : EncCh} (counting : encCounting s = true) (mode : (s.enc[ch]).cfg.mode = 3)
    (waits : (s.enc[ch]).request.isSome = true) (w : PosWord) : exec (.positionWord ch w) s = .next (wordHeard s ch w) := by
  have goes : (encCounting s && absolute s.enc[ch] && (s.enc[ch]).request.isSome) = true := by
    rw [counting, waits, absolute, mode]; rfl
  have plain : ¬ ((s.enc[ch]).cfg.mode = 2 ∧ (s.enc[ch]).cfg.gray = true) := by omega
  simp only [exec, execPositionWord, goes, if_true, if_neg plain, if_pos mode, countEnc_updEnc, wordHeard, wordPos]
  generalize wordCause _ _ _ _ = cause
  cases cause <;> rfl

section
variable {x : Enc} {w : PosWord} (t : State) (v : Int)

theorem wordCause_badCrc (mode : x.cfg.mode = 3) (bad : w.crcOk = false) : wordCause t x w v = some 2 := if_pos ⟨mode, bad⟩

/-- A sound word is not compared with a position where there is none. -/
theorem wordCause_first (crc : w.crcOk = true) (error : w.nE = true) (first : x.last = none) : wordCause t x w v = none := by
  simp only [wordCause, crc, error, first, Bool.true_eq_false, and_false, if_false]

end

/-! ### Sin/cos samples (R381, R382) -/

/-- The position of a sample in a period (R382). -/
def samplePos (x : Enc) (per sn cs : Int) : Int := per * (2 ^ x.cfg.interp : Nat) + (sectorOf x.cfg.interp (corrected x sn cs) : Nat)

/-- The period of an accepted sample: that of the last one, moved by the quadrants between them (R382). -/
def samplePeriod (x : Enc) (sn cs : Int) : Int :=
  if x.last.isSome then x.periods + periodMove x.quad (gaussQuad (corrected x sn cs)) else x.periods

/-- A channel that takes a sample (R382, R384). -/
def sampleTaken (sn cs : Int) (x : Enc) : Enc :=
  let y := { x with quad := gaussQuad (corrected x sn cs), periods := samplePeriod x sn cs }
  if y.fault then acceptInFault y (samplePos x y.periods sn cs) else acceptSample y (samplePos x y.periods sn cs)

section
variable {s : State} {ch : EncCh} (counting : encCounting s = true) (mode : (s.enc[ch]).cfg.mode = 4) {sn cs : Int} (dt : Nat)
include counting mode

theorem exec_sincosSample_outside (outside : amplitudeOk s.enc[ch] (corrected s.enc[ch] sn cs) = false) :
    exec (.sincosSample ch sn cs dt) s = .next (rejectWord (advance s dt) ch 6 8) := by
  have goes : (encCounting (advance s dt) && (s.enc[ch]).cfg.mode == 4) = true := Bool.and_eq_true_iff.2 ⟨counting, beq_iff_eq.2 mode⟩
  simp only [exec, execSincosSample, advance_enc, goes, if_true, outside, Bool.not_false]

theorem exec_sincosSample_accepted (inside : amplitudeOk s.enc[ch] (corrected s.enc[ch] sn cs) = true)
    (near : (s.enc[ch]).last = none ∨ (gaussQuad (corrected s.enc[ch] sn cs) + 4 - (s.enc[ch]).quad) % 4 ≠ 2) :
    exec (.sincosSample ch sn cs dt) s = .next (countEnc (advance s dt) ch (sampleTaken sn cs)) := by
  have goes : (encCounting (advance s dt) && (s.enc[ch]).cfg.mode == 4) = true := Bool.and_eq_true_iff.2 ⟨counting, beq_iff_eq.2 mode⟩
  have close : ((s.enc[ch]).last.isSome && decide ((gaussQuad (corrected s.enc[ch] sn cs) + 4 - (s.enc[ch]).quad) % 4 = 2)) = false := by
    rcases near with h | h
    · rw [h]; rfl
    · rw [decide_eq_false h, Bool.and_false]
  simp only [exec, execSincosSample, advance_enc, goes, if_true, inside, Bool.not_true, Bool.false_eq_true, if_false, countEnc_updEnc]
  refine (if_neg (ne_of_eq_of_ne close Bool.false_ne_true)).trans (congrArg _ (countEnc_congr ?_))
  rfl

end

/-- A step of the position reads the configuration and the direction only. -/
theorem encStep_sample (x : Enc) (q : Nat) (per d : Int) :
    encStep { x with quad := q, periods := per } d = { encStep x d with quad := q, periods := per } := by
  unfold encStep
  dsimp only
  (repeat' split) <;> rfl

section
variable {x : Enc} (steady : x.resume = false) (pos : Int)
include steady

theorem acceptSample_first (first : x.last = none) : acceptSample x pos = { x with last := some pos, rejects := 0, resume := false } := by
  simp only [acceptSample, steady, first, Bool.false_eq_true, if_false]

theorem acceptSample_next {l : Int} (last : x.last = some l) :
    acceptSample x pos = { encStep x (pos - l) with last := some pos, rejects := 0, resume := false } := by
  simp only [acceptSample, steady, last, Bool.false_eq_true, if_false]

end

theorem sampleTaken_sound {x : Enc} (sound : x.fault = false) (sn cs : Int) : sampleTaken sn cs x =
    acceptSample { x with quad := gaussQuad (corrected x sn cs), periods := samplePeriod x sn cs }
      (samplePos x (samplePeriod x sn cs) sn cs) :=
  if_neg (by rw [sound]; exact Bool.false_ne_true)

/-! ### The statement -/

/-- Settles O46: each command is one update of its channel, a rejection or an accepted position. -/
theorem absoluteEncoders : Obligations.AbsoluteEncoders := by
  unfold Obligations.AbsoluteEncoders
  intro Moved Counts Pos
  refine ⟨fun ch s => exec_positionRequest, ?firstWord, ?badCrc, ?noStart, ?outside, ?firstSample, ?nextSample⟩
  case firstWord =>
    intro ch w s ⟨counting, mode⟩ waits crc error sound first steady
    have taken : wordHeard s ch w = countEnc (advance s w.dt) ch (wordTaken w (wordPos s.enc[ch] w)) := by
      rw [wordHeard, wordCause_first _ _ crc error first, Option.elim_none]
    refine ⟨_, (exec_positionWord counting mode waits w).trans (congrArg _ taken), countEnc_countsOnly .., ?_⟩
    rw [countEnc_same, advance_enc, wordTaken_first sound first steady]
    exact ⟨BitVec.ofInt_natCast .., rfl, rfl, rfl⟩
  case badCrc =>
    intro ch w s ⟨counting, mode⟩ waits bad sound
    have refused : wordHeard s ch w = rejectWord (updEnc (advance s w.dt) ch fun y => { y with request := none }) ch 2 3 := by
      rw [wordHeard, wordCause_badCrc _ _ mode bad, Option.elim_some]
    have waiting := updEnc_same (advance s w.dt) ch fun y => { y with request := none }
    obtain ⟨err, count, fault, alarm⟩ := rejectWord_sound (limit := 3) 2 ((congrArg Enc.fault waiting).trans sound)
    rw [waiting] at err count fault alarm
    exact ⟨_, (exec_positionWord counting mode waits w).trans (congrArg _ refused), err, count, fault.trans Nat.succ_le_succ_iff,
      fun more => alarm (Nat.succ_le_succ more)⟩
  case noStart =>
    intro ch c s ⟨counting, mode⟩ waits few
    refine ⟨_, exec_startBitTimeout counting mode waits, ?_⟩
    have counted : rejectWord (updEnc (reach s (c + 20000)) ch fun y => { y with request := none }) ch 4 3 = _ :=
      rejectWord_counts 4 (by rw [updEnc_same]; exact few.imp_right Nat.succ_lt_succ)
    rw [counted, updEnc_updEnc, updEnc_same]
    exact ⟨rfl, rfl, rfl, rfl⟩
  case outside =>
    intro ch sn cs dt s ⟨counting, mode⟩ few outside
    refine ⟨_, exec_sincosSample_outside counting mode dt outside, ?_⟩
    have counted : rejectWord (advance s dt) ch 6 8 = _ := rejectWord_counts 6 (few.imp_right Nat.succ_lt_succ)
    rw [counted, updEnc_same]
    exact ⟨rfl, rfl, rfl⟩
  case firstSample =>
    intro ch sn cs dt s ⟨counting, mode⟩ sound steady first inside
    refine ⟨_, exec_sincosSample_accepted counting mode dt inside (.inl first), countEnc_countsOnly .., ?_⟩
    rw [countEnc_same, advance_enc, sampleTaken_sound sound, acceptSample_first, samplePeriod, first]
    · exact ⟨rfl, rfl, rfl, rfl⟩
    · exact steady
    · exact first
  case nextSample =>
    intro ch sn cs l per dt s ⟨counting, mode⟩ sound steady last inside near period
    have moved : samplePeriod s.enc[ch] sn cs = per := by rw [samplePeriod, last, period]; rfl
    refine ⟨_, exec_sincosSample_accepted counting mode dt inside (.inr near), countEnc_countsOnly .., ?_⟩
    rw [countEnc_same, advance_enc, sampleTaken_sound sound, moved, acceptSample_next (l := l), encStep_sample]
    · exact ⟨rfl, rfl, rfl, rfl⟩
    · exact steady
    · exact last

end Sys2Proof.Machine
end

section
/-! Inputs, host levels, the calendar, its channels, the valve frames and the status pulses (O47). -/

namespace Sys2Proof.Machine

open Sys2Proof

/-! ### Inputs (R387) -/

/-- A state in which an input has changed and its edge is counted. -/
def edgeCounted (s : State) (n : Chan) (level : Bool) : State :=
  { s with iio := { s.iio with level := s.iio.level.set n level, edge := s.iio.edge.set n (incW s.iio.edge[n]) } }

theorem edgeCounted_level (s : State) (n : Chan) (level : Bool) : (edgeCounted s n level).iio.level[n] = level := by simp [edgeCounted]

theorem edgeCounted_edge (s : State) (n : Chan) (level : Bool) : (edgeCounted s n level).iio.edge[n] = incW s.iio.edge[n] := by
  simp [edgeCounted]

section
variable {s : State} {n : Chan} {lv : Bool} (run : running s = true) (input : (s.iio.cfg[n]).dir = 1) (changed : s.iio.level[n] ≠ lv) (dt : Nat)
include run input changed

theorem exec_inputEdge : exec (.inputEdge n lv dt) s = .next (if (s.iio.cfg[n]).record && intervalOpen (advance s dt)
    then recordEdge (edgeCounted (advance s dt) n lv) n lv else edgeCounted (advance s dt) n lv) := by
  have taken : (running (advance s dt) && (s.iio.cfg[n]).dir == 1 && s.iio.level[n] != lv) = true :=
    Bool.and_eq_true_iff.2 ⟨Bool.and_eq_true_iff.2 ⟨run, beq_iff_eq.2 input⟩, bne_iff_ne.2 changed⟩
  exact if_pos taken

end

theorem recordEdge_room {s : State} (room : s.iio.fifo.length < 4096) (n : Chan) (level : Bool) : recordEdge s n level =
    { s with iio := { s.iio with fifo := s.iio.fifo ++ [(n.val, level, timeT s, refCount s)] } } := if_pos room

/-- Records leave the inputs and outputs alone, but for the end of the alarm function. -/
theorem RecordsOnly.iio {s t : State} (h : RecordsOnly s t) : ∃ alarmEnd, t.iio = { s.iio with alarmEnd := alarmEnd } := by
  obtain ⟨_, _, _, _, _, _, _, _, _, _, _, rfl⟩ := h
  exact ⟨_, rfl⟩

/-- An edge that finds the FIFO full is lost, with its flag and its alarm. -/
theorem recordEdge_full {s : State} (full : 4096 ≤ s.iio.fifo.length) (n : Chan) (level : Bool) :
    (∃ alarmEnd, (recordEdge s n level).iio =
      { s.iio with lost := incW s.iio.lost, status := orW s.iio.status 1, alarmEnd := alarmEnd }) ∧
    Alarmed (recordEdge s n level).net 0x000C := by
  rw [recordEdge, if_neg (Nat.not_lt.2 full)]
  exact ⟨(raiseAlarm_recordsOnly ..).iio, raiseAlarm_alarmed ..⟩

/-! ### Host levels (R388) -/

theorem writeReg_of_secure {s : State} {x : Acc} {a : Nat} {v : Word} (mapped : (readReg s a).isSome = true)
    (acts : (dieReg a && dieBlocked s) = false) (unlocked : regLocked s a = false) (h : regAcc a = .rws) (world : x.secure = true)
    (used : notUsed a v = false) : writeReg s x a v = (writeRws s a v, 0) := by
  simp [writeReg, Option.isNone_eq_false_iff.2 mapped, acts, unlocked, h, world, used]

/-- A secure write of either half of IIO_HOST. -/
theorem writeReg_host {s : State} {x : Acc} {hi : Bool} (world : x.secure = true)
    (unlocked : regLocked s (if hi then 0x60414 else 0x60410) = false) (v : Word) :
    (writeReg s x (if hi then 0x60414 else 0x60410) v).1 = { s with iio := { s.iio with host := setHalf s.iio.host hi v } } := by
  cases hi <;> rw [writeReg_of_secure rfl rfl unlocked rfl world rfl] <;> rfl

/-! ### Channels of the calendar (R396) -/

/-- t is s with at most the ejector calendar written. -/
def EjcOnly (s t : State) : Prop := ∃ ejc, t = { s with ejc := ejc }

theorem EjcOnly.trans {s t u : State} (h : EjcOnly s t) (k : EjcOnly t u) : EjcOnly s u := by
  obtain ⟨_, rfl⟩ := h
  obtain ⟨ejc, rfl⟩ := k
  exact ⟨ejc, rfl⟩

/-- A transition does not ask for the channel. -/
theorem ejNext_request {x y : EjChan} {valve cut : Bool} {c : Nat} (h : ejNext x valve c = some (y, cut)) : y.request = x.request := by
  unfold ejNext at h
  (repeat' split at h) <;> simp only [Option.some.injEq, Prod.mk.injEq, reduceCtorEq] at h <;> rw [← h.1]

theorem ejSettle_request (n : Nat) (x : EjChan) (valve : Bool) (c cuts : Nat) : (ejSettle n x valve c cuts).1.request = x.request := by
  induction n generalizing x cuts with
  | zero => rfl
  | succ n ih =>
    rw [ejSettle]
    split
    next h => rw [ih, ejNext_request h]
    next => rfl

/-- A channel on past t_on_min that nothing requests holds off, and stays there for t_off_min. -/
theorem ejSettle_holdsOff {x : EjChan} {valve : Bool} {c : Nat} (on : x.state = .on) (idle : x.request = false)
    (past : x.since + limitNs valve x.onMin ≤ c) (rest : 0 < limitNs valve x.offMin) (n : Nat) :
    ejSettle (n + 2) x valve c 0 = ({ x with state := .holdoff, since := c }, 0) := by
  have leaves : ejNext x valve c = some ({ x with state := .holdoff, since := c }, false) := by simp [ejNext, on, idle, past]
  have stays : ejNext { x with state := .holdoff, since := c } valve c = none := if_neg (by show ¬ c + limitNs valve x.offMin ≤ c; omega)
  simp only [ejSettle, leaves, stays, Bool.false_eq_true, if_false]

theorem limitNs_valve_pos {us : Nat} (h : us ≠ 0) : 0 < limitNs true us := by
  have frames : 0 < (us + 2 - 1) / 2 := by omega
  exact Nat.mul_pos frames (by decide)

/-- What a channel has done marks entries only. -/
theorem markOn_frame (s : State) (valve : Bool) (n : Fin 1024) :
    ∃ entries, markOn s valve n = { s with ejc := { s.ejc with entries := entries } } ∧ (s.ejc.entries = [] → entries = []) := by
  unfold markOn
  split
  · exact ⟨_, rfl, fun vacant => by rw [vacant]; rfl⟩
  · exact ⟨s.ejc.entries, rfl, id⟩

theorem ejPut_valve (s : State) (n : Fin 1024) (x : EjChan) :
    ejPut s true n x = { s with ejc := { s.ejc with valve := s.ejc.valve.set n x } } := rfl

/-- The cut-offs of a channel by t_on_max are counted and flagged (R396). -/
def cutsCounted (s : State) (cuts : Nat) : State :=
  if cuts = 0 then s else { s with ejc := { s.ejc with limit := satInc s.ejc.limit cuts, status := orW s.ejc.status 2 } }

theorem evalChan_eq (s : State) (valve : Bool) (n : Fin 1024) : evalChan s valve n =
    markOn (cutsCounted (ejPut s valve n (ejSettle 4 (ejGet s valve n) valve s.c 0).1) (ejSettle 4 (ejGet s valve n) valve s.c 0).2) valve n := rfl

/-- A valve that settles without a cut-off. -/
theorem evalChan_valve {s : State} {n : Fin 1024} {x : EjChan} (settles : ejSettle 4 (s.ejc.valve[n]) true s.c 0 = (x, 0)) :
    ∃ entries, evalChan s true n = { s with ejc := { s.ejc with valve := s.ejc.valve.set n x, entries := entries } } := by
  obtain ⟨entries, marked, -⟩ := markOn_frame (ejPut s true n x) true n
  have settled : ejSettle 4 (ejGet s true n) true s.c 0 = (x, 0) := settles
  rw [evalChan_eq, settled, cutsCounted, if_pos rfl, marked]
  exact ⟨entries, rfl⟩

/-- C is past a deadline that passes, but for its 64 bits (R463). -/
theorem le_reach_c {s : State} {t : Nat} (now : s.c < 2 ^ 64) (due : t < 2 ^ 64) : t ≤ (reach s t).c := by
  have within : (reach s t).c = Nat.max s.c t := Nat.mod_eq_of_lt (Nat.max_lt.2 ⟨now, due⟩)
  rw [within]
  exact Nat.le_max_right ..

/-- The deadline of a valve that is on with no request and no t_on_max is that of t_on_min. -/
theorem exec_channelLimitExpiry_on {s : State} {n : Fin 1024} (active : calendarActive s = true) (on : (s.ejc.valve[n]).state = .on)
    (idle : (s.ejc.valve[n]).request = false) (unlimited : (s.ejc.valve[n]).onMax = 0) : exec (.channelLimitExpiry true n) s =
      .next (evalChan (reach s ((s.ejc.valve[n]).since + limitNs true (s.ejc.valve[n]).onMin)) true n) := by
  have deadline : ejDeadline (ejGet s true n) true = some ((s.ejc.valve[n]).since + limitNs true (s.ejc.valve[n]).onMin) := by
    simp only [ejGet, if_true, ejDeadline, on, idle, unlimited, Bool.false_eq_true, if_false]
  simp only [exec, execChannelLimitExpiry, deadline, active, if_true]

/-! ### A calendar with nothing in it (R395) -/

/-- t is s with a calendar that holds no entry and requests no direct output. -/
def CalendarIdle (s t : State) : Prop := EjcOnly s t ∧ t.ejc.entries = [] ∧ ∀ n : Fin 64, (t.ejc.direct[n]).request = false

theorem vUpd_getElem {α : Type} {k : Nat} (v : Vector α k) (i : Nat) (f : α → α) (m : Fin k) :
    (vUpd v i f)[m] = if i = m.val then f v[m] else v[m] := by
  unfold vUpd
  split
  next =>
    simp only [Fin.getElem_fin, Vector.getElem_set]
    grind
  next outside => rw [if_neg (by omega)]

theorem ejGet_direct (s : State) {n : Fin 1024} {m : Fin 64} (same : n.val = m.val) : ejGet s false n = s.ejc.direct[m] := by
  simp [ejGet, vGet?, same]

theorem setRequests_idle {s : State} (vacant : s.ejc.entries = []) : CalendarIdle s (setRequests s) := by
  unfold setRequests
  refine ⟨⟨_, rfl⟩, vacant, fun n => ?_⟩
  simp only [vacant, List.find?_nil, Fin.getElem_fin, Vector.getElem_ofFn]

section
variable {s t : State} (idle : CalendarIdle s t)
include idle

theorem CalendarIdle.markOn (valve : Bool) (n : Fin 1024) : CalendarIdle s (markOn t valve n) := by
  obtain ⟨only, vacant, requests⟩ := idle
  obtain ⟨entries, marked, empty⟩ := markOn_frame t valve n
  rw [marked]
  exact ⟨only.trans ⟨_, rfl⟩, empty vacant, requests⟩

theorem CalendarIdle.cutsCounted (cuts : Nat) : CalendarIdle s (cutsCounted t cuts) := by
  obtain ⟨only, vacant, requests⟩ := idle
  unfold Machine.cutsCounted
  split
  · exact ⟨only, vacant, requests⟩
  · exact ⟨only.trans ⟨_, rfl⟩, vacant, requests⟩

/-- A direct output that is not requested. -/
theorem CalendarIdle.ejPut (n : Fin 1024) {x : EjChan} (h : x.request = (ejGet t false n).request) : CalendarIdle s (ejPut t false n x) := by
  obtain ⟨only, vacant, requests⟩ := idle
  refine ⟨only.trans ⟨_, rfl⟩, vacant, fun m => ?_⟩
  have updated : (Machine.ejPut t false n x).ejc.direct[m] = if n.val = m.val then x else t.ejc.direct[m] := vUpd_getElem ..
  rw [updated]
  split
  next same => rw [h, ejGet_direct t same, requests m]
  next => exact requests m

theorem CalendarIdle.evalChan (n : Fin 1024) : CalendarIdle s (evalChan t false n) := by
  rw [evalChan_eq]
  exact ((idle.ejPut n (ejSettle_request ..)).cutsCounted _).markOn false n

end

/-- With nothing in the calendar no window opens. -/
theorem evalCalendar_idle {s : State} (sound : refFault s = false) (vacant : s.ejc.entries = []) : CalendarIdle s (evalCalendar s) := by
  have requests : CalendarIdle s (setRequests s) := setRequests_idle vacant
  have evaluated : evalCalendar s = directChans.foldl (fun s n => evalChan s false n)
      ((List.finRange 1024).foldl (fun s n => markOn s true n) (setRequests s)) := by
    have empty : { s with ejc := { s.ejc with entries := [] } } = s := by rw [← vacant]
    simp only [evalCalendar, sound, Bool.false_eq_true, if_false, vacant, List.foldl_nil, empty]
  rw [evaluated]
  exact List.foldlRecOn _ _ (List.foldlRecOn _ _ requests fun _ idle n _ => idle.markOn true n) fun _ idle n _ => idle.evalChan n

/-! ### Valve frames (R397, R399) -/

/-- What a link sends while the calendar is not active: its valves, all off. -/
def offFrame (s : State) (k : Nat) (l : Fin 4) : Nat × Nat × List Bool :=
  (k, l.val, frameBits k true ((linkChans l).map fun n => decide ((s.ejc.valve[n]).state = .on)))

/-- s with frames sent after those before (log entry 9). -/
def framesSent (s : State) (fs : List (Nat × Nat × List Bool)) : State := { s with ejc := { s.ejc with sent := s.ejc.sent ++ fs } }

theorem framesSent_framesSent (s : State) (fs gs : List (Nat × Nat × List Bool)) :
    framesSent (framesSent s fs) gs = framesSent s (fs ++ gs) := by
  simp only [framesSent, List.append_assoc]

theorem foldl_sendFrame_off {s : State} (off : calendarActive s = false) (k : Nat) (ls : List (Fin 4)) :
    ls.foldl (sendFrame k) s = framesSent s (ls.map (offFrame s k)) := by
  induction ls generalizing s with
  | nil => rw [List.map_nil, framesSent, List.append_nil]; rfl
  | cons l ls ih =>
    have sent : sendFrame k s l = framesSent s [offFrame s k l] := by
      simp only [sendFrame, off, Bool.false_eq_true, if_false, Bool.not_false, offFrame, framesSent]
    have rest := ih (s := framesSent s [offFrame s k l]) off
    rw [List.foldl_cons, sent, rest, framesSent_framesSent]
    rfl

theorem exec_valveFrame_off {s : State} (run : running s = true) (off : calendarActive s = false) : exec .valveFrame s =
    .next (framesSent { advance s (toFrame s) with ejc := { s.ejc with frame := (timeT s + toFrame s) / 2000 } }
      ((List.finRange 4).map (offFrame s ((timeT s + toFrame s) / 2000)))) := by
  have still : calendarActive (advance s (toFrame s)) = false := off
  have links : frameLinks (advance s (toFrame s)) = List.finRange 4 := by rw [frameLinks, still]; rfl
  simp only [exec, execValveFrame, run, if_true, links]
  exact congrArg _ (foldl_sendFrame_off (s := { advance s (toFrame s) with ejc := { s.ejc with frame := (timeT s + toFrame s) / 2000 } }) off _ _)

/-! ### The statement -/

/-- Settles O47: each command is one update of the inputs, the calendar, its channels or the frames that are sent. -/
theorem inputsAndOutputs : Obligations.InputsAndOutputs := by
  unfold Obligations.InputsAndOutputs
  refine ⟨?counted, ?recorded, ?host, ?window, ?limit, ?frame, ?pulse⟩
  case counted =>
    intro n lv dt s run input changed unrecorded
    rw [exec_inputEdge run input changed dt, if_neg]
    · rfl
    · rcases unrecorded with h | h <;> simp [h, -Fin.getElem_fin]
  case recorded =>
    intro n lv dt s run input changed record opened
    have taken := exec_inputEdge run input changed dt
    simp only [record, opened, Bool.and_self, if_true] at taken
    refine ⟨_, taken, ?_⟩
    rcases Nat.lt_or_ge s.iio.fifo.length 4096 with room | full
    · rw [recordEdge_room (s := edgeCounted (advance s dt) n lv) room]
      exact ⟨edgeCounted_edge _ n lv, edgeCounted_level _ n lv, fun _ => rfl, fun full => absurd room (Nat.not_lt.2 full)⟩
    · obtain ⟨⟨alarmEnd, iio⟩, alarmed⟩ := recordEdge_full (s := edgeCounted (advance s dt) n lv) full n lv
      rw [iio]
      exact ⟨edgeCounted_edge _ n lv, edgeCounted_level _ n lv, fun room => absurd room (Nat.not_lt.2 full),
        fun _ => ⟨rfl, rfl, bit_orW _ (by decide) (by decide), alarmed⟩⟩
  case host =>
    intro a hi v s run world unlocked
    have written := writeReg_host (s := dropCapture s a.who) world unlocked v
    exact congrArg Host.Outcome.next ((if_pos run).trans written)
  case window =>
    intro dt s active sound vacant
    obtain ⟨⟨ejc, evaluated⟩, entries, requests⟩ := evalCalendar_idle (s := advance s dt) sound vacant
    refine ⟨evalCalendar (advance s dt), congrArg _ (if_pos active), entries, ?_, ?_, ?_, requests⟩ <;> rw [evaluated] <;> rfl
  case limit =>
    intro n s active on idle unlimited rest now due
    have settles := ejSettle_holdsOff on idle (le_reach_c now due) (limitNs_valve_pos rest) 2
    obtain ⟨entries, evaluated⟩ := evalChan_valve (s := reach s ((s.ejc.valve[n]).since + limitNs true (s.ejc.valve[n]).onMin)) settles
    refine ⟨_, (exec_channelLimitExpiry_on active on idle unlimited).trans (congrArg _ evaluated), ?_, rfl, rfl⟩
    simp only [Fin.getElem_fin, Vector.getElem_set_self]
  case frame =>
    intro s run off
    exact ⟨_, exec_valveFrame_off run off, rfl, rfl, rfl, rfl, rfl⟩
  case pulse =>
    intro n s run output status
    have goes : (running s && (s.iio.cfg[n]).dir == 2 && (s.iio.cfg[n]).outSrc == 2) = true := by rw [run, output, status]; rfl
    exact if_pos goes

end Sys2Proof.Machine
end

section
/-! What records leave of retention memory and of the NVM, and reports of the supply. -/

namespace Sys2Proof.Machine

open Sys2Proof

/-- Records leave the rest of retention memory. -/
theorem RecordsOnly.retained {s t : State} (h : RecordsOnly s t) : t.ret.dump = s.ret.dump ∧ t.ret.intLog = s.ret.intLog := by
  obtain ⟨_, _, _, _, _, _, _, _, _, _, _, rfl⟩ := h
  exact ⟨rfl, rfl⟩

theorem RecordsOnly.nvm {s t : State} (h : RecordsOnly s t) : t.nvm = s.nvm := by
  obtain ⟨_, _, _, _, _, _, _, _, _, _, _, rfl⟩ := h
  rfl

theorem ReportsOnly.supply {s t : State} (h : ReportsOnly s t) : t.supply = s.supply ∧ t.c = s.c := by
  obtain ⟨_, _, _, _, _, _, _, _, _, _, _, _, _, _, _, rfl⟩ := h
  exact ⟨rfl, rfl⟩

end Sys2Proof.Machine
end

section
/-! Fencing and its escalation (O33): a soft reset, the test after it, and the isolation of a Wing whose soft reset did not complete. -/

namespace Sys2Proof.Machine

open Sys2Proof

section
variable {s : State} {p : PWing} (up : dieUp s = true)
include up

theorem exec_softResetComplete {c : Nat} (reset : (s.phys[p]).softReset = some c) (unclamped : (s.phys[p]).clamping = false) (inTime : s.c ≤ c + 10000) :
    exec (.softResetComplete p) s = .next (updPhys s p fun x => { x with softReset := none, bist := some { step := 2, until' := 5, diag := true } }) := by
  simp [exec, execSoftResetComplete, up, reset, unclamped, inTime, -Fin.getElem_fin]

theorem exec_softResetTimeout {c : Nat} (reset : (s.phys[p]).softReset = some c) (unclamped : (s.phys[p]).clamping = false) :
    exec (.softResetTimeout p) s = .next (updPhys (reach s (c + 10000)) p fun x => { x with clamping := true }) := by
  simp [exec, execSoftResetTimeout, up, reset, unclamped, -Fin.getElem_fin]

/-- The acknowledgement gates the Wing and reports it as retired (R428, R542). -/
theorem exec_isolationAck (clamping : (s.phys[p]).clamping = true) : ∃ r, exec (.isolationAck p) s = .next (addReport (updPhys s p fun x =>
    { x with softReset := none, clamping := false, gated := true, nextRole := some 6, rowsUsed := 0, colsUsed := 0, repairs := 0 }) r) := by
  have goes : (dieUp s && (s.phys[p]).clamping) = true := by rw [up, clamping]; rfl
  exact ⟨_, if_pos goes⟩

end

/-- Settles O33: a fence is one update of its Wing and a record, and each step after it one update of the same Wing. -/
theorem fencingEscalates : Obligations.FencingEscalates := by
  unfold Obligations.FencingEscalates
  refine ⟨fun s p a b => ?fence, fun p s c up => exec_softResetComplete up, fun p s c up => exec_softResetTimeout up, ?gate⟩
  case fence =>
    rw [isolate, (resetEvent_recordsOnly ..).phys]
    exact ⟨updPhys_same .., fun q other => updPhys_other _ _ _ q other⟩
  case gate =>
    intro p s up clamping
    obtain ⟨r, gated⟩ := exec_isolationAck up clamping
    exact ⟨_, gated, addReport_reportsOnly _ r⟩

end Sys2Proof.Machine
end

section
/-! Supply monitors and VDD_W setpoints (O36): a warning lists its rail, a recovery takes it off and may report the dip, and a setpoint
is taken or stops all further ones. -/

namespace Sys2Proof.Machine

open Sys2Proof

/-! ### Warnings (R434) -/

/-- The rail joins the low rails at the current C. -/
def railLow (s : State) (r : Rail) : State := { s with supply := { s.supply with low := s.supply.low ++ [(r, s.c)] } }

theorem exec_supplyWarning {r : Rail} {s : State} (mv : Nat) (new : ∀ x ∈ s.supply.low, x.1 ≠ r) :
    exec (.supplyWarning r mv) s = .next (if running s && !wingRail r then railEvent (railLow s r) r mv else railLow s r) := by
  have unlisted : ¬ (s.supply.low.any fun x => x.1 == r) = true := fun listed =>
    have ⟨x, mem, same⟩ := List.any_eq_true.1 listed
    new x mem (beq_iff_eq.1 same)
  exact if_neg unlisted

/-! ### Recoveries (R434, R435) -/

theorem exec_supplyRecover {r : Rail} {c : Nat} {s : State} (low : (r, c) ∈ s.supply.low) (mv us cy : Nat) :
    exec (.supplyRecover r mv us cy) s = .next (if running s && (wingRail r && !s.supply.down.contains r) then
      dipReport (advance (clearRail s r) 200) r mv us cy else advance (clearRail s r) 200) :=
  if_pos (List.any_eq_true.2 ⟨_, low, beq_self_eq_true r⟩)

theorem clearRail_notLow (s : State) (r : Rail) : ∀ x ∈ (clearRail s r).supply.low, x.1 ≠ r := fun _ mem =>
  bne_iff_ne.1 (List.mem_filter.1 mem).2

theorem clearRail_notDown (s : State) (r : Rail) : r ∉ (clearRail s r).supply.down := fun mem =>
  bne_iff_ne.1 (List.mem_filter.1 mem).2 rfl

/-- The integrity log keeps a report while it has room (R444). -/
theorem addReport_intLog {s : State} (room : s.ret.intLog.length < 512) (r : Report) :
    (addReport s r).ret.intLog = s.ret.intLog ++ [fillReport s r] := by
  have notFull : decide (512 ≤ s.ret.intLog.length) = false := decide_eq_false (Nat.not_le.2 room)
  rw [addReport, (logEvent_recordsOnly ..).retained.2, notFull]
  rfl

/-- The INT_DROOP registers and the flag of a dip that recovered (R435). -/
def droopCounted (s : State) (mv us : Nat) : State :=
  { s with int := { s.int with
      droopCnt := incW s.int.droopCnt, status := orW s.int.status 0x80
      droopMin := Nat.min s.int.droopMin (Nat.min 0xFFFF mv)
      droopLast := BitVec.ofNat 32 (Nat.min 0xFFFF mv + (Nat.min 0xFFFF us <<< 16)) } }

theorem dipReport_eq (s : State) (r : Rail) (mv us cy : Nat) : ∃ x, dipReport s r mv us cy = addReport (droopCounted s mv us) x :=
  ⟨_, rfl⟩

/-- A dip counts in the INT_DROOP registers and takes one report. -/
theorem dipReport_int (s : State) (r : Rail) (mv us cy : Nat) :
    let t := dipReport s r mv us cy
    t.int.droopCnt = incW s.int.droopCnt ∧ t.int.droopMin = Nat.min s.int.droopMin (Nat.min 0xFFFF mv) ∧
    bit t.int.status.toNat 7 = true ∧ t.int.reportSeq = (s.int.reportSeq + 1) % 2 ^ 32 := by
  intro t
  obtain ⟨x, report⟩ : ∃ x, t = addReport (droopCounted s mv us) x := dipReport_eq s r mv us cy
  have flag : bit (orW s.int.status 0x80).toNat 7 = true := bit_orW _ (by decide) (by decide)
  rw [report, addReport_int]
  refine ⟨rfl, rfl, ?_, rfl⟩
  dsimp only
  split
  · exact bit_orW_of_bit _ flag
  · exact flag

/-! ### Setpoints (R592, R593) -/

theorem exec_avsSetpointChange {mv : Nat} {s : State} (run : running s = true) (free : s.supply.stopped = false) (low : 600 ≤ mv)
    (high : mv ≤ 800) (answered : Bool) : exec (.avsSetpointChange mv answered) s = .next (if answered then
      { s with supply := { s.supply with setpoint := mv, change := some (s.supply.setpoint, s.c) } }
    else otherEvent { s with supply := { s.supply with stopped := true } } (leBytes 4 mv)) := by
  have goes : (running s && !s.supply.stopped && decide (600 ≤ mv ∧ mv ≤ 800)) = true := by
    rw [run, free, decide_eq_true ⟨low, high⟩]
    rfl
  cases answered
  all_goals exact if_pos goes

/-- Settles O36: a recovered dip is one report on the state 200 ns later, without its rail in the lists. -/
theorem supplyMonitors : Obligations.SupplyMonitors := by
  unfold Obligations.SupplyMonitors
  refine ⟨?wing, ?other, ?dip, ?recovers, ?setpoint, fun s => rfl⟩
  case wing =>
    intro r mv s new wing
    rw [exec_supplyWarning mv new, wing, Bool.not_true, Bool.and_false]
    rfl
  case other =>
    intro r mv s new run other
    refine ⟨_, exec_supplyWarning mv new, ?_⟩
    rw [run, other]
    exact logEvent_recordsOnly ..
  case dip =>
    intro r mv us cy c s low up wing run
    have recovered := exec_supplyRecover low mv us cy
    have goes : (running s && (wingRail r && !s.supply.down.contains r)) = true := by simp [run, wing, up]
    rw [if_pos goes] at recovered
    obtain ⟨x, report⟩ := dipReport_eq (advance (clearRail s r) 200) r mv us cy
    have reported := addReport_reportsOnly (droopCounted (advance (clearRail s r) 200) mv us) x
    obtain ⟨cnt, least, flag, seq⟩ := dipReport_int (advance (clearRail s r) 200) r mv us cy
    obtain ⟨phys, mem⟩ := reported.memory
    obtain ⟨supply, time⟩ := reported.supply
    have logged : s.ret.intLog.length < 512 → _ := fun room =>
      addReport_intLog (s := droopCounted (advance (clearRail s r) 200) mv us) room x
    rw [report] at recovered cnt least flag seq
    exact ⟨_, recovered, time, supply ▸ clearRail_notLow s r, cnt, least, flag, seq, fun room => ⟨_, logged room⟩, mem, phys⟩
  case recovers =>
    intro r mv us cy c s low other
    have recovered := exec_supplyRecover low mv us cy
    rw [other, Bool.false_and, Bool.and_false] at recovered
    exact ⟨_, recovered, rfl, rfl, clearRail_notDown s r⟩
  case setpoint =>
    intro mv s run free low high
    exact ⟨exec_avsSetpointChange run free low high true, _, exec_avsSetpointChange run free low high false, otherEvent_recordsOnly ..⟩

end Sys2Proof.Machine
end

section
/-! Clears and copies of the record logs (O56): a clear is followed by its own record, and the NVM log takes what its room allows. -/

namespace Sys2Proof.Machine

open Sys2Proof

/-! ### Clears (R444, R557) -/

/-- A record that the live log has room for is appended and takes the next number (R555). -/
theorem putRecord_room {s : State} (room : s.recd.live.length < 8192) (e : Ev) (again : Nat) :
    let t := putRecord s e again
    t.recd.live = s.recd.live ++ [mkRecord s e again] ∧ t.recd.lostCnt = s.recd.lostCnt ∧ t.ret.recSeq = (s.ret.recSeq + 1) % 2 ^ 32 := by
  simp only [putRecord, Nat.not_le.2 room, if_false, and_self]

section
variable {s : State} {a : Acc} (run : running s = true) (secure : a.secure = true)
include run secure

theorem exec_clearLive : exec (.clearLive a) s = .next (putRecord (emptyLive s) (clearedEvent 1 s.recd.live.length) 0) :=
  congrArg Host.Outcome.next (actionWrite_acts (die := false) run secure nofun fun s => recClear s 1)

theorem exec_clearNvm : exec (.clearNvm a) s = .next (putRecord (emptyNvm s) (clearedEvent 2 (0 + s.nvm.log.length)) 0) :=
  congrArg Host.Outcome.next (actionWrite_acts (die := false) run secure nofun fun s => recClear s 2)

theorem exec_clearDump : exec (.clearDump a) s =
    .next (putRecord { s with ret := { s.ret with dump := none } } (clearedEvent 4 0) 0) :=
  congrArg Host.Outcome.next (actionWrite_acts (die := false) run secure nofun fun s => recClear s 4)

theorem exec_integrityLogClear : exec (.integrityLogClear a) s = .next (intLogClear s) :=
  congrArg Host.Outcome.next (actionWrite_acts (die := false) run secure nofun intLogClear)

end

/-! ### The NVM log (R556) -/

/-- The newest records, not yet in the NVM log. -/
def unsaved (s : State) : List EventRec := s.ret.tail.drop (s.ret.tail.length - s.ret.tailNew)

theorem unsaved_length {s : State} (kept : s.ret.tailNew ≤ s.ret.tail.length) : (unsaved s).length = s.ret.tailNew := by
  rw [unsaved, List.length_drop]
  omega

theorem exec_nvmLogAppend_room {s : State} (run : running s = true) (new : 0 < s.ret.tailNew)
    (room : (unsaved s).length ≤ s.boot.nvmLog - s.nvm.log.length) :
    exec .nvmLogAppend s = .next { s with nvm := { s.nvm with log := s.nvm.log ++ unsaved s }, ret := { s.ret with tailNew := 0 } } := by
  have goes : (running s && decide (0 < s.ret.tailNew)) = true := by simp [run, new]
  have whole := List.take_of_length_le room
  have noneLost := Nat.sub_eq_zero_of_le room
  unfold unsaved at whole noneLost
  simp only [exec, execNvmLogAppend, goes, if_true, whole, noneLost, unsaved]

/-- The state after n records found the NVM log full, before any alarm. -/
def nvmOverflow (s : State) (n : Nat) : State :=
  { s with
    ret := { s.ret with tailNew := 0 }
    recd := { s.recd with lost := true, lostCnt := satInc s.recd.lostCnt n, nvmAlarm := true } }

theorem exec_nvmLogAppend_full {s : State} (run : running s = true) (some_unsaved : 0 < (unsaved s).length) (new : 0 < s.ret.tailNew)
    (full : s.nvm.log.length = s.boot.nvmLog) : exec .nvmLogAppend s =
      .next (if s.recd.nvmAlarm then nvmOverflow s (unsaved s).length else raiseAlarm (nvmOverflow s (unsaved s).length) 0x0103 0xFF 0xFF [1]) := by
  have goes : (running s && decide (0 < s.ret.tailNew)) = true := by simp [run, new]
  have lost : (unsaved s).length ≠ 0 := Nat.ne_of_gt some_unsaved
  unfold unsaved at lost
  simp only [exec, execNvmLogAppend, goes, if_true, full, Nat.sub_self, List.take_zero, List.append_nil, Nat.sub_zero, lost, if_false]
  cases s.recd.nvmAlarm <;> rfl

/-- Records were lost (R555, R556). -/
def RecordsLost (s : State) : Prop := s.recd.lost = true

theorem RecordsLost.ite {p : Prop} [Decidable p] {s t : State} (h : RecordsLost s) (k : RecordsLost t) : RecordsLost (if p then s else t) := by
  split <;> assumption

theorem alarmEntry_keeps_lost {s : State} (h : RecordsLost s) (code phys lwing : Nat) (arg : List Byte) :
    RecordsLost (alarmEntry s code phys lwing arg) := h

/-- Recording never takes back that records were lost. -/
theorem putRecord_keeps_lost {s : State} (h : RecordsLost s) (e : Ev) (n : Nat) : RecordsLost (putRecord s e n) := by
  unfold RecordsLost putRecord
  split
  · split <;> rfl
  · exact h

theorem logEvent_keeps_lost {s : State} (h : RecordsLost s) (e : Ev) : RecordsLost (logEvent s e) := by
  unfold logEvent
  refine .ite (.ite (putRecord_keeps_lost ?_ ..) h) (.ite h (putRecord_keeps_lost h ..))
  exact h

theorem raiseAlarm_keeps_lost {s : State} (h : RecordsLost s) (code phys lwing : Nat) (arg : List Byte) :
    RecordsLost (raiseAlarm s code phys lwing arg) :=
  logEvent_keeps_lost (alarmEntry_keeps_lost h ..) _

/-- Settles O56: a clear is the emptied state with one record, and an append depends on the room of the NVM log. -/
theorem recordLogs : Obligations.RecordLogs := by
  unfold Obligations.RecordLogs
  refine ⟨?live, ?nvm, ?dump, ?integrity, ?read, ?append, ?full, fun s run => if_pos run⟩
  case live =>
    intro a s run secure
    obtain ⟨live, lostCnt, -⟩ := putRecord_room (s := emptyLive s) (by decide : 0 < 8192) (clearedEvent 1 s.recd.live.length) 0
    have recorded := putRecord_recordsOnly (emptyLive s) (clearedEvent 1 s.recd.live.length) 0
    exact ⟨_, _, exec_clearLive run secure, live, rfl, lostCnt, recorded.nvm, recorded.retained.1⟩
  case nvm =>
    intro a s run secure
    have recorded := putRecord_recordsOnly (emptyNvm s) (clearedEvent 2 (0 + s.nvm.log.length)) 0
    refine ⟨_, exec_clearNvm run secure, recorded.nvm, recorded.retained.1, fun room => ?_⟩
    obtain ⟨live, -, seq⟩ := putRecord_room (s := emptyNvm s) room (clearedEvent 2 (0 + s.nvm.log.length)) 0
    exact ⟨_, live, rfl, rfl, seq⟩
  case dump =>
    intro a s run secure
    have recorded := putRecord_recordsOnly { s with ret := { s.ret with dump := none } } (clearedEvent 4 0) 0
    exact ⟨_, exec_clearDump run secure, recorded.retained.1, recorded.nvm, recorded.retained.2⟩
  case integrity =>
    intro a s run secure
    exact ⟨_, exec_integrityLogClear run secure, logEvent_recordsOnly ..⟩
  case read =>
    intro a g s run present
    have goes : (running s && (addressedRecord s).isSome) = true := by rw [run, present]; rfl
    exact if_pos goes
  case append =>
    intro s run new room kept
    refine exec_nvmLogAppend_room run new ?_
    rw [unsaved_length kept]
    omega
  case full =>
    intro s run new kept full
    have appended := exec_nvmLogAppend_full run (unsaved_length kept ▸ new) new full
    rw [unsaved_length kept] at appended
    cases alarmed : s.recd.nvmAlarm
    · rw [alarmed, if_neg Bool.false_ne_true] at appended
      have lost := raiseAlarm_keeps_lost (s := nvmOverflow s s.ret.tailNew) rfl 0x0103 0xFF 0xFF [1]
      exact ⟨_, appended, congrArg (·.log) (raiseAlarm_recordsOnly ..).nvm, lost, nofun, fun _ => raiseAlarm_alarmed ..⟩
    · rw [alarmed, if_pos rfl] at appended
      exact ⟨_, appended, rfl, rfl, fun _ => ⟨rfl, rfl⟩, nofun⟩

end Sys2Proof.Machine
end

section
/-! Each Wing in turn: what a fold over the Wings does to each of them, when a step changes the part of its own Wing only. -/

namespace Sys2Proof.Machine

open Sys2Proof

section
variable {β : Type} {f : State → PWing → State} (view : State → PWing → β) (R : PWing → β → β → Prop) (room : Nat → State → Prop)
  (uses : ∀ n s p, room (n + 1) s → room n (f s p)) (own : ∀ n s p, room (n + 1) s → R p (view s p) (view (f s p) p))
  (others : ∀ s p q, q ≠ p → view (f s p) q = view s q)
include uses own others

/-- Every Wing of the list takes its own step, from its part before the fold to its part after it. What a step may still use up, such as the
free places of a list, is room for the Wings left. -/
theorem foldl_each {l : List PWing} (once : l.Nodup) {s : State} (start : room l.length s) :
    (∀ p ∈ l, R p (view s p) (view (l.foldl f s) p)) ∧ ∀ p, p ∉ l → view (l.foldl f s) p = view s p := by
  induction l generalizing s with
  | nil => exact ⟨fun p mem => absurd mem List.not_mem_nil, fun p _ => rfl⟩
  | cons q l ih =>
    obtain ⟨notAgain, once⟩ := List.nodup_cons.1 once
    obtain ⟨listed, unlisted⟩ := ih once (uses _ s q start)
    refine ⟨fun p mem => ?_, fun p absent => ?_⟩
    · rcases List.mem_cons.1 mem with rfl | mem
      · rw [List.foldl_cons, unlisted p notAgain]
        exact own _ s p start
      · have other : p ≠ q := fun same => notAgain (same ▸ mem)
        rw [List.foldl_cons, ← others s q p other]
        exact listed p mem
    · obtain ⟨other, absent⟩ := not_or.1 (mt List.mem_cons.2 absent)
      rw [List.foldl_cons, unlisted p absent, others s q p other]

/-- The fold over all Wings. -/
theorem foldl_allP_each {s : State} (start : room 8 s) (p : PWing) : R p (view s p) (view (allP.foldl f s) p) :=
  (foldl_each view R room uses own others (List.nodup_finRange 8) start).1 p (List.mem_finRange p)

end

end Sys2Proof.Machine
end

section
/-! The fused repair (O35): the conditions of a burn in their order, and the entries of each Wing that its end programs. -/

namespace Sys2Proof.Machine

open Sys2Proof

/-! ### The request (R442, R455) -/

theorem exec_fuseBurn {a : Acc} {s : State} (run : running s = true) (free : dieBlocked s = false) (secure : a.secure = true) (mv mw : Nat) :
    exec (.fuseBurn a mv mw) s = .next (requestBurn s mv mw) :=
  congrArg Host.Outcome.next (actionWrite_acts run secure (fun _ => free) fun s => requestBurn s mv mw)

theorem repairFull_iff (s : State) : (allP.any fun p => decide (512 < s.fuse.repairUsed[p] + (s.phys[p]).repairs)) = true ↔
    ¬ ∀ p : Fin 8, s.fuse.repairUsed[p] + (s.phys[p]).repairs ≤ 512 := by
  simp [allP, -Fin.getElem_fin]

/-- The first condition that fails gives the reason. -/
theorem first_failing {α : Type} (f : Nat → Nat → α) (phase volts temp room : Prop) [Decidable phase] [Decidable volts] [Decidable temp]
    [Decidable room] :
    (if ¬ phase then f 3 1 else if ¬ volts then f 3 2 else if ¬ temp then f 3 3 else if ¬ room then f 3 4 else f 1 0) =
    f (if phase ∧ volts ∧ temp ∧ room then 1 else 3) (if ¬ phase then 1 else if ¬ volts then 2 else if ¬ temp then 3 else if room then 0 else 4) := by
  by_cases hp : phase
  case neg => simp [hp]
  case pos =>
    by_cases hv : volts
    case neg => simp [hp, hv]
    case pos => by_cases ht : temp <;> by_cases hr : room <;> simp [hp, hv, ht, hr]

/-! ### The end of a burn (R442) -/

/-- The used repair entries and the soft repairs of a Wing. -/
def repairsOf (s : State) (p : PWing) : Nat × Phys := (s.fuse.repairUsed[p], s.phys[p])

/-- A burn moves v soft repairs of a Wing to its used entries. -/
def Burned (v : Nat) (x y : Nat × Phys) : Prop := y = (x.1 + v, { x.2 with repairs := x.2.repairs - v })

/-- The entries of one Wing are programmed, v of them; a failed read-back also draws a free value. -/
theorem burnWing_eq (good : Bool) (s : State) (p : PWing) : ∃ v ctr, v ≤ (s.phys[p]).repairs ∧ (good = true → v = (s.phys[p]).repairs) ∧
    burnWing good s p = updPhys { s with
      freeCtr := ctr, fuse := { s.fuse with repairUsed := s.fuse.repairUsed.set p (s.fuse.repairUsed[p] + v) } } p
      fun x => { x with repairs := (s.phys[p]).repairs - v } := by
  cases good
  · exact ⟨(fresh s).1 % ((s.phys[p]).repairs + 1), s.freeCtr + 1, Nat.lt_succ_iff.1 (Nat.mod_lt _ (Nat.succ_pos _)), nofun, rfl⟩
  · exact ⟨(s.phys[p]).repairs, s.freeCtr, le_refl _, fun _ => rfl, rfl⟩

theorem burnWing_own (good : Bool) (s : State) (p : PWing) : ∃ v ≤ (repairsOf s p).2.repairs,
    (good = true → v = (repairsOf s p).2.repairs) ∧ Burned v (repairsOf s p) (repairsOf (burnWing good s p) p) := by
  obtain ⟨v, ctr, most, all, burned⟩ := burnWing_eq good s p
  refine ⟨v, most, all, ?_⟩
  simp [Burned, repairsOf, burned]

theorem burnWing_others (good : Bool) (s : State) (p q : PWing) (other : q ≠ p) : repairsOf (burnWing good s p) q = repairsOf s q := by
  obtain ⟨v, ctr, -, -, burned⟩ := burnWing_eq good s p
  have apart : (p : Nat) ≠ q := fun same => other (Fin.ext same.symm)
  simp [repairsOf, burned, Vector.getElem_set_ne, apart]

/-- Every Wing, after the burn ends. -/
theorem burnWings_each (good : Bool) (s : State) (p : PWing) : ∃ v ≤ (repairsOf s p).2.repairs,
    (good = true → v = (repairsOf s p).2.repairs) ∧ Burned v (repairsOf s p) (repairsOf (allP.foldl (burnWing good) s) p) :=
  foldl_allP_each repairsOf (fun _ x y => ∃ v ≤ x.2.repairs, (good = true → v = x.2.repairs) ∧ Burned v x y) (fun _ _ => True)
    (fun _ _ _ _ => trivial) (fun _ s p _ => burnWing_own good s p) (burnWing_others good) trivial p

theorem burnWings_frame (good : Bool) (s : State) : ∃ ctr fuse phys,
    allP.foldl (burnWing good) s = { s with freeCtr := ctr, fuse := fuse, phys := phys } := by
  refine List.foldlRecOn (motive := fun t => ∃ ctr fuse phys, t = { s with freeCtr := ctr, fuse := fuse, phys := phys }) allP _
    ⟨s.freeCtr, s.fuse, s.phys, rfl⟩ ?_
  rintro _ ⟨_, _, _, rfl⟩ p -
  obtain ⟨v, ctr, -, -, burned⟩ := burnWing_eq good _ p
  exact ⟨_, _, _, burned⟩

/-- The state after a burn that ends. -/
def burnEnded (s : State) (good : Bool) : State :=
  { allP.foldl (burnWing good) s with
    tst := { (allP.foldl (burnWing good) s).tst with fuseState := if good then 2 else 3, fuseReason := if good then 0 else 5 } }

theorem exec_fuseBurnComplete {s : State} (burning : s.tst.fuseState = 1) (good : Bool) :
    exec (.fuseBurnComplete good) s = .next (burnEnded s good) := if_pos burning

theorem burnEnded_frame (s : State) (good : Bool) :
    (burnEnded s good).tst = { s.tst with fuseState := if good then 2 else 3, fuseReason := if good then 0 else 5 } ∧
    (burnEnded s good).mem = s.mem ∧ (burnEnded s good).sec = s.sec ∧ (burnEnded s good).c = s.c := by
  obtain ⟨ctr, fuse, phys, burned⟩ := burnWings_frame good s
  rw [burnEnded, burned]
  exact ⟨rfl, rfl, rfl, rfl⟩

/-- A burn that ends moves entries of each Wing from its soft repairs to its used ones. -/
theorem burnEnded_each (s : State) (good : Bool) (p : PWing) : ∃ v ≤ (s.phys[p]).repairs, (good = true → v = (s.phys[p]).repairs) ∧
    (burnEnded s good).fuse.repairUsed[p] = s.fuse.repairUsed[p] + v ∧
    (burnEnded s good).phys[p] = { s.phys[p] with repairs := (s.phys[p]).repairs - v } := by
  obtain ⟨v, most, all, burned⟩ := burnWings_each good s p
  obtain ⟨used, soft⟩ := Prod.mk.inj burned
  exact ⟨v, most, all, used, soft⟩

/-- Settles O35: the conditions decide a request in their order, and a burn that ends moves soft repairs of each Wing to its entries. -/
theorem fuseRepair : Obligations.FuseRepair := by
  unfold Obligations.FuseRepair
  refine ⟨?request, ?good, ?failed⟩
  case request =>
    intro a mv mw s run free secure idle
    rw [exec_fuseBurn run free secure, requestBurn, if_neg idle]
    simp only [repairFull_iff]
    exact congrArg Host.Outcome.next (first_failing
      (fun state reason => { s with tst := { s.tst with fuseState := state, fuseReason := reason } })
      (s.sec.phase = 7 ∨ s.sec.phase = 2) (1750 ≤ mv ∧ mv ≤ 1850 ∧ 735 ≤ mw ∧ mw ≤ 765) (0 ≤ s.therm.tj ∧ s.therm.tj ≤ 680)
      (∀ p : Fin 8, s.fuse.repairUsed[p] + (s.phys[p]).repairs ≤ 512))
  case good =>
    intro s burning
    obtain ⟨tst, frame⟩ := burnEnded_frame s true
    refine ⟨_, exec_fuseBurnComplete burning true, tst, fun p => ?_, frame⟩
    obtain ⟨v, -, all, used, soft⟩ := burnEnded_each s true p
    rw [all rfl] at used soft
    exact ⟨used, soft.trans (by rw [Nat.sub_self])⟩
  case failed =>
    intro s burning
    refine ⟨_, exec_fuseBurnComplete burning false, (burnEnded_frame s false).1, fun p => ?_⟩
    obtain ⟨v, most, -, used, soft⟩ := burnEnded_each s false p
    rw [used, soft]
    exact ⟨Nat.le_add_right .., by dsimp only; omega⟩

end Sys2Proof.Machine
end

section
/-! The start-up test (O18): what a test leaves of each Wing, and the three ways in which it can end. -/

namespace Sys2Proof.Machine

open Sys2Proof

/-! ### The test of one Wing (R506) -/

/-- The result that a Wing shows (R456). -/
def shownResult : WingTest → Nat
  | .pass => 1
  | .repaired _ _ => 2
  | .memory => 3
  | .logic => 4
  | .checker => 5

theorem markDefective_eq (s : State) (p : PWing) :
    markDefective s p = updPhys s p fun x => { x with role := if p.val ∈ s.fuse.defects then 6 else x.role } := by
  unfold markDefective
  split
  next listed => simp only [List.contains_iff_mem.1 listed, if_true]
  next unlisted => exact (updPhys_fixed (by rw [if_neg (mt List.contains_iff_mem.2 unlisted)])).symm

/-- The fused defect list after Wing p joins it. -/
def withDefect (l : List Nat) (p : PWing) : List Nat := if l.contains p.val ∨ 64 ≤ l.length then l else l ++ [p.val]

theorem addDefect_eq (s : State) (p : PWing) :
    addDefect s p = { s with fuse := { s.fuse with defects := withDefect s.fuse.defects p } } := by
  unfold addDefect withDefect
  split <;> rfl

theorem mem_withDefect {l : List Nat} (room : l.length < 64) (p : PWing) : p.val ∈ withDefect l p := by
  unfold withDefect
  split
  next listed => exact List.contains_iff_mem.1 (listed.resolve_right (Nat.not_le.2 room))
  next => exact List.mem_append_right _ (List.mem_singleton_self _)

theorem mem_withDefect_other (l : List Nat) {p q : PWing} (other : q ≠ p) : q.val ∈ withDefect l p ↔ q.val ∈ l := by
  have apart : q.val ≠ p.val := fun same => other (Fin.ext same)
  unfold withDefect
  split <;> simp [apart]

theorem withDefect_length (l : List Nat) (p : PWing) : (withDefect l p).length ≤ l.length + 1 := by
  unfold withDefect
  split <;> simp

/-- A Wing with its repairs, of which some are still soft. -/
def softRepaired (rows cols soft : Nat) (x : Phys) : Phys :=
  { x with rowsUsed := Nat.min 255 rows, colsUsed := Nat.min 255 cols, repairs := soft, bistResult := 2 }

section
variable (u : StartTest) (s : State) (p : PWing)

/-- The soft repairs of a Wing touch the Wing, its fuse entries and a flag; its role stays. -/
theorem repairWing_eq (rows cols : Nat) (burn : Bool) : ∃ f used, repairWing s p rows cols burn = updPhys { s with
      fuse := { s.fuse with repairUsed := used }, int := { s.int with status := orW s.int.status 0x200 } } p f ∧
    ∀ x, (f x).bistResult = 2 ∧ (f x).role = x.role := by
  have burned := updPhys_updPhys
    { s with
      fuse := { s.fuse with repairUsed := s.fuse.repairUsed.set p (s.fuse.repairUsed[p] + (rows + cols)) }
      int := { s.int with status := orW s.int.status 0x200 } }
    p (softRepaired rows cols (rows + cols)) fun x => { x with repairs := 0 }
  unfold repairWing
  dsimp only
  split
  · exact ⟨softRepaired rows cols 0, _, burned, fun _ => ⟨rfl, rfl⟩⟩
  · exact ⟨softRepaired rows cols (rows + cols), s.fuse.repairUsed, rfl, fun _ => ⟨rfl, rfl⟩⟩

/-- The defect list after the test of a Wing that is not fused off. -/
def defectsAfter : List Nat := if wingFails u p then withDefect s.fuse.defects p else s.fuse.defects

theorem testResult_eq : ∃ f used int, testResult u s p =
    updPhys { s with fuse := { s.fuse with repairUsed := used, defects := defectsAfter u s p }, int := int } p f ∧
    ∀ x, (f x).bistResult = shownResult (u.wings.getD p .pass) ∧ (f x).role = if wingFails u p then 6 else x.role := by
  unfold testResult defectsAfter wingFails
  cases u.wings.getD p .pass with
  | pass => exact ⟨_, s.fuse.repairUsed, s.int, rfl, fun _ => ⟨rfl, rfl⟩⟩
  | repaired rows cols =>
    obtain ⟨f, used, repaired⟩ := repairWing_eq s p rows cols (u.fuseOk && burnLimits s u.mvIo18 u.mvA)
    exact ⟨f, used, _, repaired⟩
  | checker | memory | logic =>
    simp only [addDefect_eq]
    exact ⟨_, s.fuse.repairUsed, s.int, rfl, fun _ => ⟨rfl, rfl⟩⟩

/-- The test of a Wing that is not fused off. -/
theorem testWing_eq (role : (s.phys[p]).role ≠ 7) : ∃ f used int, testWing u s p =
    updPhys { s with fuse := { s.fuse with repairUsed := used, defects := defectsAfter u s p }, int := int } p f ∧
    ∀ x, (f x).bistResult = shownResult (u.wings.getD p .pass) ∧
      (f x).role = if p.val ∈ defectsAfter u s p then 6 else if wingFails u p then 6 else x.role := by
  obtain ⟨f, used, int, tested, result⟩ := testResult_eq u s p
  rw [testWing, if_neg role, tested, markDefective_eq, updPhys_updPhys]
  exact ⟨_, used, int, rfl, fun x => ⟨(result x).1, by rw [← (result x).2]; rfl⟩⟩

theorem testWing_of_fusedOff (role : (s.phys[p]).role = 7) : testWing u s p = s := if_pos role

/-- A Wing that passes burns nothing. -/
theorem testWing_pass_fuse (pass : u.wings.getD p .pass = .pass) : (testWing u s p).fuse = s.fuse := by
  unfold testWing testResult
  rw [pass]
  split
  · rfl
  · rw [markDefective_eq]
    rfl

end

/-! ### All Wings (R506) -/

/-- A Wing, and whether the fused defect list holds it. -/
def testView (s : State) (p : PWing) : Phys × Bool := (s.phys[p], decide (p.val ∈ s.fuse.defects))

/-- A fused-off Wing is as it was; another shows its result, is listed if it failed, and has role 6 if it is listed. -/
def TestedAs (u : StartTest) (p : PWing) (x y : Phys × Bool) : Prop :=
  (x.1.role = 7 → y = x) ∧ (x.1.role ≠ 7 → y.1.bistResult = shownResult (u.wings.getD p .pass) ∧
    y.2 = (x.2 || wingFails u p) ∧ y.1.role = if y.2 then 6 else x.1.role)

section
variable {u : StartTest} {s t : State} {p : PWing} (h : TestedAs u p (testView s p) (testView t p))
include h

theorem TestedAs.fusedOff (role : (s.phys[p]).role = 7) : t.phys[p] = s.phys[p] := congrArg Prod.fst (h.1 role)

theorem TestedAs.sound (role : (s.phys[p]).role ≠ 7) (sound : wingFails u p = false) :
    (t.phys[p]).bistResult = shownResult (u.wings.getD p .pass) ∧
    (t.phys[p]).role = if p.val ∈ s.fuse.defects then 6 else (s.phys[p]).role := by
  obtain ⟨shown, listed, roleAfter⟩ := h.2 role
  rw [listed, sound, Bool.or_false] at roleAfter
  exact ⟨shown, by simpa only [testView, decide_eq_true_eq] using roleAfter⟩

theorem TestedAs.failed (role : (s.phys[p]).role ≠ 7) (fails : wingFails u p = true) :
    (t.phys[p]).bistResult = shownResult (u.wings.getD p .pass) ∧ (t.phys[p]).role = 6 ∧ p.val ∈ t.fuse.defects := by
  obtain ⟨shown, listed, roleAfter⟩ := h.2 role
  rw [fails, Bool.or_true] at listed
  rw [listed, if_pos rfl] at roleAfter
  exact ⟨shown, roleAfter, of_decide_eq_true listed⟩

end

/-- If a Wing fails, the defect list has room for n more. -/
def DefectRoom (u : StartTest) (n : Nat) (s : State) : Prop := ∀ p, wingFails u p = true → s.fuse.defects.length + n ≤ 64

section
variable (u : StartTest)

theorem testWing_defectRoom (n : Nat) (s : State) (p : PWing) (room : DefectRoom u (n + 1) s) : DefectRoom u n (testWing u s p) := by
  intro q fails
  have before := room q fails
  by_cases role : (s.phys[p]).role = 7
  · rw [testWing_of_fusedOff u s p role]
    omega
  · obtain ⟨f, used, int, tested, -⟩ := testWing_eq u s p role
    have longer : (defectsAfter u s p).length ≤ s.fuse.defects.length + 1 := by
      unfold defectsAfter
      split
      · exact withDefect_length ..
      · omega
    rw [tested]
    show (defectsAfter u s p).length + n ≤ 64
    omega

theorem testWing_own (n : Nat) (s : State) (p : PWing) (room : DefectRoom u (n + 1) s) :
    TestedAs u p (testView s p) (testView (testWing u s p) p) := by
  refine ⟨fun role => by rw [testWing_of_fusedOff u s p role], fun role => ?_⟩
  obtain ⟨f, used, int, tested, result⟩ := testWing_eq u s p role
  obtain ⟨shown, roleAfter⟩ := result (s.phys[p])
  have listed : (p.val ∈ defectsAfter u s p) ↔ p.val ∈ s.fuse.defects ∨ wingFails u p = true := by
    unfold defectsAfter
    split
    next fails =>
      have before := room p fails
      simp [mem_withDefect (l := s.fuse.defects) (by omega) p, fails]
    next sound => simp [sound]
  have view : testView (testWing u s p) p = (f s.phys[p], decide (p.val ∈ defectsAfter u s p)) := by
    rw [testView, tested, updPhys_same]
    rfl
  rw [view]
  refine ⟨shown, by simp [testView, listed], ?_⟩
  rw [roleAfter]
  by_cases fails : wingFails u p = true
  · simp [listed, fails]
  · simp [fails, testView]

theorem testWing_others (s : State) (p q : PWing) (other : q ≠ p) : testView (testWing u s p) q = testView s q := by
  by_cases role : (s.phys[p]).role = 7
  · rw [testWing_of_fusedOff u s p role]
  · obtain ⟨f, used, int, tested, -⟩ := testWing_eq u s p role
    have listed : (q.val ∈ defectsAfter u s p) ↔ q.val ∈ s.fuse.defects := by
      unfold defectsAfter
      split
      · exact mem_withDefect_other _ other
      · rfl
    rw [testView, tested, updPhys_other _ _ _ q other]
    simp [testView, listed]

/-- The state after the tests of all Wings. -/
def wingsTested (s : State) : State := allP.foldl (testWing u) s

theorem wingsTested_each {s : State} (room : DefectRoom u 8 s) (p : PWing) : TestedAs u p (testView s p) (testView (wingsTested u s) p) :=
  foldl_allP_each testView (TestedAs u) (DefectRoom u) (testWing_defectRoom u) (testWing_own u) (testWing_others u) room p

theorem testWing_c (s : State) (p : PWing) : (testWing u s p).c = s.c := by
  by_cases role : (s.phys[p]).role = 7
  · rw [testWing_of_fusedOff u s p role]
  · obtain ⟨f, used, int, tested, -⟩ := testWing_eq u s p role
    rw [tested, updPhys_c]

theorem wingsTested_c (s : State) : (wingsTested u s).c = s.c :=
  List.foldlRecOn (motive := fun t : State => t.c = s.c) allP _ rfl fun t same p _ => (testWing_c u t p).trans same

theorem wingsTested_fuse {u : StartTest} (pass : ∀ p : PWing, u.wings.getD p .pass = .pass) (s : State) : (wingsTested u s).fuse = s.fuse :=
  List.foldlRecOn (motive := fun t => t.fuse = s.fuse) allP _ rfl fun t same p _ => (testWing_pass_fuse u t p (pass p)).trans same

end

/-! ### The end of the test (R496, R506) -/

theorem enterHold_reason (w : State) (reason : Nat) : (enterHold w reason).sec.phase = 7 ∧ (enterHold w reason).sec.reason = reason := by
  obtain ⟨sec, -⟩ := enterHold_frame w reason 0xFF 0xFF 0
  rw [sec]
  exact ⟨rfl, rfl⟩

/-- Phase 3, with the failing pages remapped. -/
def testDone (w : State) (pages : Nat) : State :=
  { w with mem := { w.mem with remap := BitVec.ofNat 32 pages }, sec := { w.sec with phase := 3 } }

theorem testDone_fuse (w : State) (pages : Nat) : (testDone w pages).fuse = w.fuse := rfl
theorem testDone_c (w : State) (pages : Nat) : (testDone w pages).c = w.c := rfl
theorem testView_testDone (w : State) (pages : Nat) (p : PWing) : testView (testDone w pages) p = testView w p := rfl

/-- With room in the list, no failing Wing is left out of it. -/
theorem failing_listed {u : StartTest} {s : State} (room : DefectRoom u 8 s) :
    (allP.filter fun p => (s.phys[p]).role != 7 && wingFails u p).find?
      (fun p => !(wingsTested u s).fuse.defects.contains p.val) = none := by
  rw [List.find?_eq_none]
  intro p bad
  obtain ⟨role, fails⟩ := Bool.and_eq_true_iff.1 (List.mem_filter.1 bad).2
  obtain ⟨-, -, listed⟩ := (wingsTested_each u room p).failed (bne_iff_ne.1 role) fails
  simp [listed]

section
variable {u : StartTest} {s : State} (run : running s = true) (phase : s.sec.phase = 2)
include run phase

theorem exec_startupTest_dramFails (pages : 256 < u.pages) :
    exec (.startupTestComplete u) s = .next (enterHold (wingsTested u s) 0x08) := by
  simp only [exec, execStartupTestComplete, run, phase, pages, beq_self_eq_true, Bool.and_self, if_true, wingsTested]

section
variable (pages : u.pages ≤ 256) (room : DefectRoom u 8 s)
include pages room

theorem exec_startupTest_passes (fuseOk : u.fuseOk = true) :
    exec (.startupTestComplete u) s = .next (testDone (wingsTested u s) u.pages) := by
  have listed := failing_listed room
  unfold wingsTested at listed
  simp only [exec, execStartupTestComplete, run, phase, Nat.not_lt.2 pages, listed, fuseOk, beq_self_eq_true, Bool.and_self, Bool.not_true,
    Bool.false_eq_true, if_true, if_false, wingsTested]
  rfl

theorem exec_startupTest_unread (fuseOk : u.fuseOk = false) :
    exec (.startupTestComplete u) s = .next (enterHold (wingsTested u s) 0x0D) := by
  have listed := failing_listed room
  unfold wingsTested at listed
  simp only [exec, execStartupTestComplete, run, phase, Nat.not_lt.2 pages, listed, fuseOk, beq_self_eq_true, Bool.and_self, Bool.not_false,
    if_true, if_false, wingsTested]

end

end

/-- A test in which every Wing passes. -/
def allPass (pages mv mw : Nat) (fuseOk : Bool) : StartTest := { wings := [], pages := pages, mvIo18 := mv, mvA := mw, fuseOk := fuseOk }

/-- Settles O18: each Wing is tested as it stood, since no test touches another Wing, and the list has room for all. -/
theorem startupTest : Obligations.StartupTest := by
  unfold Obligations.StartupTest
  refine ⟨?all, ?pass, ?pages, ?fuses⟩
  case all =>
    intro u s run phase pages fuseOk free
    have room : DefectRoom u 8 s := fun _ _ => free
    refine ⟨_, exec_startupTest_passes run phase pages room fuseOk, rfl, rfl, fun p => ?_⟩
    have tested : TestedAs u p (testView s p) (testView (testDone (wingsTested u s) u.pages) p) := by
      rw [testView_testDone]
      exact wingsTested_each u room p
    refine ⟨tested.fusedOff, fun role => ?_⟩
    have sound := tested.sound role
    have failed := tested.failed role
    unfold wingFails at sound failed
    cases result : u.wings.getD p .pass with
    | pass | repaired =>
      rw [result] at sound
      exact sound rfl
    | checker | memory | logic =>
      rw [result] at failed
      exact failed rfl
  case pass =>
    intro n mv mw s run phase pages
    have room : DefectRoom (allPass n mv mw true) 8 s := nofun
    have fuse : (wingsTested (allPass n mv mw true) s).fuse = s.fuse := wingsTested_fuse (fun _ => rfl) s
    refine ⟨_, exec_startupTest_passes run phase pages room rfl, rfl, rfl, (testDone_fuse ..).trans fuse,
      (testDone_c ..).trans (wingsTested_c _ s), fun p role => ?_⟩
    have tested : TestedAs (allPass n mv mw true) p (testView s p) (testView (testDone (wingsTested (allPass n mv mw true) s) n) p) := by
      rw [testView_testDone]
      exact wingsTested_each _ room p
    exact tested.sound role rfl
  case pages =>
    intro u s run phase pages
    exact ⟨_, exec_startupTest_dramFails run phase pages, enterHold_reason ..⟩
  case fuses =>
    intro n mv mw s run phase pages
    have room : DefectRoom (allPass n mv mw false) 8 s := nofun
    exact ⟨_, exec_startupTest_unread run phase pages room rfl, enterHold_reason ..⟩

end Sys2Proof.Machine
end

section
/-! The counter C and the network time T (O2, O4, O6, O10): what keeps C below 2^64, and T as floor division. -/

namespace Sys2Proof.Machine

open Sys2Proof

/-- A step keeps C below 2^64: a command by exec_answers, and an idle nanosecond counts modulo 2^64. -/
theorem step_timeBounded {s t : State} (bounded : TimeBounded s) (h : step s = .next t) : TimeBounded t := by
  unfold step at h
  split at h
  · cases h
    exact Nat.mod_lt _ (Nat.two_pow_pos 64)
  next i rest _ =>
    obtain ⟨u, hu, -, -, keeps⟩ := exec_answers i { s with pending := rest }
    cases h.symm.trans hu
    exact keeps bounded

/-- Settles O4: each step keeps the bound. -/
theorem stepKeepsTime : Obligations.StepKeepsTime := fun _ _ => step_timeBounded

theorem step_of_empty {s : State} (empty : s.pending = []) : step s = .next (idle s) := by rw [step, empty]

/-- Settles O2: with no command at the front, the step is the idle one. -/
theorem emptyQueueTicks : Obligations.EmptyQueueTicks := fun _ => step_of_empty

/-- Settles O6: the memories are those of reset_memories_wf, and the rest is the fresh state's. -/
theorem resetMeetsInvariants : Obligations.ResetMeetsInvariants := by
  obtain ⟨dram, mbox, wings⟩ := reset_memories_wf
  exact ⟨Nat.two_pow_pos 64, .refl _, dram, wings, mbox, rfl⟩

/-- T in integers; the divisor is positive, so that the model's quotient is the floor. -/
theorem timeT_eq (s : State) :
    (timeT s : Int) = (s.reg.o + ((s.c : Int) - s.reg.ck) + Int.fdiv (s.reg.a * ((s.c : Int) - s.reg.ck)) (2 ^ 40)) % 2 ^ 64 := by
  rw [timeT, Int.toNat_of_nonneg (Int.emod_nonneg _ (by decide)), Int.fdiv_eq_ediv_of_nonneg _ (by decide)]

/-- Settles O10: the formula, and its value where every parameter is 0. -/
theorem counterTime : Obligations.CounterTime := by
  refine ⟨timeT_eq, fun s small rate base offset => Int.ofNat_inj.1 ?_⟩
  calc (timeT s : Int) = (s.c : Int) % 2 ^ 64 := by rw [timeT_eq, rate, base, offset]; simp
    _ = s.c := Int.emod_eq_of_lt (Int.natCast_nonneg _) (by exact_mod_cast small)

end Sys2Proof.Machine
end

section
/-! Phase 0 (O16): what leaves reset, where the boot ROM halts, and what an accepted copy with or without a verified configuration does. -/

namespace Sys2Proof.Machine

open Sys2Proof

/-! ### What leaves reset (R495, R594, R600) -/

section
variable {s : State}

/-- Nothing else holds the device (R495). -/
theorem mayBoot_of (porst : s.pins.porst = true) (low : s.supply.low = []) (down : s.supply.down = []) (hot : s.pwr.hot = false) :
    mayBoot s = true := by
  simp only [mayBoot, porst, low, down, hot, List.isEmpty_nil, Bool.not_false, Bool.and_self]

theorem exec_porstNRelease (porst : s.pins.porst = false) (low : s.supply.low = []) (down : s.supply.down = []) (hot : s.pwr.hot = false) :
    exec .porstNRelease s = .next (boot { s with pins := { s.pins with porst := true } }) := by
  have free : mayBoot { s with pins := { s.pins with porst := true } } = true := mayBoot_of rfl low down hot
  simp only [exec, execPorstNRelease, porst, free, Bool.false_eq_true, if_false, if_true]

theorem exec_railsInRange_boots (porst : s.pins.porst = true) (held : s.pwr.held = true) (hot : s.pwr.hot = false) :
    exec .railsInRange s = .next (boot { s with supply := { s.supply with low := [], down := [] } }) := by
  have free : mayBoot { s with supply := { s.supply with low := [], down := [] } } = true := mayBoot_of porst rfl rfl hot
  simp only [exec, execRailsInRange, held, free, Bool.and_self, if_true]

/-- The state of a device that has cooled (R600). -/
def cooled (s : State) (tj : Int) : State :=
  { s with therm := { s.therm with tj := tj }, pins := { s.pins with thermLow := false }, pwr := { s.pwr with hot := false } }

theorem exec_thermalRecover_boots {tj : Int} (cool : tj ≤ tjMax s - 40) (porst : s.pins.porst = true) (held : s.pwr.held = true)
    (low : s.supply.low = []) (down : s.supply.down = []) : exec (.thermalRecover tj) s = .next (boot (cooled s tj)) := by
  have free : (s.pwr.held && mayBoot (cooled s tj)) = true := Bool.and_eq_true_iff.2 ⟨held, mayBoot_of (s := cooled s tj) porst low down rfl⟩
  exact (if_pos cool).trans (congrArg _ (if_pos free))

end

/-! ### The boot ROM (R495, R496) -/

/-- The state in which reset has ended. -/
def released (s : State) : State := { s with pwr := { s.pwr with held := false } }

theorem boot_halts {s : State} (bad : s.pins.xspiMode = 3 ∨ fwOk s s.nvm.fwA = false ∧ fwOk s s.nvm.fwB = false) :
    boot s = { released s with sec := { s.sec with bootHalt := true } } := by
  have refused : s.pins.xspiMode = 3 ∨ (!fwOk s s.nvm.fwA && !fwOk s s.nvm.fwB) = true :=
    bad.imp_right fun ⟨a, b⟩ => by rw [a, b]; rfl
  exact if_pos refused

/-- An accepted copy runs the firmware's part of phase 0. -/
theorem boot_runs {s : State} (mode : s.pins.xspiMode ≠ 3) (accepted : fwOk s s.nvm.fwA = true ∨ fwOk s s.nvm.fwB = true) :
    boot s = bootVerified (released s) s.ret.lastCause false := by
  refine if_neg fun h => h.elim mode fun none_ok => ?_
  rw [Bool.and_eq_true, Bool.not_eq_true', Bool.not_eq_true'] at none_ok
  obtain ⟨a, b⟩ := none_ok
  exact accepted.elim (Bool.eq_false_iff.1 a) (Bool.eq_false_iff.1 b)

/-! ### Configuration, generation and ports (R483, R500, R501) -/

/-- The ports, the generation and the NVM log under a configuration. -/
def configured (s : State) (b : BootCfg) : State := recoverTail (nextGeneration (configurePorts { s with boot := b }))

/-- The start of phase 1 under a configuration, before phase 0 is recorded. -/
def phaseOne (s : State) (b : BootCfg) : State :=
  let t := configured s b
  { t with
    recd := { t.recd with baud := t.boot.crownBaud }
    nvm := { t.nvm with mirror := some t.ret }
    sec := { t.sec with phase := 1 }
    start := { t.start with gateC := t.c } }

/-- Whether or not the NVM took the generation. -/
theorem phaseOne_frame (s : State) (b : BootCfg) :
    (phaseOne s b).boot = b ∧ (phaseOne s b).sec.phase = 1 ∧ (phaseOne s b).start.gateC = s.c ∧ (phaseOne s b).pwr = s.pwr ∧
    (phaseOne s b).supply = s.supply ∧ (phaseOne s b).therm = s.therm ∧ (phaseOne s b).pins.porst = s.pins.porst ∧
    (phaseOne s b).pins.thermLow = s.pins.thermLow ∧ (phaseOne s b).fuse = s.fuse ∧ (phaseOne s b).mem = s.mem ∧ (phaseOne s b).c = s.c ∧
    ∀ e : Fin 2, ((phaseOne s b).net.port[e]).cfg = b.ports.getD e {} := by
  unfold phaseOne configured nextGeneration
  split <;> simp [recoverTail, configurePorts]

/-- The generation of the session where the NVM takes it (R483). -/
theorem phaseOne_generation {s : State} (b : BootCfg) (writes : s.nvm.genWriteOk = true) :
    (phaseOne s b).ret.gen = (s.ret.gen + 1) % 2 ^ 32 ∧ (phaseOne s b).nvm.gen = (s.ret.gen + 1) % 2 ^ 32 ∧
    (phaseOne s b).net.gen = (s.ret.gen + 1) % 2 ^ 32 ∧ (phaseOne s b).nvm.genWriteOk = true := by
  have taken : nextGeneration (configurePorts { s with boot := b }) = _ := if_pos writes
  unfold phaseOne configured
  rw [taken]
  exact ⟨rfl, rfl, rfl, writes⟩

/-- Phase 0 ends with two records. -/
def phaseZeroRecorded (s : State) (cause : Nat) : State :=
  raiseAlarm (resetEvent s 0 0 cause 0) 0x0101 0xFF 0xFF [BitVec.ofNat 8 cause]

theorem phaseZeroRecorded_recordsOnly (s : State) (cause : Nat) : RecordsOnly s (phaseZeroRecorded s cause) :=
  (resetEvent_recordsOnly ..).trans (raiseAlarm_recordsOnly ..)

theorem bootVerified_of_config {s : State} {b : BootCfg} (cause : Nat) (config : chosenCfg s = some b) (writes : s.nvm.genWriteOk = true) :
    bootVerified s cause false = phaseZeroRecorded (phaseOne s b) cause := by
  obtain ⟨-, -, -, writable⟩ := phaseOne_generation b writes
  obtain ⟨_, _, _, _, _, _, _, _, _, _, _, recorded⟩ := phaseZeroRecorded_recordsOnly (phaseOne s b) cause
  have kept : (phaseZeroRecorded (phaseOne s b) cause).nvm.genWriteOk = true := by rw [recorded]; exact writable
  unfold bootVerified
  rw [config]
  exact if_pos kept

theorem bootVerified_of_noConfig {s : State} (cause : Nat) (unverified : chosenCfg s = none) :
    bootVerified s cause false = enterHold (phaseZeroRecorded (phaseOne s fallbackCfg) cause) 0x0E := by
  unfold bootVerified
  rw [unverified]
  rfl

/-! ### The statement -/

/-- What phase 0 brings into force with a verified configuration, beside what it leaves as it was. -/
structure Started (s t : State) (b : BootCfg) : Prop where
  held : t.pwr.held = false
  phase : t.sec.phase = 1
  boot : t.boot = b
  gate : t.start.gateC = s.c
  retGen : t.ret.gen = (s.ret.gen + 1) % 2 ^ 32
  nvmGen : t.nvm.gen = (s.ret.gen + 1) % 2 ^ 32
  netGen : t.net.gen = (s.ret.gen + 1) % 2 ^ 32
  ports : ∀ e : Fin 2, (t.net.port[e]).cfg = b.ports.getD e {}
  porst : t.pins.porst = s.pins.porst
  thermLow : t.pins.thermLow = s.pins.thermLow
  supply : t.supply = s.supply
  therm : t.therm = s.therm
  fuse : t.fuse = s.fuse
  mem : t.mem = s.mem
  c : t.c = s.c

theorem boot_started {s : State} {b : BootCfg} (mode : s.pins.xspiMode ≠ 3) (accepted : fwOk s s.nvm.fwA = true ∨ fwOk s s.nvm.fwB = true)
    (config : chosenCfg s = some b) (writes : s.nvm.genWriteOk = true) : Started s (boot s) b := by
  obtain ⟨cfg, phase, gate, pwr, supply, therm, porst, thermLow, fuse, mem, c, ports⟩ := phaseOne_frame (released s) b
  obtain ⟨retGen, nvmGen, netGen, -⟩ := phaseOne_generation (s := released s) b writes
  obtain ⟨_, _, _, _, _, _, _, _, _, _, _, recorded⟩ := phaseZeroRecorded_recordsOnly (phaseOne (released s) b) s.ret.lastCause
  rw [boot_runs mode accepted, bootVerified_of_config (s := released s) _ config writes, recorded]
  exact ⟨congrArg Power.held pwr, phase, cfg, gate, retGen, nvmGen, netGen, ports, porst, thermLow, supply, therm, fuse, mem, c⟩

theorem enterHold_boot (s : State) (reason : Nat) : (enterHold s reason).boot = s.boot := by
  simp only [enterHold, stopBeats, emptyCalendar, stopCameras]

theorem boot_fallsBack {s : State} (mode : s.pins.xspiMode ≠ 3) (accepted : fwOk s s.nvm.fwA = true ∨ fwOk s s.nvm.fwB = true)
    (unverified : chosenCfg s = none) : (boot s).sec.phase = 7 ∧ (boot s).sec.reason = 0x0E ∧ (boot s).boot = fallbackCfg := by
  obtain ⟨cfg, -⟩ := phaseOne_frame (released s) fallbackCfg
  obtain ⟨_, _, _, _, _, _, _, _, _, _, _, recorded⟩ := phaseZeroRecorded_recordsOnly (phaseOne (released s) fallbackCfg) s.ret.lastCause
  rw [boot_runs mode accepted, bootVerified_of_noConfig (s := released s) _ unverified]
  obtain ⟨phase, reason⟩ := enterHold_reason (phaseZeroRecorded (phaseOne (released s) fallbackCfg) s.ret.lastCause) 0x0E
  exact ⟨phase, reason, by rw [enterHold_boot, recorded, cfg]⟩

/-- Settles O16: each release of reset is one boot, and each outcome of the boot has its own equation. -/
theorem phaseZero : Obligations.PhaseZero := by
  unfold Obligations.PhaseZero
  refine ⟨?porst, ?rails, ?thermal, ?halts, ?holds⟩
  case porst =>
    intro s b porst low down hot mode accepted config writes
    have on := boot_started (s := { s with pins := { s.pins with porst := true } }) mode accepted config writes
    exact ⟨_, exec_porstNRelease porst low down hot, on.porst, on.held, on.phase, on.boot, on.gate, on.retGen, on.nvmGen, on.netGen, on.ports,
      on.fuse, on.mem, on.c⟩
  case rails =>
    intro s b porst held hot mode accepted config writes
    have on := boot_started (s := { s with supply := { s.supply with low := [], down := [] } }) mode accepted config writes
    exact ⟨_, exec_railsInRange_boots porst held hot, congrArg _ on.supply, congrArg _ on.supply, on.held, on.phase, on.boot, on.retGen,
      on.nvmGen, on.netGen⟩
  case thermal =>
    intro tj s b cool porst held low down mode accepted config writes
    have on := boot_started (s := cooled s tj) mode accepted config writes
    exact ⟨_, exec_thermalRecover_boots cool porst held low down, congrArg _ on.therm, on.thermLow, on.held, on.phase, on.boot, on.retGen,
      on.nvmGen, on.netGen⟩
  case halts =>
    intro s porst low down hot bad
    have halted := boot_halts (s := { s with pins := { s.pins with porst := true } }) bad
    exact ⟨_, (exec_porstNRelease porst low down hot).trans (congrArg _ halted), rfl, rfl, rfl, rfl⟩
  case holds =>
    intro s porst low down hot mode accepted unverified
    exact ⟨_, exec_porstNRelease porst low down hot,
      boot_fallsBack (s := { s with pins := { s.pins with porst := true } }) mode accepted unverified⟩

end Sys2Proof.Machine
end

section
/-! What the D8 sends to its hosts (O50): one datagram a command, which takes what it carries off its queue. -/

namespace Sys2Proof.Machine

open Sys2Proof

@[simp] theorem leBytes_length (n x : Nat) : (leBytes n x).length = n := by
  induction n generalizing x with
  | zero => rfl
  | succ n ih => rw [leBytes, List.length_cons, ih]

/-- The D8 may send, and a port has its link up. -/
def MaySend (s : State) : Prop := anyLink s = true ∧ mayTalk s = true

theorem MaySend.both {s : State} (free : MaySend s) : (anyLink s && mayTalk s) = true := Bool.and_eq_true_iff.2 free

theorem running_of_mayTalk {s : State} (talk : mayTalk s = true) : running s = true := (Bool.and_eq_true_iff.1 talk).1

/-! ### Verdicts (R473) -/

/-- The oldest record is the first of the next datagram. -/
theorem verdictGroup_cons (x : Nat × Nat × Nat × VRec) (l : List (Nat × Nat × Nat × VRec)) :
    verdictGroup (x :: l) = x :: (l.takeWhile fun y => y.1 == x.1).take 20 := by
  simp [verdictGroup]

theorem verdictGroup_length_le (l : List (Nat × Nat × Nat × VRec)) : (verdictGroup l).length ≤ 21 := by
  cases l with
  | nil => exact Nat.zero_le _
  | cons x l => exact List.length_take_le ..

/-- The bytes ahead of the records of a datagram of verdicts. -/
def verdictHeader (x : Nat × Nat × Nat × VRec) (n : Nat) : List Byte :=
  leBytes 6 x.1 ++ leBytes 2 x.2.1 ++ leBytes 2 x.2.2.1 ++ leBytes 1 n ++ List.replicate 5 0

theorem verdictHeader_length (x : Nat × Nat × Nat × VRec) (n : Nat) : (verdictHeader x n).length = 16 := by
  simp [verdictHeader]

section
variable {s : State} (free : MaySend s)
include free

theorem exec_verdictSend {x : Nat × Nat × Nat × VRec} {l : List (Nat × Nat × Nat × VRec)} (front : s.net.backlog = x :: l) :
    exec .verdictSend s =
      let g := verdictGroup s.net.backlog
      let rest := s.net.backlog.drop g.length
      .next (sendDg { s with net := { s.net with backlog := rest } } 0x01 32 (verdictHeader x g.length ++ g.flatMap fun y => vrecBytes y.2.2.2)
        (if rest.head?.all fun y => y.1 != x.1 then 4 else 0)) := by
  have group : verdictGroup s.net.backlog = x :: (l.takeWhile fun y => y.1 == x.1).take 20 := by rw [front, verdictGroup_cons]
  simp only [exec, execVerdictSend, group, free.both, if_true]
  generalize List.drop _ s.net.backlog = rest
  cases rest <;> rfl

/-! ### Alarms and events (R474, R481) -/

theorem sendAlarms_sends (pending : s.net.alarms ≠ []) : sendAlarms s =
    sendDg { s with net := { s.net with alarms := s.net.alarms.drop 28 } } 0x04 0 ((s.net.alarms.take 28).flatMap alarmBytes) := by
  have some_go : (s.net.alarms.take 28).isEmpty = false := by simpa using pending
  exact if_neg (by rw [some_go, free.1, free.2]; decide)

theorem exec_eventSend {n : Nat} (room : 0 < n) (unsent : s.net.evSent < s.recd.live.length) : exec (.eventSend n) s =
    let rs := (s.recd.live.drop s.net.evSent).take (Nat.min n 21)
    .next (sendDg { s with net := { s.net with evSent := s.net.evSent + rs.length } } 0x05 0 (rs.flatMap eventBytes)) := by
  have some_go : ((s.recd.live.drop s.net.evSent).take (Nat.min n 21)).isEmpty = false := by
    rw [List.isEmpty_eq_false_iff_exists_mem, ← List.length_pos_iff_exists_mem, List.length_take, List.length_drop]
    exact Nat.lt_min.2 ⟨Nat.lt_min.2 ⟨room, by decide⟩, Nat.sub_pos_of_lt unsent⟩
  exact if_neg (by rw [some_go, free.1, free.2]; decide)

end

/-! ### Telemetry and trace (R476, R477) -/

/-- The items of a source of telemetry so far. -/
def itemCount (s : State) (src : Nat) : Nat := match s.net.tlmItems.find? fun x => x.1 == src with
  | some x => x.2
  | none => 0

/-- The trace bytes that a dump keeps. -/
def traced (s : State) (kept : List (Nat × List Byte)) : State := { s with recd := { s.recd with trace := kept } }

section
variable {s : State} (free : MaySend s)
include free

section
variable (ready : isReady s = true) {b : Byte} (offered : itemCount s b.toNat % 2 ^ s.net.tlmK = 0) (bs : List Byte)
include ready offered

/-- An item that is offered to a full queue raises the exponent, and the 16th that is sent in a row lowers it. -/
theorem exec_telemetry_offered (full : Bool) : ∃ items, exec (.telemetry (some (b, bs)) full) s =
    let t : State := { s with net := { s.net with tlmItems := items } }
    let u := sendDg t 0x06 0 (leBytes 1 1 ++ leBytes 1 s.net.tlmK ++ leBytes 2 1 ++ leBytes 6 s.esc.beat ++ leBytes 2 0 ++ bs.take 1352)
    if full then .next (tlmMiss { t with net := { t.net with tlmK := Nat.min 8 (s.net.tlmK + 1), tlmStreak := 0 } })
    else .next { u with net := { u.net with
      tlmStreak := if s.net.tlmStreak + 1 = 16 then 0 else s.net.tlmStreak + 1
      tlmK := if s.net.tlmStreak + 1 = 16 then s.net.tlmK - 1 else s.net.tlmK } } := by
  have goes : (!mayTalk s || !anyLink s || !isReady s || (false && !snapshotDue s)) = false := by rw [free.1, free.2, ready]; rfl
  exact ⟨_, (if_neg (ne_true_of_eq_false goes)).trans (if_neg (not_not.2 offered))⟩

end

theorem exec_trace_full (src : Byte) (bs : List Byte) : exec (.trace src bs true) s =
    let t := traced s ((s.recd.trace ++ [(src.toNat, bs)]).drop (s.recd.trace.length + 1 - 1024))
    .next { t with net := { t.net with traceLost := incW t.net.traceLost } } := by
  simp only [exec, execTrace, running_of_mayTalk free.2, Bool.not_true, Bool.false_eq_true, if_false, if_true, traced]

theorem exec_trace_sends (src : Byte) (bs : List Byte) : exec (.trace src bs false) s =
    let t := traced s ((s.recd.trace ++ [(src.toNat, bs)]).drop (s.recd.trace.length + 1 - 1024))
    .next (sendDg t 0x07 0 ([src, 0] ++ leBytes 6 (beatField t) ++ bs.take 1356)) := by
  have goes : ∀ l, (!mayTalk (traced s l) || !anyLink (traced s l)) = false := fun l => by
    rw [show mayTalk (traced s l) = mayTalk s from rfl, show anyLink (traced s l) = anyLink s from rfl, free.1, free.2]
    rfl
  unfold traced at goes
  simp only [exec, execTrace, running_of_mayTalk free.2, Bool.not_true, Bool.false_eq_true, if_false, goes, traced]

end

/-! ### Time stamps (R467) -/

theorem updEth_fixed {s : State} {e : EthPort} {f : EthSt → EthSt} (h : f s.net.port[e] = s.net.port[e]) : updEth s e f = s := by
  unfold updEth
  rw [h]
  simp

/-- The OLP entry at the front of the queue holds back the gPTP entries behind it. -/
theorem drainGptp_of_host {s : State} {e : EthPort} {x : TxStamp} {l : List TxStamp} {h : Fin 8} (front : (s.net.port[e]).stamps = x :: l)
    (host : x.host = some h) : drainGptp s e = s := by
  have none_first : (s.net.port[e]).stamps.takeWhile (fun x => x.host.isNone) = [] := by
    rw [front, List.takeWhile_cons_of_neg (by simp [host])]
  unfold drainGptp
  simp only [none_first]
  exact updEth_fixed rfl

theorem exec_tsReport {s : State} {e : EthPort} {x : TxStamp} {l : List TxStamp} {h : Fin 8} (talk : mayTalk s = true)
    (front : (s.net.port[e]).stamps = x :: l) (host : x.host = some h) : exec (.tsReport e) s =
      .next (sendDg (updEth s e fun p => { p with stamps := l }) 0x08 (1 + h.val)
        (leBytes 1 e.val ++ leBytes 1 0 ++ leBytes 2 x.ident ++ leBytes 8 x.time)) := by
  obtain ⟨run, hold⟩ := Bool.and_eq_true_iff.1 talk
  simp only [exec, execTsReport, run, drainGptp_of_host front host, bne_iff_ne.1 hold, front, host, Bool.not_true, Bool.false_eq_true, if_false]

/-! ### The statement -/

/-- Settles O50: each command is one datagram, from the state without what it carries. -/
theorem sendsToHosts : Obligations.SendsToHosts := by
  unfold Obligations.SendsToHosts
  intro Open
  refine ⟨?verdicts, ?alarms, ?events, ?telemetry, ?trace, ?stamps⟩
  case verdicts =>
    intro s x l free front
    refine ⟨_, _, exec_verdictSend free front, rfl, rfl, rfl, rfl, ?_, verdictGroup_length_le _, ?_, rfl, rfl⟩
    · rw [front, verdictGroup_cons]
      exact Nat.succ_pos _
    · exact List.drop_left' (verdictHeader_length ..)
  case alarms =>
    intro s free pending
    exact ⟨_, _, congrArg Host.Outcome.next (sendAlarms_sends free pending), rfl, rfl, rfl, rfl, rfl, rfl⟩
  case events =>
    intro n s free room unsent
    exact ⟨_, _, exec_eventSend free room unsent, rfl, rfl, rfl, rfl, rfl, rfl, rfl⟩
  case telemetry =>
    intro b bs s free ready every streak
    have offered : itemCount s b.toNat % 2 ^ s.net.tlmK = 0 := by rw [every, pow_zero, Nat.mod_one]
    have few : s.net.tlmStreak + 1 ≠ 16 := by omega
    obtain ⟨_, sends⟩ := exec_telemetry_offered free ready offered bs false
    obtain ⟨_, counts⟩ := exec_telemetry_offered free ready offered bs true
    refine ⟨⟨_, _, sends, rfl, rfl, if_neg few, (if_neg few).trans every, ?_, rfl⟩, _, counts, rfl, ?_, rfl, rfl⟩
    · exact List.drop_left' (by simp)
    · exact congrArg (fun k => Nat.min 8 (k + 1)) every
  case trace =>
    intro src bs s free
    have sends := exec_trace_sends free src bs
    have full := exec_trace_full free src bs
    generalize (s.recd.trace ++ [(src.toNat, bs)]).drop (s.recd.trace.length + 1 - 1024) = kept at sends full ⊢
    exact ⟨⟨_, _, sends, rfl, rfl, rfl⟩, _, full, rfl, rfl⟩
  case stamps =>
    intro e x h l s talk front host
    have stamps := congrArg EthSt.stamps (updEth_same s e fun p => { p with stamps := l })
    exact ⟨_, _, exec_tsReport talk front host, rfl, rfl, rfl, stamps, rfl, rfl⟩

end Sys2Proof.Machine
end

section
/-! Traffic with the peers (O51): how many datagrams go to them and of what, and what a message of theirs changes. -/

namespace Sys2Proof.Machine

open Sys2Proof

/-! ### Several datagrams at once (R471) -/

/-- After s, the D8 has handed over n more datagrams of a type, each with a payload of ps. -/
def Handed (typ : Nat) (ps : List (List Byte)) (n : Nat) (s t : State) : Prop :=
  ∃ ds seq frer, ds.length = n ∧ (∀ d ∈ ds, d.typ = typ ∧ d.payload ∈ ps) ∧
    t = { s with net := { s.net with sent := s.net.sent ++ ds, seq := seq, frer := frer } }

theorem Handed.refl (typ : Nat) (ps : List (List Byte)) (s : State) : Handed typ ps 0 s s :=
  ⟨[], s.net.seq, s.net.frer, rfl, nofun, by rw [List.append_nil]⟩

theorem sendDg_handed {ps : List (List Byte)} {payload : List Byte} (mem : payload ∈ ps) (s : State) (typ dst flags : Nat) :
    Handed typ ps 1 s (sendDg s typ dst payload flags) :=
  ⟨[_], _, _, rfl, List.forall_mem_singleton.2 ⟨rfl, mem⟩, rfl⟩

theorem Handed.trans {typ m n : Nat} {ps : List (List Byte)} {s t u : State} (h : Handed typ ps m s t) (k : Handed typ ps n t u) :
    Handed typ ps (m + n) s u := by
  obtain ⟨ds, _, _, rfl, hds, rfl⟩ := h
  obtain ⟨es, seq, frer, rfl, hes, rfl⟩ := k
  exact ⟨ds ++ es, seq, frer, List.length_append, List.forall_mem_append.2 ⟨hds, hes⟩, by simp only [List.append_assoc]⟩

theorem foldl_handed {α : Type} {typ : Nat} {ps : List (List Byte)} {f : State → α → State} {l : List α}
    (hf : ∀ s, ∀ x ∈ l, Handed typ ps 1 s (f s x)) (s : State) : Handed typ ps l.length s (l.foldl f s) := by
  induction l generalizing s with
  | nil => exact .refl ..
  | cons x l ih =>
    rw [List.length_cons, Nat.add_comm]
    exact (hf s x List.mem_cons_self).trans (ih (fun s y mem => hf s y (List.mem_cons_of_mem x mem)) (f s x))

theorem toPeers_handed (s : State) (typ : Nat) (payload : List Byte) : Handed typ [payload] s.boot.peers.length s (toPeers s typ payload) := by
  have sent := foldl_handed (l := List.range s.boot.peers.length) (f := fun s j => sendDg s typ (16 + j) payload)
    (fun t j _ => sendDg_handed (List.mem_singleton_self payload) t typ (16 + j) 0) s
  rwa [List.length_range] at sent

section
variable {typ n : Nat} {ps : List (List Byte)} {s t : State} (h : Handed typ ps n s t)
include h

theorem Handed.length : t.net.sent.length = s.net.sent.length + n := by
  obtain ⟨ds, _, _, rfl, -, rfl⟩ := h
  exact List.length_append

theorem Handed.sent : ∀ d ∈ t.net.sent.drop s.net.sent.length, d.typ = typ ∧ d.payload ∈ ps := by
  obtain ⟨ds, _, _, -, hds, rfl⟩ := h
  rwa [List.drop_left]

/-- Beside the datagrams themselves, only their sequence numbers change. -/
theorem Handed.frame : ∃ sent seq frer, t = { s with net := { s.net with sent := sent, seq := seq, frer := frer } } := by
  obtain ⟨_, seq, frer, -, -, rfl⟩ := h
  exact ⟨_, seq, frer, rfl⟩

end

/-- Datagrams of one payload. -/
theorem Handed.sent_one {typ n : Nat} {p : List Byte} {s t : State} (h : Handed typ [p] n s t) :
    ∀ d ∈ t.net.sent.drop s.net.sent.length, d.typ = typ ∧ d.payload = p :=
  fun d mem => (h.sent d mem).imp_right List.mem_singleton.1

/-- PROVISIONALs that are dropped are counted, and the flag is set where there are any (R481). -/
theorem peerDrops_eq (s : State) (n : Nat) : ∃ status, (0 < n → bit status.toNat 5 = true) ∧
    peerDrops s n = { s with net := { s.net with peerDrop := if n = 0 then s.net.peerDrop else satInc s.net.peerDrop n, status := status } } := by
  unfold peerDrops
  split
  next none_dropped => exact ⟨s.net.status, fun some_dropped => absurd none_dropped some_dropped.ne', rfl⟩
  next => exact ⟨_, fun _ => bit_orW s.net.status (by decide) (by decide), rfl⟩

/-- PROVISIONALs make room for a message that goes to every peer (R481). -/
theorem toPeers_displacing (s : State) (k typ : Nat) (payload : List Byte) : ∃ drop status,
    Handed typ [payload] s.boot.peers.length { s with net := { s.net with peerDrop := drop, status := status } }
      (toPeers (peerDrops s k) typ payload) := by
  obtain ⟨status, -, drops⟩ := peerDrops_eq s k
  have handed := toPeers_handed (peerDrops s k) typ payload
  rw [drops] at handed ⊢
  exact ⟨_, status, handed⟩

/-! ### PROVISIONALs (R484) -/

/-- The datagrams of what waits to go to peers, one for each part and destination. -/
def exportDgs (s : State) (x : Export) : List (Nat × List Byte) :=
  (exportParts x).flatMap fun p => (streamDests s x.stream).map fun d => (d, p)

theorem exportDgs_length (s : State) (x : Export) : (exportDgs s x).length = (exportParts x).length * (streamDests s x.stream).length := by
  simp [exportDgs, List.length_flatMap]

theorem mem_exportDgs {s : State} {x : Export} {d : Nat × List Byte} (mem : d ∈ exportDgs s x) : d.2 ∈ exportParts x := by
  obtain ⟨p, part, h⟩ := List.mem_flatMap.1 mem
  obtain ⟨_, -, rfl⟩ := List.mem_map.1 h
  exact part

/-- The state in which the oldest of what waits for the peers has gone. -/
def exportSent (s : State) (x : Export) (l : List Export) (room : Nat) : State :=
  let t := ((exportDgs s x).take room).foldl (fun s d => sendDg s 0x02 d.1 d.2 (if x.replayed then 2 else 0))
    { s with net := { s.net with exports := l } }
  if ((exportDgs s x).take room).isEmpty then t else { t with net := { t.net with provs := (x.beat, x.lw) :: t.net.provs } }

theorem exec_provisionalSend {s : State} {x : Export} {l : List Export} (free : MaySend s) (front : s.net.exports = x :: l)
    (first : retractWaits s x = false) (all : openUnit s (fun m => m.olp) = none) (room : Nat) :
    exec (.provisionalSend room) s = .next (peerDrops (exportSent s x l room) ((exportDgs s x).length - room)) := by
  have goes : (!mayTalk s || !anyLink s || retractWaits s x) = false := by rw [free.1, free.2, first]; rfl
  simp only [exec, execProvisionalSend, front, goes, all, Bool.false_eq_true, if_false]
  rfl

theorem exportSent_handed (s : State) (x : Export) (l : List Export) (room : Nat) : ∃ provs,
    Handed 0x02 (exportParts x) (Nat.min room (exportDgs s x).length) { s with net := { s.net with exports := l, provs := provs } }
      (exportSent s x l room) := by
  have sent := foldl_handed (l := (exportDgs s x).take room) (f := fun s d => sendDg s 0x02 d.1 d.2 (if x.replayed then 2 else 0))
    (fun t d mem => sendDg_handed (mem_exportDgs (List.mem_of_mem_take mem)) t 0x02 d.1 _) { s with net := { s.net with exports := l } }
  rw [List.length_take] at sent
  obtain ⟨ds, seq, frer, len, hds, sent⟩ := sent
  simp only [exportSent, sent]
  split
  · exact ⟨s.net.provs, ds, seq, frer, len, hds, rfl⟩
  · exact ⟨_, ds, seq, frer, len, hds, rfl⟩

/-! ### RETRACTs and MARKs (R485, R486, R547) -/

section
variable {s : State} (free : MaySend s)
include free

theorem exec_retractSend {r : Nat × Nat × Nat × Nat} {l : List (Nat × Nat × Nat × Nat)} (front : s.net.retracts = r :: l) (k : Nat) :
    exec (.retractSend k) s = .next (toPeers (peerDrops { s with net := { s.net with retracts := l } } k) 0x03
      (retractBytes r.1 r.2.1 r.2.2.1 r.2.2.2)) := by
  have goes : (mayTalk s && anyLink s) = true := Bool.and_eq_true_iff.2 free.symm
  simp only [exec, execRetractSend, front, goes, if_true]

theorem exec_markSend {n : Nat} {l : List Nat} (front : s.net.marks = n :: l) (k : Nat) : exec (.markSend k) s =
    .next (toPeers (peerDrops { s with net := { s.net with marks := l, lastMark := markBytes s n } } k) 0x40 (markBytes s n)) := by
  have goes : (mayTalk s && anyLink s) = true := Bool.and_eq_true_iff.2 free.symm
  simp only [exec, execMarkSend, front, goes, if_true]

/-- The next MARK of Idle is due, and its time is kept. -/
def idleMarkDue (s : State) : State :=
  let t := reach s (s.net.idleC + if encLocked s then s.esc.pMax.toNat else s.esc.pMin.toNat)
  { t with net := { t.net with idleC := t.c } }

theorem exec_idleMark (idle : s.pwr.state = 2) (none_due : s.net.marks = []) (one : s.net.lastMark ≠ []) (k : Nat) :
    exec (.idleMark k) s = .next (toPeers (peerDrops (idleMarkDue s) k) 0x40 s.net.lastMark) := by
  have goes : (mayTalk s && s.pwr.state == 2 && s.net.marks.isEmpty && !s.net.lastMark.isEmpty) = true := by
    rw [free.2, idle, none_due, List.isEmpty_eq_false_iff.2 one]; rfl
  exact (if_pos goes).trans (congrArg Host.Outcome.next (if_pos free.1))

end

/-! ### The generation of a peer's message (R471, R487) -/

section
variable {s : State} (free : MaySend s) {p : Fin 16} (peer : p.val < s.boot.peers.length)
include free peer

/-- A message of a declared peer runs if its generation is accepted. -/
theorem peerIn_eq (gen : Nat) (isMark : Bool) (f : State → State) :
    peerIn s p gen isMark f = if (checkGen s p gen isMark).2 then f (checkGen s p gen isMark).1 else (checkGen s p gen isMark).1 :=
  if_pos (by rw [free.1, free.2, decide_eq_true peer]; rfl)

/-- The first MARK gives the generation. -/
theorem peerIn_first (first : (s.net.peers[p]).gen = none) (gen : Nat) (f : State → State) :
    peerIn s p gen true f = f (updPeer s p fun _ => { gen := some gen }) := by
  have adopted : checkGen s p gen true = (updPeer s p fun _ => { gen := some gen }, true) := by
    simp only [checkGen, first, if_true]
  rw [peerIn_eq free peer, adopted]
  rfl

/-- A message of the generation that is known runs. -/
theorem peerIn_known {gen : Nat} (known : (s.net.peers[p]).gen = some gen) (there : (s.net.peers[p]).gone = false) (isMark : Bool)
    (f : State → State) : peerIn s p gen isMark f = f s := by
  have accepted : checkGen s p gen isMark = (s, true) := by
    simp only [checkGen, known, there, if_true, Bool.not_false]
  rw [peerIn_eq free peer, accepted]
  rfl

end

/-! ### What enters a capture interval (R488) -/

/-- Rings of the peers' messages, with the count and flag of those that find no room there. -/
def ImportsOnly (s t : State) : Prop := ∃ imports drop status,
  t = { s with net := { s.net with imports := imports, peerDrop := drop, status := status } }

theorem placeImport_importsOnly (bytes : List Byte) (s : State) (ch : Nat) : ImportsOnly s (placeImport bytes s ch) := by
  simp only [placeImport]
  split
  · exact ⟨_, s.net.peerDrop, s.net.status, rfl⟩
  · exact ⟨s.net.imports, _, _, rfl⟩

theorem foldl_placeImport_importsOnly (bytes : List Byte) (l : List Nat) (s : State) : ImportsOnly s (l.foldl (placeImport bytes) s) := by
  induction l generalizing s with
  | nil => exact ⟨_, _, _, rfl⟩
  | cons ch l ih =>
    obtain ⟨_, _, _, placed⟩ := placeImport_importsOnly bytes s ch
    obtain ⟨imports, drop, status, rest⟩ := ih (placeImport bytes s ch)
    exact ⟨imports, drop, status, by rw [List.foldl_cons, rest, placed]⟩

theorem deliverPeer_open {s : State} (interval : intervalOpen s = true) (p : Fin 16) (typ : Nat) (stream : Option Nat) (pl : List Byte) :
    ImportsOnly { s with sealer := { s.sealer with msgs := s.sealer.msgs ++ [leBytes 4 (pl.length + 1) ++ (leBytes 1 typ ++ pl)] } }
      (deliverPeer s p typ stream pl) := by
  have length : (leBytes 1 typ ++ pl).length = pl.length + 1 := by rw [List.length_append, leBytes_length, Nat.add_comm]
  rw [deliverPeer, if_pos interval, ← length]
  exact foldl_placeImport_importsOnly _ _ _

theorem deliverPeer_closed {s : State} (closed : intervalOpen s = false) (p : Fin 16) (typ : Nat) (stream : Option Nat) (pl : List Byte) :
    deliverPeer s p typ stream pl = s := if_neg (ne_true_of_eq_false closed)

/-! ### A peer is lost (R487) -/

/-- Of the network's part, what is recorded changes the alarms. -/
theorem RecordsOnly.netView {s t : State} (h : RecordsOnly s t) : (∃ alarms, t.net = { s.net with alarms := alarms }) ∧
    t.c = s.c ∧ t.reg = s.reg ∧ t.pwr = s.pwr ∧ t.mem = s.mem := by
  obtain ⟨_, _, _, _, _, _, _, _, _, alarms, _, rfl⟩ := h
  exact ⟨⟨alarms, rfl⟩, rfl, rfl, rfl, rfl⟩

theorem retractPeer_c (s : State) (p : Fin 16) : (retractPeer s p).c = s.c := congrArg (·.2.2) (retractPeer_kept s p)

/-- The peer is silent, and its provisionals that are not sealed are retracted. -/
def peerLost (s : State) (p : Fin 16) (t : Nat) : State :=
  let u := updPeer (retractPeer (reach s t) p) p fun x => { x with gone := true }
  { u with net := { u.net with status := orW u.net.status 16 } }

theorem peerLost_gone (s : State) (p : Fin 16) (t : Nat) : ((peerLost s p t).net.peers[p]).gone = true :=
  congrArg Peer.gone (updPeer_same (retractPeer (reach s t) p) p fun x => { x with gone := true })

theorem peerLost_flag (s : State) (p : Fin 16) (t : Nat) : bit (peerLost s p t).net.status.toNat 4 = true :=
  bit_orW (updPeer (retractPeer (reach s t) p) p fun x => { x with gone := true }).net.status (by decide) (by decide)

theorem peerLost_c (s : State) (p : Fin 16) (t : Nat) : (peerLost s p t).c = (reach s t).c := by
  simp only [peerLost, updPeer_c, retractPeer_c]

theorem exec_peerTimeout {s : State} {p : Fin 16} {m : Nat × Nat × Nat × Nat × Nat} (run : running s = true) (mark : (s.net.peers[p]).mark = some m)
    (there : (s.net.peers[p]).gone = false) : ∃ dev, exec (.peerTimeout p) s =
      .next (raiseAlarm (peerLost s p (m.2.2.2.2 + (m.2.2.1 + 2) * m.2.2.2.1)) 0x0012 0xFF 0xFF dev) := by
  simp only [exec, execPeerTimeout, mark, run, there, Bool.not_false, Bool.and_self, if_true]
  exact ⟨_, rfl⟩

/-! ### The statement -/

/-- Settles O51: what goes to the peers is a number of datagrams, and what comes from them is one update of their part or of the
interval. -/
theorem peerTraffic : Obligations.PeerTraffic := by
  unfold Obligations.PeerTraffic
  intro Open Known
  refine ⟨?provisional, ?retract, ?mark, ?idle, ?firstMark, ?provisionalRx, ?retractRx, ?timeout⟩
  case provisional =>
    intro x l room n s free front first all size
    rw [← exportDgs_length] at size
    subst size
    obtain ⟨provs, handed⟩ := exportSent_handed s x l room
    have length := handed.length
    have sent := handed.sent
    obtain ⟨_, _, _, gone⟩ := handed.frame
    obtain ⟨status, flag, drops⟩ := peerDrops_eq (exportSent s x l room) ((exportDgs s x).length - room)
    rw [exec_provisionalSend free front first all room, drops]
    rw [gone] at length sent ⊢
    refine ⟨_, rfl, rfl, length, sent, ?_, fun more => flag (Nat.sub_pos_of_lt more), rfl⟩
    simp only [Nat.sub_eq_zero_iff_le]
  case retract =>
    intro k r l s free front
    obtain ⟨_, _, handed⟩ := toPeers_displacing { s with net := { s.net with retracts := l } } k 0x03 (retractBytes r.1 r.2.1 r.2.2.1 r.2.2.2)
    obtain ⟨_, _, _, gone⟩ := handed.frame
    refine ⟨_, exec_retractSend free front k, ?_, handed.length, handed.sent_one, ?_⟩ <;> rw [gone]
  case mark =>
    intro k n l s free front
    obtain ⟨_, _, handed⟩ := toPeers_displacing { s with net := { s.net with marks := l, lastMark := markBytes s n } } k 0x40 (markBytes s n)
    obtain ⟨_, _, _, gone⟩ := handed.frame
    refine ⟨_, exec_markSend free front k, ?_, ?_, handed.length, handed.sent_one, ?_⟩ <;> rw [gone]
  case idle =>
    intro k s free idle none_due one
    obtain ⟨_, _, handed⟩ := toPeers_displacing (idleMarkDue s) k 0x40 s.net.lastMark
    obtain ⟨_, _, _, gone⟩ := handed.frame
    refine ⟨_, exec_idleMark free idle none_due one k, ?_, ?_, handed.length, handed.sent_one⟩ <;> rw [gone] <;> rfl
  case firstMark =>
    intro p g b z r m s free peer first
    refine congrArg Host.Outcome.next ((peerIn_first free peer first g.toNat _).trans ?_)
    simp only [markCore, updPeer, Fin.getElem_fin, Vector.getElem_set_self, Vector.set_set]
  case provisionalRx =>
    intro p g pl s free ⟨peer, known, there⟩ long short interval
    have taken := peerIn_known free peer known there false fun s => provisionalCore s p pl
    have fits : ¬ (pl.length < 17 ∨ 1364 < pl.length) := by omega
    obtain ⟨_, _, _, placed⟩ := deliverPeer_open (s := updPeer s p fun x => { x with highest := some (match x.highest with
      | some h => Nat.max h (leAt pl 0 6)
      | none => leAt pl 0 6) }) interval p 0x02 (some (leAt pl 7 1)) pl
    exact ⟨_, congrArg Host.Outcome.next (taken.trans ((if_neg fits).trans placed)), rfl, rfl, rfl, rfl⟩
  case retractRx =>
    intro p g pl s free ⟨peer, known, there⟩ length
    have taken := (peerIn_known free peer known there false fun s => retractCore s p pl).trans (if_pos length)
    refine ⟨_, congrArg Host.Outcome.next taken, ?_⟩
    cases interval : intervalOpen s with
    | false =>
      rw [deliverPeer_closed interval]
      exact ⟨rfl, rfl, rfl, nofun, fun _ => rfl⟩
    | true =>
      obtain ⟨_, _, _, placed⟩ := deliverPeer_open interval p 0x03 none pl
      rw [placed, length]
      exact ⟨rfl, rfl, rfl, fun _ => rfl, nofun⟩
  case timeout =>
    intro p m s run mark there
    obtain ⟨dev, lost⟩ := exec_peerTimeout run mark there
    refine ⟨_, lost, ?_⟩
    have since := peerLost_c s p (m.2.2.2.2 + (m.2.2.1 + 2) * m.2.2.2.1)
    have gone := peerLost_gone s p (m.2.2.2.2 + (m.2.2.1 + 2) * m.2.2.2.1)
    have flag := peerLost_flag s p (m.2.2.2.2 + (m.2.2.1 + 2) * m.2.2.2.1)
    generalize peerLost s p (m.2.2.2.2 + (m.2.2.1 + 2) * m.2.2.2.1) = u at since gone flag ⊢
    obtain ⟨⟨_, net⟩, c, -⟩ := (raiseAlarm_recordsOnly u 0x0012 0xFF 0xFF dev).netView
    exact ⟨by rw [net]; exact gone, by rw [net]; exact flag, raiseAlarm_alarmed .., c.trans since⟩

end Sys2Proof.Machine
end

section
/-! The Regulator and the Ethernet ports (O48): what a Sync sets, and how a link comes up, is checked and goes down. -/

namespace Sys2Proof.Machine

open Sys2Proof

/-! ### The Regulator (R463-R466) -/

/-- The port is in use and speaks gPTP. -/
def GptpLive (s : State) (e : EthPort) : Prop := running s = true ∧ portLive s e = true ∧ (s.net.port[e]).cfg.gptp = true

/-- The Regulator after an accepted Sync (R465, R466). -/
def synced (s : State) (e : EthPort) (th y : Int) : Regulator := { s.reg with
  ck := s.c
  o := if !everReady s && (s.reg.state == 0 || s.reg.state == 3) then (timeT s : Int) - th else timeT s
  a := adjustOf s th y, state := 1, far := decide (1000000 < th.natAbs), slave := e.val
  theta := clampI (-2147483648) 2147483647 th, syncC := s.c }

theorem exec_syncRx {s : State} {e : EthPort} (live : GptpLive s e) (slave : (s.net.port[e]).ptp = 1) (th y : Int) :
    exec (.syncRx e th y) s = .next { s with reg := synced s e th y } := by
  obtain ⟨run, live, gptp⟩ := live
  have taken : (running s && portLive s e && (s.net.port[e]).cfg.gptp && (s.net.port[e]).ptp == 1) = true := by
    rw [run, live, gptp, slave]; rfl
  exact if_pos taken

/-- T steps by the offset before readiness only, where the Regulator was not locked (R465). -/
theorem synced_o (s : State) (e : EthPort) (th y : Int) : (synced s e th y).o =
    (timeT s : Int) - if everReady s = false ∧ (s.reg.state = 0 ∨ s.reg.state = 3) then th else 0 := by
  have steps : (!everReady s && (s.reg.state == 0 || s.reg.state == 3)) = true ↔ everReady s = false ∧ (s.reg.state = 0 ∨ s.reg.state = 3) := by
    simp
  simp only [synced, steps]
  split
  · rfl
  · rw [Int.sub_zero]

/-- The Regulator keeps its rate without a Sync (R466). -/
def holdover (s : State) : State :=
  { s with reg := { s.reg with state := 2 }, net := { s.net with status := orW s.net.status 4 } }

theorem exec_syncReceiptTimeout {s : State} (run : running s = true) (locked : s.reg.state = 1) :
    exec .syncReceiptTimeout s = .next (raiseAlarm (holdover (reach s (s.reg.syncC + 3 * syncInterval s))) 0x0011) :=
  if_pos (by rw [run, locked]; rfl)

theorem other_ne (e : EthPort) : 1 - e ≠ e := by decide +revert

theorem exec_announce_master {s : State} {e : EthPort} (live : GptpLive s e) (alone : (s.net.port[1 - e]).ptp ≠ 1) (may : s.boot.priority1 < 255) :
    exec (.announceReceiptTimeout e 2) s =
      let t := updEth s e fun p => { p with ptp := 2 }
      .next { t with reg := { t.reg with ck := t.c, o := timeT t, a := 0, state := 3, far := false } } := by
  obtain ⟨run, live, gptp⟩ := live
  have other : ((updEth s e fun p => { p with ptp := (2 : Fin 4).val }).net.port[1 - e]).ptp ≠ 1 := by rwa [updEth_other _ _ _ _ (other_ne e)]
  have master : ¬ (2 : Fin 4) = 1 := by decide
  simp only [exec, execAnnounceReceiptTimeout, run, live, Bool.and_self, if_true, applyBmca, gptp, Bool.not_true, Bool.false_eq_true, if_false,
    master, other, ne_eq, not_false_eq_true, may, updEth_boot, and_self]
  rfl

theorem exec_gptpTxInterval_pdelay {s : State} {e : EthPort} (live : GptpLive s e) (room : (s.net.port[e]).stamps.length < 16) (n : Nat) :
    exec (.gptpTxInterval e 0 n) s = .next (updEth (sendEth s e 0 (n % 65536)) e fun p =>
      { p with stamps := p.stamps ++ [{ ident := n % 65536, kind := 2, time := timeT s }] }) := by
  obtain ⟨run, live, gptp⟩ := live
  have goes : (running s && portLive s e && (s.net.port[e]).cfg.gptp && ((0 : Fin 3) == 0 || (s.net.port[e]).ptp == 2)) = true := by
    rw [run, live, gptp]; rfl
  exact (if_pos goes).trans (congrArg Host.Outcome.next (if_pos room))

/-! ### Alarms that wait for a link (R474) -/

theorem anyLink_of_port {s : State} (e : EthPort) (enabled : (s.net.port[e]).cfg.enabled = true) (up : (s.net.port[e]).link = true) :
    anyLink s = true :=
  Vector.any_eq_true.2 ⟨e, e.isLt, Bool.and_eq_true_iff.2 ⟨enabled, up⟩⟩

theorem sendAlarms_frame (s : State) : ∃ alarms sent seq frer,
    sendAlarms s = { s with net := { s.net with alarms := alarms, sent := sent, seq := seq, frer := frer } } := by
  simp only [sendAlarms]
  split
  · exact ⟨_, _, _, _, rfl⟩
  · exact ⟨_, _, _, _, rfl⟩

/-- With a link up the pending alarms go, in one datagram if there are any. -/
theorem sendAlarms_counts {s : State} (free : MaySend s) : (sendAlarms s).net.alarms = s.net.alarms.drop 28 ∧
    (sendAlarms s).net.sent.length = s.net.sent.length + if s.net.alarms = [] then 0 else 1 := by
  by_cases pending : s.net.alarms = []
  · have stays : sendAlarms s = s := if_pos (by rw [pending]; rfl)
    rw [stays, pending]
    exact ⟨rfl, rfl⟩
  · rw [sendAlarms_sends free pending, if_neg pending]
    exact ⟨rfl, List.length_append⟩

/-! ### Links (R458, R474, R503, R533) -/

/-- The port at its rate, out of reset, and up unless it failed its check. -/
def linkRaised (s : State) (e : EthPort) (r : Fin 4) : State :=
  let t := updEth s e fun p => { p with link := !p.pcsDown, rate := r.val }
  { t with pwr := { t.pwr with ethReset := t.pwr.ethReset.set e false } }

theorem linkRaised_port (s : State) (e : EthPort) (r : Fin 4) :
    (linkRaised s e r).net.port[e] = { s.net.port[e] with link := !(s.net.port[e]).pcsDown, rate := r.val } :=
  updEth_same s e fun p => { p with link := !p.pcsDown, rate := r.val }

theorem linkRaised_reset (s : State) (e : EthPort) (r : Fin 4) : (linkRaised s e r).pwr.ethReset[e] = false := by
  simp only [linkRaised, Fin.getElem_fin, Vector.getElem_set_self]

/-- The result of a port's check (R503). -/
def portChecked (s : State) (e : EthPort) (good : Bool) : State :=
  updEth s e fun p => { p with link := good, checked := good, pcsDown := !good, ptp := if good then p.ptp else 0 }

theorem portChecked_port (s : State) (e : EthPort) (good : Bool) : (portChecked s e good).net.port[e] =
    { s.net.port[e] with link := good, checked := good, pcsDown := !good, ptp := if good then (s.net.port[e]).ptp else 0 } :=
  updEth_same s e fun p => { p with link := good, checked := good, pcsDown := !good, ptp := if good then p.ptp else 0 }

/-- A check that passes leaves a link that was up as it was. -/
theorem checked_of_up {x : EthSt} (up : x.link = true) :
    { x with link := true, checked := true, pcsDown := false } = { x with checked := true, pcsDown := false } := by
  rw [up]

/-- A port in reset, under its next generation (R534). -/
def portReset (s : State) (e : EthPort) : State :=
  updEth { s with pwr := { s.pwr with
    ethReset := s.pwr.ethReset.set e true, genEth := s.pwr.genEth.set e ((s.pwr.genEth[e] + 1) % 16) } } e fun p =>
      { p with link := false, ptp := 0, stamps := [], lostTs := [] }

theorem portReset_view (s : State) (e : EthPort) :
    (portReset s e).net.port[e] = { s.net.port[e] with link := false, ptp := 0, stamps := [], lostTs := [] } ∧
    (portReset s e).pwr.ethReset[e] = true ∧ (portReset s e).pwr.genEth[e] = (s.pwr.genEth[e] + 1) % 16 := by
  simp only [portReset, updEth, Fin.getElem_fin, Vector.getElem_set_self, and_self]

section
variable {s : State} {e : EthPort} (run : running s = true)
include run

theorem exec_ethLinkDown (up : (s.net.port[e]).link = true) (k : Fin 4) :
    exec (.ethLinkDown e k) s = .next (updEth s e fun p => { p with link := false, cause := k.val, ptp := 0 }) :=
  if_pos (by rw [run, up]; rfl)

variable (enabled : (s.net.port[e]).cfg.enabled = true)
include enabled

theorem exec_ethLinkUp (down : (s.net.port[e]).link = false) {r : Fin 4} (rate : rateOk (s.net.port[e]).cfg.iface r = true) :
    exec (.ethLinkUp e r) s = .next (sendAlarms (linkRaised s e r)) := by
  have goes : (running s && (s.net.port[e]).cfg.enabled && !(s.net.port[e]).link) = true := by rw [run, enabled, down]; rfl
  exact (if_pos goes).trans (if_pos rate)

/-- A check of a port whose link was up sends no alarms. -/
theorem exec_ethPcsCheck (up : (s.net.port[e]).link = true) (good : Bool) :
    exec (.ethPcsCheck e good) s = .next (linkEvent (portChecked s e good) (0xC0 + e.val) good) := by
  have goes : (running s && (s.net.port[e]).cfg.enabled && ((s.net.port[e]).link || (s.net.port[e]).pcsDown)) = true := by
    rw [run, enabled, up]; rfl
  have quiet : ¬ (good && !(s.net.port[e]).link) = true := by simp only [up, Bool.not_true, Bool.and_false, Bool.false_eq_true, not_false_eq_true]
  exact (if_pos goes).trans (congrArg Host.Outcome.next (if_neg quiet))

theorem exec_blockLockLoss (active : s.pwr.ethReset[e] = false) :
    exec (.blockLockLoss e) s = .next (resetEvent (portReset s e) 5 e.val 0x0F ((s.pwr.genEth[e] + 1) % 16)) := by
  have goes : (!running s || !(s.net.port[e]).cfg.enabled) = false := by rw [run, enabled]; rfl
  exact (if_neg (ne_true_of_eq_false goes)).trans (if_neg (ne_true_of_eq_false active))

end

/-! ### The statement -/

/-- Settles O48: each command is one update of the Regulator or of a port, and the alarms that a link was waiting for. -/
theorem timeAndLinks : Obligations.TimeAndLinks := by
  unfold Obligations.TimeAndLinks
  refine ⟨?sync, ?holdover, ?master, ?pdelay, ?frames, ?comesUp, ?staysDown, fun e k s run up => exec_ethLinkDown run up k, ?check, ?lock⟩
  case sync =>
    intro e th y s run live gptp slave
    exact ⟨_, exec_syncRx ⟨run, live, gptp⟩ slave th y, rfl, rfl, rfl, rfl, rfl, rfl, rfl, synced_o s e th y⟩
  case holdover =>
    intro s run locked
    obtain ⟨⟨_, net⟩, c, reg, -⟩ := (raiseAlarm_recordsOnly (holdover (reach s (s.reg.syncC + 3 * syncInterval s))) 0x0011 0xFF 0xFF []).netView
    refine ⟨_, exec_syncReceiptTimeout run locked, reg, ?_, raiseAlarm_alarmed .., c⟩
    rw [net]
    exact bit_orW s.net.status (by decide) (by decide)
  case master =>
    intro e s run live gptp alone may
    have ptp := congrArg EthSt.ptp (updEth_same s e fun p => { p with ptp := 2 })
    exact ⟨_, exec_announce_master ⟨run, live, gptp⟩ alone may, ptp, rfl, rfl, rfl, rfl⟩
  case pdelay =>
    intro e n s run live gptp room
    have stamps := congrArg EthSt.stamps (updEth_same (sendEth s e 0 (n % 65536)) e fun p =>
      { p with stamps := p.stamps ++ [{ ident := n % 65536, kind := 2, time := timeT s }] })
    exact ⟨_, exec_gptpTxInterval_pdelay ⟨run, live, gptp⟩ room n, rfl, stamps, rfl⟩
  case frames =>
    intro e dt s run live
    have goes : ¬ (!running s || !portLive s e) = true := by rw [run, live]; decide
    exact ⟨if_neg goes, if_neg goes, if_neg goes, if_neg goes, if_neg goes, if_neg goes, if_neg goes⟩
  case comesUp =>
    intro e r s run enabled down passed rate hold
    have port := linkRaised_port s e r
    have up : ((linkRaised s e r).net.port[e]).link = true := by rw [port, passed]; rfl
    have cfg : ((linkRaised s e r).net.port[e]).cfg.enabled = true := by rw [port]; exact enabled
    have free : MaySend (linkRaised s e r) := ⟨anyLink_of_port e cfg up, Bool.and_eq_true_iff.2 ⟨run, bne_iff_ne.2 hold⟩⟩
    obtain ⟨alarms, sent⟩ := sendAlarms_counts free
    obtain ⟨_, _, _, _, gone⟩ := sendAlarms_frame (linkRaised s e r)
    refine ⟨_, exec_ethLinkUp run enabled down rate, ?_, ?_, ?_, alarms, sent⟩ <;> rw [gone]
    · exact up
    · exact congrArg EthSt.rate port
    · exact linkRaised_reset s e r
  case staysDown =>
    intro e r s run enabled down failed rate
    have port := linkRaised_port s e r
    obtain ⟨_, _, _, _, gone⟩ := sendAlarms_frame (linkRaised s e r)
    refine ⟨_, exec_ethLinkUp run enabled down rate, ?_, ?_, ?_⟩ <;> rw [gone]
    · exact (congrArg EthSt.link port).trans (by rw [failed]; rfl)
    · exact congrArg EthSt.rate port
    · exact linkRaised_reset s e r
  case check =>
    intro e s run enabled up
    constructor
    · obtain ⟨⟨_, net⟩, c, -, -, mem⟩ := (linkEvent_recordsOnly (portChecked s e true) (0xC0 + e.val) true).netView
      refine ⟨_, exec_ethPcsCheck run enabled up true, ?_, c, mem⟩
      rw [net]
      exact (portChecked_port s e true).trans (checked_of_up up)
    · obtain ⟨⟨_, net⟩, -⟩ := (linkEvent_recordsOnly (portChecked s e false) (0xC0 + e.val) false).netView
      have port := portChecked_port s e false
      refine ⟨_, exec_ethPcsCheck run enabled up false, ?_, ?_, ?_⟩ <;> rw [net]
      · exact congrArg EthSt.link port
      · exact congrArg EthSt.pcsDown port
      · exact congrArg EthSt.checked port
  case lock =>
    intro e s run enabled active
    obtain ⟨⟨_, net⟩, -, -, pwr, mem⟩ := (resetEvent_recordsOnly (portReset s e) 5 e.val 0x0F ((s.pwr.genEth[e] + 1) % 16)).netView
    obtain ⟨port, reset, gen⟩ := portReset_view s e
    refine ⟨_, exec_blockLockLoss run enabled active, ?_, ?_, ?_, ?_, mem⟩
    · rw [net]
      exact congrArg EthSt.link port
    · rw [net]
      exact congrArg EthSt.stamps port
    · rwa [pwr]
    · rwa [pwr]

end Sys2Proof.Machine
end

section
/-! Every command answers (O3). -/

namespace Sys2Proof.Machine

open Sys2Proof

/-- Settles O3: a command moves what it may move, and the queue is not among it. -/
theorem everyCommandAnswers : Obligations.EveryCommandAnswers := fun i s =>
  have ⟨t, answer, queue, _⟩ := exec_answers i s
  ⟨t, answer, queue⟩

end Sys2Proof.Machine
end

section
/-! Device resets (O13): what the reset itself leaves, that phase 0 after it keeps that, and the commands that reset the device. -/

namespace Sys2Proof.Machine

open Sys2Proof

/-! ### What a reset leaves (R13, R535, R543, R563) -/

/-- A device that was reset, and whose crash dump is the one of s (R558, R559). -/
def ResetKeepingDump (s t : State) (cause : Nat) : Prop := AfterDeviceReset s t cause ∧ t.ret.dump = s.ret.dump

theorem resetState_resets (s : State) (cause : Nat) : ResetKeepingDump s (resetState s cause) cause := by
  have wings : ∀ p : Fin 8, (resetState s cause).phys[p] = freshWing s p := fun p => by
    simp only [resetState, Fin.getElem_fin, Vector.getElem_ofFn]
  have cleared : DeviceCleared (resetState s cause) := ⟨rfl, rfl, rfl, rfl, rfl, rfl, rfl, rfl, rfl, rfl, rfl, rfl, rfl, rfl, rfl⟩
  exact ⟨⟨cleared, rfl, rfl, rfl, rfl, rfl, rfl, rfl, rfl, wings⟩, rfl⟩

/-- The part of a state of which AfterDeviceReset speaks, with the crash dump. -/
def resetPart (t : State) : State :=
  { c := t.c, reg := t.reg, img := t.img, imgNew := t.imgNew, mem := t.mem, esc := t.esc, wng := t.wng, lw := t.lw, isp := t.isp
    enc := t.enc, encStatus := t.encStatus, sealer := t.sealer, tst := t.tst, int := t.int, cap := t.cap, pending := t.pending
    fuse := t.fuse, nvm := { slots := t.nvm.slots, active := t.nvm.active }, phys := t.phys
    ret := { intLog := t.ret.intLog, lastCause := t.ret.lastCause, lastKind := t.ret.lastKind, resets := t.ret.resets, dump := t.ret.dump } }

theorem ResetKeepingDump.of_part {s t u : State} {cause : Nat} (h : ResetKeepingDump s t cause) (same : resetPart u = resetPart t) :
    ResetKeepingDump s u cause := by
  have part : ResetKeepingDump s (resetPart t) cause := h
  rw [← same] at part
  exact part

theorem RecordsOnly.resetPart {s t : State} (h : RecordsOnly s t) : resetPart t = resetPart s := by
  obtain ⟨_, _, _, _, _, _, _, _, _, _, _, rfl⟩ := h
  rfl

/-- Of that part, entry to hold stops Beats and work. -/
theorem enterHold_resetPart (s : State) (reason : Nat) : resetPart (enterHold s reason) =
    { resetPart s with esc := { s.esc with phase := .off }, phys := s.phys.map fun p => { p with work := none } } := by
  simp only [resetPart, enterHold, stopBeats, emptyCalendar, stopCameras]

/-- A device that was reset has no Beats and no work that entry to hold could stop. -/
theorem ResetKeepingDump.enterHold {s t : State} {cause : Nat} (h : ResetKeepingDump s t cause) (reason : Nat) :
    ResetKeepingDump s (enterHold t reason) cause := by
  have ⟨⟨⟨_, _, _, _, _, esc, _⟩, _, _, _, _, _, _, _, _, wings⟩, _⟩ := h
  have idle : { t.esc with phase := .off } = t.esc := by rw [esc]
  have without_work : (t.phys.map fun p => { p with work := none }) = t.phys := by
    ext1 p hp
    have wing : t.phys[p] = { role := if bit s.fuse.goodWings p then 2 else 7 } := wings ⟨p, hp⟩
    rw [Vector.getElem_map, wing]
  refine h.of_part ?_
  rw [enterHold_resetPart, idle, without_work]
  rfl

/-! ### Phase 0 after it (R495-R501) -/

theorem phaseOne_resetPart (s : State) (b : BootCfg) : resetPart (phaseOne s b) = resetPart s := by
  unfold phaseOne configured nextGeneration
  split <;> rfl

/-- The records of phase 0, with the alarm of a crash dump where the reset took one. -/
def phaseZeroAlarmed (s : State) (cause : Nat) (dumped : Bool) : State :=
  if dumped then raiseAlarm (phaseZeroRecorded s cause) 0x0104 0xFF 0xFF [BitVec.ofNat 8 cause] else phaseZeroRecorded s cause

theorem phaseZeroAlarmed_recordsOnly (s : State) (cause : Nat) (dumped : Bool) : RecordsOnly s (phaseZeroAlarmed s cause dumped) :=
  .ite ((phaseZeroRecorded_recordsOnly ..).trans (raiseAlarm_recordsOnly ..)) (phaseZeroRecorded_recordsOnly ..)

theorem bootVerified_eq (s : State) (cause : Nat) (dumped : Bool) : bootVerified s cause dumped =
    let t := phaseZeroAlarmed (phaseOne s ((chosenCfg s).getD fallbackCfg)) cause dumped
    if (chosenCfg s).isNone then enterHold t 0x0E else if t.nvm.genWriteOk then t else enterHold t 0x0B := rfl

theorem ResetKeepingDump.boot {s t : State} {cause : Nat} (h : ResetKeepingDump s t cause) (dumped : Bool) :
    ResetKeepingDump s (boot t dumped) cause := by
  have started : ResetKeepingDump s (released t) cause := h
  have recorded : ResetKeepingDump s
      (phaseZeroAlarmed (phaseOne (released t) ((chosenCfg (released t)).getD fallbackCfg)) t.ret.lastCause dumped) cause :=
    started.of_part ((phaseZeroAlarmed_recordsOnly ..).resetPart.trans (phaseOne_resetPart ..))
  unfold Machine.boot
  dsimp only
  split
  · exact h
  · rw [← released, bootVerified_eq]
    dsimp only
    split
    · exact recorded.enterHold 0x0E
    · split
      · exact recorded
      · exact recorded.enterHold 0x0B

theorem deviceReset_resets (s : State) (cause : Nat) (dumped : Bool) : ResetKeepingDump s (deviceReset s cause dumped) cause := by
  unfold deviceReset
  dsimp only
  split
  · exact (resetState_resets s cause).boot dumped
  · exact resetState_resets s cause

/-! ### A crash dump before it (R559) -/

theorem captureDump_eq (s : State) (cause : Nat) : ∃ d missed,
    captureDump s cause = { s with ret := { s.ret with dump := some d, dumpMissed := missed } } := by
  unfold captureDump
  split
  next d held => exact ⟨d, _, by rw [← held]⟩
  next => exact ⟨_, s.ret.dumpMissed, rfl⟩

theorem dumpReset_resets (s : State) (cause : Nat) : AfterDeviceReset s (dumpReset s cause) cause ∧ (dumpReset s cause).ret.dump.isSome = true := by
  obtain ⟨d, missed, captured⟩ := captureDump_eq s cause
  obtain ⟨after, dump⟩ := deviceReset_resets (captureDump s cause) cause s.ret.dump.isNone
  unfold dumpReset
  rw [captured] at after dump ⊢
  exact ⟨after, congrArg Option.isSome dump⟩

/-! ### The commands (R529, R533, R539, R559, R562, R565, R600) -/

/-- A device that was reset and is held in reset. -/
def heldReset (s : State) (cause : Nat) (hot : Bool) : State :=
  let t := resetState s cause
  { t with pwr := { t.pwr with held := true, hot := hot } }

section
variable {s : State}

theorem exec_porstNAssert : exec .porstNAssert s = .next (heldReset { s with pins := { s.pins with porst := false } } 0x01 false) := rfl

theorem exec_warmNAssert (up : s.pwr.held = false) : exec .warmNAssert s = .next (deviceReset s 0x02) :=
  if_neg (by rw [up]; decide)

theorem exec_device {a : Acc} (run : running s = true) (secure : a.secure = true) : exec (.device a) s = .next (deviceReset s 0x07) :=
  (if_pos run).trans (if_pos secure)

/-- The readings of a trip. -/
def tripped (s : State) (tj : Int) : State := { s with therm := { s.therm with tj := tj }, pins := { s.pins with thermLow := true } }

theorem exec_thermalTrip {tj : Int} (trip : tjMax s + 80 ≤ tj) : exec (.thermalTrip tj) s = .next (heldReset (tripped s tj) 0x06 true) :=
  if_pos trip

/-- A rail is listed as at its reset level. -/
def railDown (s : State) (r : Rail) : State := { s with supply := { s.supply with
  down := if s.supply.down.contains r then s.supply.down else s.supply.down ++ [r]
  low := if s.supply.low.any (fun x => x.1 == r) then s.supply.low else s.supply.low ++ [(r, s.c)] } }

theorem railDown_listed (s : State) (r : Rail) : r ∈ (railDown s r).supply.down := by
  unfold railDown
  dsimp only
  split
  next listed => exact List.contains_iff_mem.1 listed
  next => exact List.mem_append_right _ List.mem_cons_self

theorem exec_supplyResetLevel {r : Rail} (device : wingRail r = false) (up : s.pwr.held = false) :
    exec (.supplyResetLevel r) s = .next (heldReset (railDown s r) 0x03 false) :=
  (if_neg (by rw [up]; decide)).trans (if_neg (by rw [device]; decide))

theorem exec_activationDeviceReset {a : Acc} (run : running s = true) (secure : a.secure = true) :
    exec (.activationDeviceReset a) s = .next (deviceReset s 0x09) :=
  congrArg Host.Outcome.next (actionWrite_acts (die := false) run secure nofun fun s => deviceReset s 0x09)

theorem exec_activationSwitchSlot {a : Acc} (run : running s = true) (secure : a.secure = true) :
    exec (.activationSwitchSlot a) s = .next (deviceReset (switchSlot s) 0x09) :=
  congrArg Host.Outcome.next (actionWrite_acts (die := false) run secure nofun fun s => deviceReset (switchSlot s) 0x09)

/-- Crown's reset leaves records and an answer before it resets; in boot halt the answer alone. -/
theorem exec_crownResetDev (live : crownLive s = true) (allowed : crownMayReset s = true) :
    ∃ t, RecordsOnly s t ∧ exec .crownResetDev s = .next (deviceReset (crownOk t) 0x08) := by
  have free : ¬ (!crownLive s) = true := by rw [live]; decide
  have may : ¬ (!crownMayReset s) = true := by rw [allowed]; decide
  by_cases halt : s.sec.bootHalt = true
  · exact ⟨s, .refl s, (if_neg free).trans (if_pos halt)⟩
  · exact ⟨crownEvent s 0xFFFFFFFF 0 0, logEvent_recordsOnly .., (if_neg free).trans ((if_neg halt).trans (if_neg may))⟩

end

/-- Settles O13: each command is a reset of s, or of s with parts changed of which AfterDeviceReset says nothing. -/
theorem deviceResets : Obligations.DeviceResets := by
  unfold Obligations.DeviceResets
  refine ⟨?porst, ?warm, ?device, ?faults, ?trip, ?rail, ?activation, ?crown⟩
  case porst =>
    intro s
    exact ⟨_, exec_porstNAssert, (resetState_resets { s with pins := { s.pins with porst := false } } 0x01).1, rfl, rfl⟩
  case warm =>
    intro s up
    exact ⟨_, exec_warmNAssert up, (deviceReset_resets ..).1⟩
  case device =>
    intro a s run secure
    exact ⟨_, exec_device run secure, (deviceReset_resets ..).1⟩
  case faults =>
    intro s run
    exact ⟨⟨_, if_pos run, dumpReset_resets s 0x05⟩, ⟨_, if_pos run, dumpReset_resets s 0x05⟩, ⟨_, if_pos run, dumpReset_resets s 0x04⟩,
      ⟨_, if_pos run, dumpReset_resets s 0x04⟩⟩
  case trip =>
    intro tj s trip
    exact ⟨_, exec_thermalTrip trip, (resetState_resets (tripped s tj) 0x06).1, rfl, rfl, rfl⟩
  case rail =>
    intro r s device up
    exact ⟨_, exec_supplyResetLevel device up, (resetState_resets (railDown s r) 0x03).1, rfl, railDown_listed s r⟩
  case activation =>
    intro a s run secure
    obtain ⟨after, -⟩ := deviceReset_resets (switchSlot s) 0x09 false
    have active : (deviceReset (switchSlot s) 0x09).nvm.active = (switchSlot s).nvm.active := by
      obtain ⟨-, -, -, -, kept, -⟩ := after
      exact kept
    exact ⟨⟨_, exec_activationDeviceReset run secure, (deviceReset_resets ..).1⟩,
      ⟨_, exec_activationSwitchSlot run secure, after, active.trans rfl⟩⟩
  case crown =>
    intro s live allowed
    obtain ⟨t, recorded, reset⟩ := exec_crownResetDev live allowed
    obtain ⟨after, -⟩ := deviceReset_resets (crownOk t) 0x08 false
    obtain ⟨_, _, _, _, _, _, _, _, _, _, _, rfl⟩ := recorded
    exact ⟨_, reset, after⟩

end Sys2Proof.Machine
end

section
/-! The release of the compute die and a domain's drain timeout (O15). -/

namespace Sys2Proof.Machine

open Sys2Proof

/-! ### The release (R497, R536) -/

/-- The die is out of reset; in hold the phase stays. -/
def dieFreed (s : State) (c : Nat) : State := { reach s (c + 10000) with pwr := { s.pwr with dieSince := none } }

/-- The die is out of reset, and the bring-up gate is open again. -/
def dieRestarted (s : State) (c : Nat) : State := { dieFreed s c with
  sec := { s.sec with phase := 1 }
  start := { s.start with
    dieOnly := s.start.dieOnly || s.sec.phase == 6, gateC := (reach s (c + 10000)).c, ucieDram := false, pass := 0, missing := [] } }

section
variable {s : State} {c : Nat} (reset : s.pwr.dieSince = some c) (run : running s = true)
  (wings : .vddW ∉ s.supply.down) (gallery : .vddG ∉ s.supply.down)
include reset run wings gallery

theorem exec_dieRelease : exec .dieRelease s = .next (if s.sec.phase = 7 then dieFreed s c
    else if s.nvm.genWriteOk then dieRestarted s c else enterHold (dieRestarted s c) 0x0B) := by
  have inRange : (running s && !s.supply.down.contains .vddW && !s.supply.down.contains .vddG) = true := by
    simp only [run, List.contains_eq_mem, wings, gallery, decide_false, Bool.not_false, Bool.and_self]
  simp only [exec, execDieRelease, reset]
  rw [if_pos inRange]
  exact (apply_ite Host.Outcome.next ..).symm

end

/-! ### Drains (R538) -/

theorem exec_domainDrainTimeout {d : Domain} {s : State} (run : running s = true) (reset : domainInReset s d = true) (n : Nat) :
    exec (.domainDrainTimeout d n) s = .next { s with pwr := { s.pwr with stale := satInc s.pwr.stale n } } :=
  if_pos (by rw [run, reset]; rfl)

/-- Settles O15: the release takes one of three ways, by the phase and the write of the generation. -/
theorem dieRelease : Obligations.DieRelease := by
  unfold Obligations.DieRelease
  refine ⟨?restarts, ?hold, ?unwritten, fun d n s run reset => exec_domainDrainTimeout run reset n⟩
  case restarts =>
    intro s c reset run wings gallery phase writes
    rw [exec_dieRelease reset run wings gallery, if_neg phase, if_pos writes]
    rfl
  case hold =>
    intro s c reset run wings gallery phase
    rw [exec_dieRelease reset run wings gallery, if_pos phase]
    rfl
  case unwritten =>
    intro s c reset run wings gallery phase fails
    refine ⟨enterHold (dieRestarted s c) 0x0B, ?_, rfl, enterHold_reason ..⟩
    rw [exec_dieRelease reset run wings gallery, if_neg phase, if_neg (by rw [fails]; decide)]

end Sys2Proof.Machine
end

section
/-! The bring-up gate (O17): its link checks leave records, and it passes at a rate or ends in hold. -/

namespace Sys2Proof.Machine

open Sys2Proof

/-! ### Link checks (R503) -/

theorem RecordsOnly.drawn {s t : State} (h : RecordsOnly s t) (n : Nat) :
    RecordsOnly { s with freeCtr := s.freeCtr + n } { t with freeCtr := t.freeCtr + n } := by
  obtain ⟨_, _, _, _, _, _, _, _, _, _, _, rfl⟩ := h
  exact ⟨_, _, _, _, _, _, _, _, _, _, _, rfl⟩

/-- Each check draws one free value, beside its records. -/
theorem foldl_linkEvent_recordsOnly (l : List Nat) (s : State) (passed : Bool) :
    RecordsOnly { s with freeCtr := s.freeCtr + l.length } (l.foldl (linkEvent · · passed) s) := by
  induction l generalizing s with
  | nil => exact .refl s
  | cons i l ih =>
    have first := (linkEvent_recordsOnly s i passed).drawn l.length
    have rest := ih (linkEvent s i passed)
    rw [List.length_cons, Nat.add_comm l.length, ← Nat.add_assoc]
    exact first.trans rest

/-! ### The gate (R503, R504, R578) -/

/-- The links that the gate checks: the UCIe modules and the DRAM channels. -/
def gateLinks : List Nat := [0x40, 0x41] ++ (List.range 32).map fun c => 0x80 + c

/-- The gate has passed at a rate; t is s with the checks recorded. -/
def gatePassed (t : State) (b : BootCfg) (g : GateResult) (rate : Nat) : State := { t with
  mem := { t.mem with dramCfg := dramWord b g rate }, sec := { t.sec with phase := 2 }, start := { t.start with ucieDram := true } }

section
variable {g : GateResult} {s : State} (run : running s = true) (phase : s.sec.phase = 1)
include run phase

theorem exec_bringupGatePass_passes {rate : Nat} (ucie : g.ucieFail = none) (allowed : (rateSteps s.boot)[g.dramFails]? = some rate) :
    exec (.bringupGatePass g) s = .next (gatePassed (gateLinks.foldl (linkEvent · · true) s)
      (gateLinks.foldl (linkEvent · · true) s).boot g rate) := by
  simp only [exec, execBringupGatePass, run, phase, ucie, allowed, beq_self_eq_true, Bool.and_self, if_true, gatePassed, gateLinks]

theorem exec_bringupGatePass_ucieFails {m : Fin 2} (fails : g.ucieFail = some m) :
    exec (.bringupGatePass g) s = .next (enterHold (linkEvent s (0x40 + m.val) false) 0x0C 0xFF (0x40 + m.val)) := by
  simp only [exec, execBringupGatePass, run, phase, fails, beq_self_eq_true, Bool.and_self, if_true]

theorem exec_bringupGatePass_dramFails (ucie : g.ucieFail = none) (spent : (rateSteps s.boot)[g.dramFails]? = none) :
    exec (.bringupGatePass g) s = .next (enterHold (linkEvent s (0x80 + g.dramChan.val) false) 0x08 0xFF (0x80 + g.dramChan.val)) := by
  simp only [exec, execBringupGatePass, run, phase, ucie, spent, beq_self_eq_true, Bool.and_self, if_true]

end

theorem exec_gateTimeout {x : Byte} {s : State} (run : running s = true) (started : 1 ≤ s.sec.phase) (unready : s.sec.phase ≤ 5)
    (blocked : gateBlocked s x.toNat = true) : exec (.gateTimeout x) s =
    .next (enterHold (reach s (s.start.gateC + s.boot.gateTimeout * 1000000000)) 0x0C 0xFF x.toNat) :=
  if_pos (by simp only [run, started, unready, blocked, and_self, decide_true, Bool.and_self])

/-- Where hold stands: the phase, the reason and the index (R498). -/
theorem enterHold_index (s : State) (reason sect index offset : Nat) : (enterHold s reason sect index offset).sec.phase = 7 ∧
    (enterHold s reason sect index offset).sec.reason = reason ∧ (enterHold s reason sect index offset).sec.index = index := by
  obtain ⟨sec, -⟩ := enterHold_frame s reason sect index offset
  exact ⟨congrArg Security.phase sec, congrArg Security.reason sec, congrArg Security.index sec⟩

/-- Settles O17: the passing gate changes its own parts of a state that differs from s in the checks' records, and the others enter hold. -/
theorem bringUpGate : Obligations.BringUpGate := by
  unfold Obligations.BringUpGate
  refine ⟨?passes, ?ucie, ?dram, ?timeout⟩
  case passes =>
    intro g rate s run phase ucie allowed
    have recorded : RecordsOnly { s with freeCtr := s.freeCtr + 34 } _ := foldl_linkEvent_recordsOnly gateLinks s true
    refine ⟨_, recorded, (exec_bringupGatePass_passes run phase ucie allowed).trans ?_⟩
    obtain ⟨-, -, -, -, -, -, -, -, sec, start, boot, -, -, -, -, -, -, mem, -⟩ := recorded.frame
    rw [gatePassed, mem, sec, start, boot]
  case ucie =>
    intro g m s run phase fails
    exact ⟨_, exec_bringupGatePass_ucieFails run phase fails, enterHold_index ..⟩
  case dram =>
    intro g s run phase ucie spent
    exact ⟨_, exec_bringupGatePass_dramFails run phase ucie spent, enterHold_index ..⟩
  case timeout =>
    intro x s run started unready blocked
    obtain ⟨hold, reason, index⟩ := enterHold_index (reach s (s.start.gateC + s.boot.gateTimeout * 1000000000)) 0x0C 0xFF x.toNat 0
    exact ⟨_, exec_gateTimeout run started unready blocked, hold, reason, index, rfl⟩

end Sys2Proof.Machine
end

section
/-! The image load and the broadcast passes (O19). -/

namespace Sys2Proof.Machine

open Sys2Proof

/-! ### The load (R508, R515) -/

/-- The program digest of the image that is loaded (R511). -/
def digested (s : State) (i : Image) : State := { s with sec := { s.sec with prog := progDigest i } }

section
variable {s : State} (run : running s = true) (phase : s.sec.phase = 3)
include run phase

theorem loadDue : (running s && s.sec.phase == 3) = true := by rw [run, phase]; rfl

theorem exec_imageLoadComplete_absent (absent : activeImage s = none) : exec .imageLoadComplete s = .next (enterHold s 0x01) := by
  refine (if_pos (loadDue run phase)).trans ?_
  rw [absent]

theorem exec_imageLoadComplete_refused {i : Image} {c : Check} (active : activeImage s = some i)
    (fails : loadFail (digested s i) (slotCap s s.nvm.active) i = some c) :
    exec .imageLoadComplete s = .next (enterHold (digested s i) c.reason c.sect 0xFF c.offset) := by
  have found : loadFail (digested s i) (slotCap (digested s i) (digested s i).nvm.active) i = some c := fails
  refine (if_pos (loadDue run phase)).trans ?_
  rw [active]
  dsimp only [digested] at found ⊢
  rw [found]

theorem exec_imageLoadComplete_loads {i : Image} (active : activeImage s = some i)
    (accepted : loadFail (digested s i) (slotCap s s.nvm.active) i = none) : exec .imageLoadComplete s = .next { s with
      img := some i, mem := placeImage s.mem i
      sec := { s.sec with prog := progDigest i, phase := 4, imgSvn := imgSvn i }, start := { s.start with pass := 0, missing := [] } } := by
  have found : loadFail (digested s i) (slotCap (digested s i) (digested s i).nvm.active) i = none := accepted
  refine (if_pos (loadDue run phase)).trans ?_
  rw [active]
  dsimp only [digested] at found ⊢
  rw [found]

end

/-! ### Broadcast passes (R516) -/

/-- The receivers that a pass left with missing chunks. -/
def stillMissing (s : State) (l : List (PWing × List Nat)) : List (PWing × List Nat) :=
  l.filter fun x => (availWings s).contains x.1 && !x.2.isEmpty

/-- A pass that is not the eighth, or that left no receiver, is counted. -/
theorem exec_broadcastPassEnd {l : List (PWing × List Nat)} {s : State} (run : running s = true) (phase : s.sec.phase = 4)
    (goes : s.start.pass + 1 < 8 ∨ stillMissing s l = []) : exec (.broadcastPassEnd l) s =
    .next { s with start := { s.start with pass := s.start.pass + 1, missing := stillMissing s l } } := by
  have due : (running s && s.sec.phase == 4) = true := by rw [run, phase]; rfl
  exact (if_pos due).trans (if_pos goes)

/-- Settles O19: the load has one equation for each outcome of its checks, and a pass one for those that are not the last. -/
theorem loadAndBroadcast : Obligations.LoadAndBroadcast := by
  unfold Obligations.LoadAndBroadcast
  refine ⟨?loads, ?absent, ?refused, fun s run phase => exec_broadcastPassEnd run phase (.inr rfl), ?pass⟩
  case loads =>
    intro i s run phase active accepted
    exact exec_imageLoadComplete_loads run phase active accepted
  case absent =>
    intro s run phase absent
    exact ⟨_, exec_imageLoadComplete_absent run phase absent, enterHold_reason ..⟩
  case refused =>
    intro i c s run phase active fails
    obtain ⟨sec, -⟩ := enterHold_frame (digested s i) c.reason c.sect 0xFF c.offset
    exact ⟨_, exec_imageLoadComplete_refused run phase active fails, congrArg Security.phase sec, congrArg Security.reason sec,
      congrArg Security.sect sec, congrArg Security.offset sec⟩
  case pass =>
    intro l s run phase early
    exact exec_broadcastPassEnd run phase (.inl (Nat.succ_lt_succ early))

end Sys2Proof.Machine
end

section
/-! Staging of an image (O52): the arm and the abort, the offer and the chunks, the NACK, and the verdict on the slot. -/

namespace Sys2Proof.Machine

open Sys2Proof

/-! ### The inactive slot (R508) -/

theorem otherSlot_ne (s : State) : otherSlot s ≠ s.nvm.active := other_ne s.nvm.active

section
variable (s : State) (x : Slot)

theorem setSlot_otherSlot : (s.nvm.slots.set (otherSlot s) x)[otherSlot s] = x := Vector.getElem_set_self ..

theorem setSlot_active : (s.nvm.slots.set (otherSlot s) x)[s.nvm.active] = s.nvm.slots[s.nvm.active] :=
  Vector.getElem_set_ne _ _ fun same => otherSlot_ne s (Fin.ext same)

end

/-! ### Arm, abort and timeout (R525, R527, R532) -/

section
variable {s : State} (run : running s = true)
include run

theorem exec_arm {a : Acc} (secure : a.secure = true) (x : Half) : exec (.arm a x) s = .next (armCore x s) :=
  congrArg Host.Outcome.next (actionWrite_acts (die := false) run secure nofun (armCore x))

theorem exec_abort {a : Acc} (secure : a.secure = true) (first : 1 ≤ s.sec.stage) (last : s.sec.stage ≤ 3) : exec (.abort a) s =
    .next { s with sec := { s.sec with stage := 0, recv := [], offer := none, passEnd := none } } :=
  congrArg Host.Outcome.next ((actionWrite_acts (die := false) run secure nofun abortCore).trans (if_pos ⟨first, last⟩))

theorem exec_stagingTimeout (receiving : s.sec.stage = 2) :
    exec .stagingTimeout s = .next (refuseStaging (reach s (s.sec.chunkC + 60000000000)) 0x10) :=
  if_pos (by rw [run, receiving]; rfl)

/-! ### Reception (R526, R527) -/

/-- A datagram of the armed transfer in the stage that takes it. -/
theorem stagingDue {n : Nat} {x : Half} (stage : s.sec.stage = n) (armed : s.sec.armedId = x) :
    (running s && s.sec.stage == n && s.sec.armedId == x) = true := by
  simp only [run, stage, armed, beq_self_eq_true, Bool.and_self]

section
variable {x : Half} (armed : s.sec.armedId = x)
include armed

theorem exec_imgOffer_misfit {n : Word} {len : Dword} (stage : s.sec.stage = 1)
    (misfit : n.toNat ≠ ceilDiv len.toNat 1280 ∨ slotCap s (otherSlot s) < len.toNat) (d : Digest) :
    exec (.imgOffer x n len d) s = .next (refuseStaging s 5) :=
  congrArg Host.Outcome.next ((if_pos (stagingDue run stage armed)).trans (if_pos misfit))

theorem exec_imgOffer_fits {n : Word} {len : Dword} (stage : s.sec.stage = 1) (chunks : n.toNat = ceilDiv len.toNat 1280)
    (room : len.toNat ≤ slotCap s (otherSlot s)) (some_chunk : n ≠ 0) (d : Digest) : exec (.imgOffer x n len d) s = .next { s with
      nvm := { s.nvm with slots := s.nvm.slots.set (otherSlot s) { state := 1, img := none, data := [] } }
      sec := { s.sec with stage := 2, offer := some { nChunk := n.toNat, len := len.toNat, digest := d }, recv := [], chunkC := s.c } } := by
  have fits : ¬ (n.toNat ≠ ceilDiv len.toNat 1280 ∨ slotCap s (otherSlot s) < len.toNat) :=
    not_or.2 ⟨not_not.2 chunks, Nat.not_lt.2 room⟩
  refine congrArg Host.Outcome.next ((if_pos (stagingDue run stage armed)).trans ((if_neg fits).trans ?_))
  dsimp only [updSec, setSlot]
  rw [if_neg some_chunk]

/-- A slot takes a chunk; one that was there under its number is written over. -/
def chunkStored (x : Slot) (i : Nat) (bs : List Byte) : Slot := { x with data := (i, bs) :: x.data.filter fun c => c.1 != i }

/-- A chunk is in its slot and marked (R526). -/
def chunkTaken (s : State) (o : Offer) (i : Nat) (bs : List Byte) : State := { s with
  nvm := { s.nvm with slots := s.nvm.slots.set (otherSlot s) (chunkStored s.nvm.slots[otherSlot s] i bs) }
  sec := { s.sec with
    recv := insertAsc i s.sec.recv, chunkC := s.c, stage := if (insertAsc i s.sec.recv).length = o.nChunk then 3 else 2 } }

theorem exec_imgData {o : Offer} {i : Nat} {bs : List Byte} (stage : s.sec.stage = 2) (offered : s.sec.offer = some o)
    (inside : i < o.nChunk) (length : bs.length = chunkLen o i) : exec (.imgData x i bs) s = .next (chunkTaken s o i bs) := by
  have due : (running s && s.sec.stage == 2 && s.sec.armedId == x && decide (i < o.nChunk ∧ bs.length = chunkLen o i)) = true :=
    Bool.and_eq_true_iff.2 ⟨stagingDue run stage armed, decide_eq_true ⟨inside, length⟩⟩
  refine congrArg Host.Outcome.next ?_
  simp only [dataCore, offered]
  exact if_pos due

theorem exec_imgPassEnd (stage : s.sec.stage = 2) :
    exec (.imgPassEnd x) s = .next { s with sec := { s.sec with passEnd := some s.c } } :=
  congrArg Host.Outcome.next (if_pos (stagingDue run stage armed))

end

end

/-- The marks are the chunks of before and the new one (R526). -/
theorem mem_insertAsc {i j : Nat} {l : List Nat} : j ∈ insertAsc i l ↔ j = i ∨ j ∈ l := by
  induction l with
  | nil => simp [insertAsc]
  | cons x l ih =>
    unfold insertAsc
    split
    · simp
    · split
      next same => simp [same]
      next => simp [ih, or_left_comm]

/-! ### The NACK (R526, R527) -/

/-- The wait of a NACK is over. -/
def nackDue (s : State) (c : Nat) : State := { reach s (c + devId s % 64 * 1000000) with sec := { s.sec with passEnd := none } }

/-- The ranges that a NACK names. -/
def nackRanges (s : State) (o : Offer) : List (Nat × Nat) := (missingRanges o.nChunk 0 s.sec.recv).take 168

def nackHeader (s : State) (o : Offer) : List Byte :=
  leBytes 2 s.sec.armedId.toNat ++ leBytes 2 (nackRanges s o).length ++ leBytes 4 s.sec.recv.length

theorem nackHeader_length (s : State) (o : Offer) : (nackHeader s o).length = 8 := by
  simp only [nackHeader, List.length_append, leBytes_length]

theorem exec_imgNack {s : State} {c : Nat} {o : Offer} (run : running s = true) (receiving : s.sec.stage = 2) (waits : s.sec.passEnd = some c)
    (offered : s.sec.offer = some o) : exec .imgNack s = .next (sendDg (nackDue s c) 0x33 0
      (nackHeader s o ++ (nackRanges s o).flatMap fun r => leBytes 4 r.1 ++ leBytes 4 r.2)) := by
  have due : (running s && s.sec.stage == 2) = true := by rw [run, receiving]; rfl
  simp only [exec, execImgNack, waits, offered]
  exact if_pos due

/-! ### The verdict (R515, R528) -/

/-- The slot is verified and its stage tells it. -/
def stagedVerified (s : State) (img : Image) : State := { s with
  nvm := { s.nvm with slots := s.nvm.slots.set (otherSlot s) { s.nvm.slots[otherSlot s] with state := 2, img := some img } }
  sec := { s.sec with stage := 4, stageReason := 0, chgOk := changeoverOk s img } }

/-- The slot is empty and its stage tells why. -/
def stagedRefused (s : State) (reason : Nat) : State := { s with
  nvm := { s.nvm with slots := s.nvm.slots.set (otherSlot s) {} }, sec := { s.sec with stage := 5, stageReason := reason, chgOk := false } }

/-- The report of a verification. -/
def verificationReported (t : State) (img : Image) : State :=
  sendDg t 0x34 0 (leBytes 2 t.sec.armedId.toNat ++ leBytes 1 t.sec.stage ++ leBytes 1 t.sec.stageReason ++ leBytes 4 t.sec.recv.length ++
    progDigest img)

section
variable {s : State} {img : Image} (run : running s = true) (received : s.sec.stage = 3)
  (holds : slotMatches s.nvm.slots[otherSlot s] img = true)
include run received holds

theorem verificationDue : (running s && s.sec.stage == 3 && slotMatches s.nvm.slots[otherSlot s] img) = true := by
  rw [run, received, holds]; rfl

theorem exec_stagingVerifyDone_verified (accepted : loadFail s (slotCap s (otherSlot s)) img = none) :
    exec (.stagingVerifyDone img) s = .next (verificationReported (stagedVerified s img) img) := by
  refine (if_pos (verificationDue run received holds)).trans ?_
  rw [accepted]
  rfl

theorem exec_stagingVerifyDone_refused {c : Check} (fails : loadFail s (slotCap s (otherSlot s)) img = some c) :
    exec (.stagingVerifyDone img) s = .next (verificationReported (stagedRefused s c.reason) img) := by
  refine (if_pos (verificationDue run received holds)).trans ?_
  rw [fails]
  rfl

end

/-- Settles O52: each command of staging is one update of the inactive slot and of the staging fields. -/
theorem imageStaging : Obligations.ImageStaging := by
  unfold Obligations.ImageStaging
  refine ⟨fun a x s run secure => exec_arm run secure x, ?fits, ?misfit, ?chunk, fun x s run stage armed => exec_imgPassEnd run armed stage,
    ?nack, fun s run receiving => exec_stagingTimeout run receiving, ?verdict, fun a s run secure first last => exec_abort run secure first last⟩
  case fits =>
    intro x n len d s run stage armed chunks room some_chunk
    exact exec_imgOffer_fits run armed stage chunks room some_chunk d
  case misfit =>
    intro x n len d s run stage armed misfit
    exact exec_imgOffer_misfit run armed stage misfit d
  case chunk =>
    intro x i bs o s run stage armed offered inside length
    refine ⟨_, exec_imgData run armed stage offered inside length, fun j => mem_insertAsc, rfl, rfl, ?_, setSlot_active .., rfl⟩
    have slot : (chunkTaken s o i bs).nvm.slots[otherSlot s] = _ := setSlot_otherSlot ..
    rw [slot]
    exact List.mem_cons_self
  case nack =>
    intro c o s run receiving waits offered
    exact ⟨_, _, exec_imgNack run receiving waits offered, rfl, rfl, rfl, rfl, rfl, List.drop_left' (nackHeader_length s o)⟩
  case verdict =>
    intro img s run received holds
    cases judged : loadFail s (slotCap s (otherSlot s)) img with
    | none =>
      exact ⟨_, _, exec_stagingVerifyDone_verified run received holds judged, rfl, rfl, rfl, setSlot_active ..,
        fun _ => ⟨rfl, rfl, setSlot_otherSlot ..⟩, nofun⟩
    | some c =>
      refine ⟨_, _, exec_stagingVerifyDone_refused run received holds judged, rfl, rfl, rfl, setSlot_active .., nofun, ?_⟩
      rintro _ ⟨⟩
      exact ⟨rfl, rfl, setSlot_otherSlot ..⟩

end Sys2Proof.Machine
end

section
/-! Owner key slots (R513): which may be written, and what a write and a revocation change. -/

namespace Sys2Proof.Machine

open Sys2Proof

/-- While no owner slot is written, each of them is free. -/
theorem ownerSlot_unwritten {s : State} {j : Fin 8} (none_written : ownerWritten s = false) (owner : 2 ≤ j.val) :
    (s.fuse.keys[j]).written = false := by
  have mem : s.fuse.keys[j] ∈ s.fuse.keys.toList.drop 2 :=
    List.mem_drop_iff_getElem.2 ⟨j.val - 2, by simp; omega, by simp [Nat.add_sub_cancel' owner]⟩
  exact Bool.eq_false_iff.2 (List.any_eq_false.1 none_written _ mem)

/-- The fuses with one key slot changed. -/
def withKey (f : Fuses) (j : Fin 8) (g : KeySlot → KeySlot) : Fuses := { f with keys := vUpd f.keys j g }

theorem withKey_same (f : Fuses) (j : Fin 8) (g : KeySlot → KeySlot) : (withKey f j g).keys[j] = g f.keys[j] :=
  (vUpd_getElem ..).trans (if_pos rfl)

theorem withKey_other (f : Fuses) {j k : Fin 8} (other : k ≠ j) (g : KeySlot → KeySlot) : (withKey f j g).keys[k] = f.keys[k] :=
  (vUpd_getElem ..).trans (if_neg fun same => other (Fin.ext same.symm))

theorem vGet?_key (f : Fuses) (j : Fin 8) : vGet? f.keys j.val = some f.keys[j] := by simp [vGet?]

/-- A free owner slot takes a key. -/
theorem writeKey_free {s : State} {j : Fin 8} (owner : 2 ≤ j.val) (free : (s.fuse.keys[j]).written = false) {usage : Nat} (usages : usage < 16)
    (alg : Bool) (hash : Digest) : writeKey s j.val alg usage hash =
    ({ s with fuse := withKey s.fuse j fun k => { k with hash := hash, alg := alg, usage := usage, written := true } }, true) := by
  have takes : ¬ (j.val < 2 ∨ (s.fuse.keys[j]).written = true ∨ 16 ≤ usage) := by
    rw [free]
    rintro (low | ⟨⟨⟩⟩ | beyond) <;> omega
  unfold writeKey
  rw [vGet?_key]
  exact if_neg takes

end Sys2Proof.Machine
end

section
/-! The secure mailbox (O54): an operation ends in mboxDone, after what it checks and changes. -/

namespace Sys2Proof.Machine

open Sys2Proof

/-! ### The input (R532) -/

theorem mboxIn_of_length {s : State} {n : Nat} (length : s.sec.mboxLen = n) (fits : n ≤ 8192) : mboxIn s = memReads s.sec.mboxBuf 0 n := by
  have all : Nat.min 8192 n = n := Nat.min_eq_right fits
  rw [mboxIn, length, all]

theorem leAt_memReads_first (m : Memory) {n : Nat} (some_byte : 0 < n) : leAt (memReads m 0 n) 0 1 = (memRead m 0).toNat := by
  obtain ⟨n, rfl⟩ := Nat.exists_eq_succ_of_ne_zero some_byte.ne'
  simp [leAt, memReads, List.range_succ_eq_map, fromLe]

theorem memReads_drop_take (m : Memory) (a n k l : Nat) (inside : k + l ≤ n) : ((memReads m a n).drop k).take l = memReads m (a + k) l := by
  refine List.ext_getElem (by simp; omega) fun i _ _ => ?_
  simp [memReads, Nat.add_assoc]

/-! ### A command runs its operation (R521, R522, R524) -/

section
variable {s : State} {a : Acc} (run : running s = true)
include run

theorem exec_getCert : exec (.getCert a) s = .next (mboxDone s 1 0 (s.nvm.cert ++ attestStatement s)) :=
  congrArg Host.Outcome.next (if_pos run)

theorem exec_attest (length : s.sec.mboxLen = 32) : exec (.attest a) s = .next (mboxDone s 2 0
    (attestReport s (memReads s.sec.mboxBuf 0 32) ++
      Config.mlDsaSign (akSeed s) "OPCN-ATTEST" (attestReport s (memReads s.sec.mboxBuf 0 32)))) := by
  refine congrArg Host.Outcome.next ((if_pos run).trans ?_)
  rw [opAttest, if_neg (not_not.2 length), mboxIn_of_length length (by decide)]

theorem exec_attest_length (length : s.sec.mboxLen ≠ 32) : exec (.attest a) s = .next (mboxDone s 2 3) :=
  congrArg Host.Outcome.next ((if_pos run).trans (if_pos length))

theorem exec_openSession : exec (.openSession a) s = .next (opOpen s) := congrArg Host.Outcome.next (if_pos run)

theorem exec_finish : exec (.finish a) s = .next (opFinish s) := congrArg Host.Outcome.next (if_pos run)

theorem exec_close : exec (.close a) s = .next (opClose s a.secure) := congrArg Host.Outcome.next (if_pos run)

theorem exec_keyWrite : exec (.keyWrite a) s = .next (opKeyWrite s a) := congrArg Host.Outcome.next (if_pos run)

theorem exec_keyRevoke : exec (.keyRevoke a) s = .next (opKeyRevoke s a.secure) := congrArg Host.Outcome.next (if_pos run)

end

/-! ### Sessions (R522) -/

theorem randomBytes_state (n : Nat) (s : State) : (randomBytes n s).2 = { s with freeCtr := s.freeCtr + n } := by
  induction n generalizing s with
  | zero => rfl
  | succ n ih =>
    refine (ih { s with freeCtr := s.freeCtr + 1 }).trans ?_
    rw [Nat.add_right_comm]
    rfl

/-- The opening that an OPEN with ML-DSA-44 leaves (R522). -/
def openingOf (s : State) : Opening :=
  { id := s.sec.nextId, alg := false, pk := memReads s.sec.mboxBuf 1 1312, hostNonce := (memReads s.sec.mboxBuf 0 1345).drop 1313
    nonce := (randomBytes 4 { s with freeCtr := s.freeCtr + 1 }).1, draw := s.freeCtr, atC := s.c }

theorem openingOf_pk (s : State) : (openingOf s).pk = memReads s.sec.mboxBuf 1 1312 := by simp only [openingOf]

/-- The state with that opening alone. -/
def sessionOpening (s : State) : State := { s with
  freeCtr := s.freeCtr + 1 + 4, sec := { s.sec with openings := [openingOf s], nextId := s.sec.nextId % (2 ^ 32 - 1) + 1 } }

section
variable {s : State} (length : s.sec.mboxLen = 1345) (alg : (memRead s.sec.mboxBuf 0).toNat = 44)
include length alg

theorem mboxIn_of_open : mboxIn s = memReads s.sec.mboxBuf 0 1345 ∧ leAt (mboxIn s) 0 1 = 44 ∧ (mboxIn s).length = 1345 := by
  have input := mboxIn_of_length length (by decide)
  rw [input]
  exact ⟨rfl, (leAt_memReads_first _ (by decide)).trans alg, memReads_length ..⟩

variable (alone : s.sec.openings = [])
include alone

theorem opOpen_full (full : 4 ≤ (s.sec.sessions.filter (sessionLive s)).length) : opOpen s = mboxDone s 3 2 := by
  obtain ⟨-, first, size⟩ := mboxIn_of_open length alg
  unfold opOpen
  dsimp only
  rw [first, size, alone]
  exact (if_neg (by decide)).trans (if_pos full)

theorem opOpen_room (room : (s.sec.sessions.filter (sessionLive s)).length < 4) : ∃ out, opOpen s = mboxDone (sessionOpening s) 3 0 out := by
  obtain ⟨input, first, size⟩ := mboxIn_of_open length alg
  have sound : ¬ (44 ≠ 44 ∧ 44 ≠ 65 ∨ 1345 ≠ 1 + (if 44 = 44 then 1312 else 1952) + 32) := by decide
  have key : ((mboxIn s).drop 1).take 1312 = memReads s.sec.mboxBuf 1 1312 := by rw [input, memReads_drop_take _ _ _ _ _ (by decide)]
  have free : ¬ 4 ≤ (s.sec.sessions.filter (sessionLive s)).length + ([] : List Opening).length := Nat.not_le.2 room
  unfold opOpen
  dsimp only
  rw [first, size, alone, List.filter_nil, if_neg sound, if_neg free, randomBytes_state, if_pos rfl, key, input]
  exact ⟨_, rfl⟩

end

/-- The opening of the input's session is taken. -/
def openingTaken (s : State) : State := { s with sec := { s.sec with
  openings := s.sec.openings.filter fun y => y.id != leAt (mboxIn s) 0 4 } }

theorem opFinish_unknown {s : State} (unknown : (s.sec.openings.find? fun o => o.id == leAt (mboxIn s) 0 4) = none) :
    opFinish s = mboxDone s 4 2 := by
  simp only [opFinish, unknown]

/-- The signature of a FINISH verifies (R522). -/
def finishVerifies (s : State) (o : Opening) : Bool :=
  Config.mlDsaVerify o.alg o.pk "OPCN-SESS"
    (((mboxIn s).drop 4).take 1088 ++ o.hostNonce ++ o.nonce ++ leBytes 4 (leAt (mboxIn s) 0 4)) ((mboxIn s).drop 1092)

/-- The session that a FINISH opens with the secret that both share (R522). -/
def sessionOpened (s : State) (o : Opening) (secret : List Byte) : State :=
  { openingTaken s with sec := { (openingTaken s).sec with sessions := s.sec.sessions ++ [{
      id := leAt (mboxIn s) 0 4, key := sha3 (ascii "OPCN-K" ++ secret ++ o.hostNonce ++ o.nonce), nextReq := 0, lastC := s.c }] } }

section
variable {s : State} {o : Opening} (found : (s.sec.openings.find? fun o => o.id == leAt (mboxIn s) 0 4) = some o)
include found

theorem opFinish_unverified (bad : finishVerifies s o = false) : opFinish s = mboxDone (openingTaken s) 4 2 := by
  simp only [opFinish, found]
  exact if_pos (.inr (.inr (.inr bad)))

end

section
variable {s : State} {o : Opening} (inTime : s.c ≤ o.atC + 10000000000) (long : 1092 ≤ s.sec.mboxLen) (host : hostKeyOk s o = true)
  (verified : finishVerifies s o = true)
include inTime long host verified

theorem finish_checked : ¬ (o.atC + 10000000000 < s.c ∨ (mboxIn s).length < 1092 ∨ hostKeyOk s o = false ∨ finishVerifies s o = false) := by
  have length : 1092 ≤ (mboxIn s).length := by
    rw [mboxIn, memReads_length]
    exact Nat.le_min.2 ⟨by decide, long⟩
  rw [host, verified]
  rintro (late | short | ⟨⟨⟩⟩ | ⟨⟨⟩⟩)
  · exact Nat.not_lt.2 inTime late
  · exact Nat.not_lt.2 length short

variable (found : (s.sec.openings.find? fun o => o.id == leAt (mboxIn s) 0 4) = some o)
include found

theorem opFinish_noSecret (none_shared : Config.mlKemDecaps o.draw (((mboxIn s).drop 4).take 1088) = none) :
    opFinish s = mboxDone (openingTaken s) 4 2 := by
  simp only [opFinish, found]
  refine (if_neg (finish_checked inTime long host verified)).trans ?_
  rw [none_shared]
  rfl

theorem opFinish_opens {secret : List Byte} (shared : Config.mlKemDecaps o.draw (((mboxIn s).drop 4).take 1088) = some secret) :
    opFinish s = mboxDone (sessionOpened s o secret) 4 0 := by
  simp only [opFinish, found]
  refine (if_neg (finish_checked inTime long host verified)).trans ?_
  rw [shared]
  rfl

end

theorem opClose_live {s : State} (length : s.sec.mboxLen = 4)
    (live : ∃ x ∈ s.sec.sessions, x.id = leAt (memReads s.sec.mboxBuf 0 4) 0 4 ∧ sessionLive s x = true) : opClose s true =
    mboxDone { s with sec := { s.sec with sessions := s.sec.sessions.filter fun y => y.id != leAt (memReads s.sec.mboxBuf 0 4) 0 4 } } 5 0 := by
  obtain ⟨x, mem, same, alive⟩ := live
  have found : (s.sec.sessions.any fun x => x.id == leAt (memReads s.sec.mboxBuf 0 4) 0 4 && sessionLive s x) = true :=
    List.any_eq_true.2 ⟨x, mem, Bool.and_eq_true_iff.2 ⟨beq_iff_eq.2 same, alive⟩⟩
  unfold opClose
  rw [mboxIn_of_length length (by decide)]
  exact (if_neg (by decide)).trans ((if_neg (not_not.2 length)).trans (if_pos found))

theorem exec_sessionIdleTimeout {id : Word} {x : Session} {s : State} (run : running s = true)
    (found : s.sec.sessions.find? (fun y => y.id == id.toNat) = some x) : exec (.sessionIdleTimeout id) s =
    .next { reach s (x.lastC + 600000000000) with sec := { s.sec with sessions := s.sec.sessions.filter fun z => z.id != id.toNat } } := by
  simp only [exec, execSessionIdleTimeout, found]
  exact if_pos run

/-! ### Keys (R513, R524) -/

/-- Who may write an owner key: Crown the first, a secure session the others. -/
theorem keyWriteAllowed {s : State} {a : Acc} (world : if ownerWritten s then a.secure = true else a.who = .crown) :
    (if ownerWritten s then a.secure else a.who == .crown) = true := by
  split at world
  next written => rwa [if_pos written]
  next unwritten => rw [if_neg unwritten, world]; rfl

theorem opKeyWrite_writes {s : State} {a : Acc} {j : Fin 8} (world : if ownerWritten s then a.secure = true else a.who = .crown)
    (length : s.sec.mboxLen = 35) (owner : 2 ≤ j.val) (free : (s.fuse.keys[j]).written = false)
    (slot : leAt (memReads s.sec.mboxBuf 0 35) 0 1 = j.val) (usages : leAt (memReads s.sec.mboxBuf 0 35) 2 1 < 16) : ∃ alg,
    opKeyWrite s a = mboxDone { s with fuse := withKey s.fuse j fun k => { k with
      hash := (memReads s.sec.mboxBuf 0 35).drop 3, alg := alg, usage := leAt (memReads s.sec.mboxBuf 0 35) 2 1, written := true } } 6 0 := by
  have allowed : ¬ (!(if ownerWritten s then a.secure else a.who == .crown)) = true := by rw [keyWriteAllowed world]; decide
  have size : ¬ (memReads s.sec.mboxBuf 0 35).length ≠ 35 := not_not.2 (memReads_length ..)
  unfold opKeyWrite
  rw [mboxIn_of_length length (by decide)]
  refine ⟨leAt (memReads s.sec.mboxBuf 0 35) 1 1 == 1, (if_neg allowed).trans ((if_neg size).trans ?_)⟩
  rw [slot, writeKey_free owner free usages]
  rfl

theorem opKeyWrite_nonsecure {s : State} {a : Acc} (written : ownerWritten s = true) (world : a.secure = false) :
    opKeyWrite s a = mboxDone s 6 2 :=
  if_pos (by rw [written, world]; rfl)

section
variable {s : State} {j : Fin 8} (length : s.sec.mboxLen = 1) (slot : leAt (memReads s.sec.mboxBuf 0 1) 0 1 = j.val)
include length slot

theorem opKeyRevoke_revokes (owner : 2 ≤ j.val) (written : (s.fuse.keys[j]).written = true) (unrevoked : (s.fuse.keys[j]).revoked = false)
    (spare : bit (s.fuse.keys[j]).usage 1 = false ∨ 2 ≤ imageKeys s) : opKeyRevoke s true =
    mboxDone { s with fuse := withKey s.fuse j fun k => { k with revoked := true } } 7 0 := by
  have may : ¬ (j.val < 2 ∨ (s.fuse.keys[j]).written = false ∨ (s.fuse.keys[j]).revoked = true ∨
      (bit (s.fuse.keys[j]).usage 1 = true ∧ imageKeys s ≤ 1)) := by
    rw [written, unrevoked]
    rintro (low | ⟨⟨⟩⟩ | ⟨⟨⟩⟩ | ⟨image, last⟩)
    · omega
    · exact spare.elim (fun other => Bool.noConfusion (image.symm.trans other)) (by omega)
  unfold opKeyRevoke
  rw [mboxIn_of_length length (by decide), slot]
  dsimp only
  rw [vGet?_key]
  exact (if_neg (by decide)).trans ((if_neg (not_not.2 length)).trans (if_neg may))

theorem opKeyRevoke_lastImageKey (image : bit (s.fuse.keys[j]).usage 1 = true) (last : imageKeys s ≤ 1) :
    opKeyRevoke s true = mboxDone s 7 2 := by
  unfold opKeyRevoke
  rw [mboxIn_of_length length (by decide), slot]
  dsimp only
  rw [vGet?_key]
  exact (if_neg (by decide)).trans ((if_neg (not_not.2 length)).trans (if_pos (.inr (.inr (.inr ⟨image, last⟩)))))

end

/-! ### Unused operations and the data port (R524, R532) -/

theorem mboxGo_unused (s : State) (a : Acc) {op : Nat} (unused : op = 0 ∨ 8 ≤ op) :
    mboxGo s a op = { s with sec := { s.sec with mboxOp := op, mboxStatus := 3 } } := by
  unfold mboxGo
  split
  case h_8 => rfl
  all_goals omega

theorem exec_mboxNoOperation {s : State} (run : running s = true) (a : Acc) {op : Fin 16} (unused : op = 0 ∨ 8 ≤ op.val) :
    exec (.mboxNoOperation a op) s = .next { s with sec := { s.sec with mboxOp := op, mboxStatus := 3 } } := by
  have due : (running s && (op == 0 || decide (8 ≤ op.val))) = true := by
    simpa only [run, Bool.true_and, Bool.or_eq_true, beq_iff_eq, decide_eq_true_eq]
  exact congrArg Host.Outcome.next ((if_pos due).trans (mboxGo_unused s a (unused.imp_left (congrArg Fin.val))))

/-- Settles O54: each operation has an equation for each of its outcomes, and ends in mboxDone. -/
theorem mailboxOperations : Obligations.MailboxOperations := by
  unfold Obligations.MailboxOperations
  intro Done
  refine ⟨fun a s run => ⟨_, exec_getCert run, rfl⟩, fun a s run length => ⟨_, exec_attest run length, rfl⟩,
    fun a s run length => ⟨_, exec_attest_length run length, rfl⟩, ?opens, ?unknown, ?finish, ?close, ?closeNonsecure, ?keyWrite,
    ?keyNonsecure, ?keyRevoke, fun a op s run unused => exec_mboxNoOperation run a unused,
    fun a v s run => congrArg Host.Outcome.next (if_pos run), fun id x s run found => exec_sessionIdleTimeout run found⟩
  case opens =>
    intro a s run length alg alone
    rw [exec_openSession run]
    constructor
    · intro room
      obtain ⟨out, opened⟩ := opOpen_room length alg alone room
      rw [opened]
      exact ⟨_, openingOf s, rfl, rfl, rfl, rfl, rfl, rfl, rfl, openingOf_pk s, rfl, rfl⟩
    · intro full
      rw [opOpen_full length alg alone full]
      exact ⟨_, rfl, rfl⟩
  case unknown =>
    intro a s run unknown
    rw [exec_finish run, opFinish_unknown unknown]
    exact ⟨_, rfl, rfl⟩
  case finish =>
    rintro a o ct sig s u run found inTime long host rfl rfl rfl
    rw [exec_finish run]
    cases verified : finishVerifies s o with
    | false =>
      rw [opFinish_unverified found verified]
      unfold finishVerifies at verified
      rw [verified]
      exact ⟨_, rfl, rfl⟩
    | true =>
      cases shared : Config.mlKemDecaps o.draw (((mboxIn s).drop 4).take 1088) with
      | none =>
        rw [opFinish_noSecret inTime long host verified found shared]
        unfold finishVerifies at verified
        rw [verified]
        exact ⟨_, rfl, rfl⟩
      | some secret =>
        rw [opFinish_opens inTime long host verified found shared]
        unfold finishVerifies at verified
        rw [verified]
        exact ⟨_, rfl, rfl⟩
  case close =>
    intro a s run secure length live
    rw [exec_close run, secure, opClose_live length live]
    exact ⟨_, rfl, rfl⟩
  case closeNonsecure =>
    intro a s run world
    rw [exec_close run, world]
    exact ⟨_, rfl, rfl⟩
  case keyWrite =>
    intro a s j run world length owner free slot usages
    obtain ⟨alg, wrote⟩ := opKeyWrite_writes world length owner free slot usages
    have key := withKey_same s.fuse j fun k => { k with
      hash := (memReads s.sec.mboxBuf 0 35).drop 3, alg := alg, usage := leAt (memReads s.sec.mboxBuf 0 35) 2 1, written := true }
    rw [exec_keyWrite run, wrote]
    exact ⟨_, rfl, rfl, congrArg KeySlot.written key, congrArg KeySlot.hash key, fun k other => withKey_other s.fuse other _, rfl, rfl⟩
  case keyNonsecure =>
    intro a s run written world
    rw [exec_keyWrite run, opKeyWrite_nonsecure written world]
    exact ⟨_, rfl, rfl⟩
  case keyRevoke =>
    intro a s j run secure length slot owner written unrevoked
    rw [exec_keyRevoke run, secure]
    constructor
    · intro spare
      rw [opKeyRevoke_revokes length slot owner written unrevoked spare]
      exact ⟨_, rfl, rfl, withKey_same .., fun k other => withKey_other s.fuse other _⟩
    · intro image last
      rw [opKeyRevoke_lastImageKey length slot image last]
      exact ⟨_, rfl, rfl⟩

end Sys2Proof.Machine
end

section
/-! Crown (O58): what each command answers while the management cores run, and that boot halt answers err 3. -/

namespace Sys2Proof.Machine

open Sys2Proof

/-! ### Who answers (R562) -/

theorem crownRun_runs {s : State} (run : running s = true) (f : State → State) : crownRun s f = .next (f s) := by
  obtain ⟨up, awake⟩ := Bool.and_eq_true_iff.1 run
  have live : ¬ (!crownLive s) = true := by rw [crownLive, up]; decide
  have cores : ¬ s.sec.bootHalt = true := Bool.eq_false_iff.1 ((Bool.not_eq_true' _).mp awake)
  rw [crownRun, if_neg live, if_neg cores]

theorem crownRun_halted {s : State} (live : crownLive s = true) (halt : s.sec.bootHalt = true) (f : State → State) :
    crownRun s f = .next (crownErr s 3) := by
  rw [crownRun, live, if_neg (by decide), if_pos halt]

/-! ### Reads (R561, R573) -/

theorem dropCapture_of_none {s : State} (none_held : s.cap = []) (w : Who) : dropCapture s w = s := by
  rw [dropCapture, none_held, List.filter_nil, ← none_held]

theorem readWord_of_plain {s : State} {a : Nat} (mailbox : a ≠ 0xC0308) (plain : isLo a = false) (none_held : s.cap = []) (w : Who) :
    readWord s w a = (readReg s a, s) := by
  have state : (readWord s w a).2 = s := by
    rw [readWord_state mailbox, plain, if_neg (by decide), dropCapture_of_none none_held]
  have value : (readWord s w a).1 = readReg s a := by simp only [readWord, none_held, List.find?_nil]
  exact Prod.ext value state

section
variable {s : State} (run : running s = true)
include run

theorem exec_crownRd_word {a v : Word} (aligned : a.toNat % 4 = 0) (mailbox : a.toNat ≠ 0xC0308) (plain : isLo a.toNat = false)
    (none_held : s.cap = []) (mapped : readReg s a.toNat = some v) : exec (.crownRd a 1) s = .next (crownOk s [hexN 8 v.toNat]) := by
  have inSpace : ¬ (1 = 0 ∨ 64 < 1 ∨ a.toNat % 4 ≠ 0 ∨ 0xFFFFFFFC < a.toNat + 4 * (1 - 1)) := by
    have below := a.isLt
    omega
  have word : readBlock s .crown a.toNat 1 = (s, [v], 0) := by
    simp only [readBlock, readWord_of_plain mailbox plain none_held, mapped, Option.getD_some, Option.isNone_some, Bool.false_eq_true, if_false]
  change execCrownRd a 1 s = _
  rw [execCrownRd, crownRun_runs run, if_neg inSpace, word]
  rfl

/-! ### Writes (R561, R562) -/

theorem exec_crownWr_forbidden {a : Word} (aligned : a.toNat % 4 = 0) (off : s.recd.crownWrite = false) (service : s.sec.phase ≠ 7) (v : Word) :
    exec (.crownWr a v) s = .next (crownErr (crownEvent s a.toNat v.toNat 3) 3) := by
  have forbidden : (!s.recd.crownWrite && s.sec.phase != 7) = true := by rw [off, bne_iff_ne.2 service]; rfl
  change execCrownWr a v s = _
  rw [execCrownWr, crownRun_runs run, if_neg (not_not.2 aligned), if_pos forbidden]

/-- What an allowed write answers, by the status of the register's write. -/
def crownWritten (x : State × Nat) (a v : Word) : State :=
  if x.2 = 0 then crownOk (crownEvent x.1 a.toNat v.toNat 0)
  else if x.2 = 1 then crownErr (crownEvent x.1 a.toNat v.toNat 4) 4 else crownErr (crownEvent x.1 a.toNat v.toNat 3) 3

theorem exec_crownWr_allowed {a v : Word} (aligned : a.toNat % 4 = 0) (allowed : s.recd.crownWrite = true ∨ s.sec.phase = 7)
    (used : (writeReg (dropCapture s .crown) { who := .crown } a.toNat v).2 ≤ 2) : exec (.crownWr a v) s =
    .next (crownWritten (writeReg (dropCapture s .crown) { who := .crown } a.toNat v) a v) := by
  have open_to_crown : ¬ (!s.recd.crownWrite && s.sec.phase != 7) = true := by
    rcases allowed with on | hold <;> simp [*]
  change execCrownWr a v s = _
  rw [execCrownWr, crownRun_runs run, if_neg (not_not.2 aligned), if_neg open_to_crown]
  generalize writeReg (dropCapture s .crown) { who := .crown } a.toNat v = x at used ⊢
  obtain ⟨t, status⟩ := x
  match status, used with
  | 0, _ => rfl
  | 1, _ => rfl
  | 2, _ => rfl

/-! ### Logs, keys and the rate (R513, R559, R561) -/

theorem exec_crownLog {n : Nat} (some_record : 1 ≤ n) (inLog : n ≤ 8192) : exec (.crownLog n) s =
    .next (crownOk s ((s.recd.live.drop (s.recd.live.length - n)).map fun r => hexBytes (eventBytes r))) := by
  have counted : ¬ (n = 0 ∨ 8192 < n) := by omega
  change execCrownLog n s = _
  rw [execCrownLog, crownRun_runs run, if_neg counted]

theorem exec_crownIlog {i : Nat} {r : Report} (present : s.ret.intLog[i]? = some r) :
    exec (.crownIlog i) s = .next (crownOk s [hexBytes (reportBytes r)]) := by
  change execCrownIlog i s = _
  rw [execCrownIlog, crownRun_runs run, present]

theorem exec_crownDump_none (none_stored : s.ret.dump = none) (raw : Bool) : exec (.crownDump raw) s = .next (crownOk s [ascii "none"]) := by
  change execCrownDump raw s = _
  rw [execCrownDump, crownRun_runs run, none_stored]

theorem exec_crownKey_writes {j : Fin 8} {u : Nat} (none_written : ownerWritten s = false) (owner : 2 ≤ j.val) (usages : u < 16) (alg : Bool)
    (h : Digest) : exec (.crownKey j.val alg u h) s =
    .next (crownOk { s with fuse := withKey s.fuse j fun k => { k with hash := h, alg := alg, usage := u, written := true } }) := by
  have first : ¬ ownerWritten s = true := Bool.eq_false_iff.1 none_written
  change execCrownKey j.val alg u h s = _
  rw [execCrownKey, crownRun_runs run, if_neg first, writeKey_free owner (ownerSlot_unwritten none_written owner) usages]
  rfl

theorem exec_crownKey_refused (written : ownerWritten s = true) (j : Nat) (alg : Bool) (u : Nat) (h : Digest) :
    exec (.crownKey j alg u h) s = .next (crownErr s 3) := by
  change execCrownKey j alg u h s = _
  rw [execCrownKey, crownRun_runs run, if_pos written]

theorem exec_crownBaud {n : Nat} (listed : n ∈ [115200, 230400, 460800, 921600, 1500000, 3000000]) : exec (.crownBaud n) s =
    .next { crownOk s with recd := { (crownOk s).recd with baud := n } } := by
  change execCrownBaud n s = _
  rw [execCrownBaud, crownRun_runs run, if_pos (List.contains_iff_mem.2 listed)]

end

theorem exec_crownId {s : State} (live : crownLive s = true) : exec .crownId s =
    .next (crownOk s [hexN 8 (idPart s).toNat, hexN 16 (devId s), hexN 8 (firmware s).version, hexN 1 s.sec.phase]) :=
  congrArg Host.Outcome.next (if_pos live)

/-- Settles O58: each command is its own answer where the cores run, and err 3 in boot halt. -/
theorem crownCommands : Obligations.CrownCommands := by
  unfold Obligations.CrownCommands
  intro Said
  refine ⟨fun s live => ⟨_, exec_crownId live, _, rfl⟩, fun a v s run => exec_crownRd_word run, ?log, fun i r s run => exec_crownIlog run,
    fun s run => exec_crownDump_none run, ?allowed, fun a v s run aligned off service => exec_crownWr_forbidden run aligned off service v, ?key,
    fun j u alg h s run written => exec_crownKey_refused run written j alg u h, ?baud, ?lineError, ?halted⟩
  case log =>
    intro n s run some_record inLog
    exact ⟨_, exec_crownLog run some_record inLog, ⟨_, rfl⟩, rfl⟩
  case allowed =>
    rintro a v s x run aligned allowed rfl used
    exact exec_crownWr_allowed run aligned allowed used
  case key =>
    intro j alg u h s run none_written owner usages
    have key := withKey_same s.fuse j fun k => { k with hash := h, alg := alg, usage := u, written := true }
    exact ⟨_, exec_crownKey_writes run none_written owner usages alg h, congrArg KeySlot.written key, congrArg KeySlot.hash key,
      congrArg KeySlot.usage key, congrArg KeySlot.alg key, fun k other => withKey_other s.fuse other _⟩
  case baud =>
    intro n s run listed
    exact ⟨_, exec_crownBaud run listed, rfl, List.length_append, rfl⟩
  case lineError =>
    intro s run
    exact ⟨(crownRun_runs run _ : execCrownLineError .unknown s = _), (crownRun_runs run _ : execCrownLineError .malformed s = _)⟩
  case halted =>
    intro s n a v live halt
    exact ⟨(crownRun_halted live halt _ : execCrownRd a n s = _), (crownRun_halted live halt _ : execCrownWr a v s = _),
      (crownRun_halted live halt _ : execCrownLog n s = _), (crownRun_halted live halt _ : execCrownBaud n s = _)⟩

end Sys2Proof.Machine
end

section
/-! A step with a command waiting (O1). -/

namespace Sys2Proof.Machine

open Sys2Proof

/-- Settles O1: the queue's front decides the branch of step. -/
theorem frontRuns : Obligations.FrontRuns := by
  intro c rest s front
  rw [step, front]

end Sys2Proof.Machine
end

section
/-! The recording of an event (O11): appended, merged, lost or suppressed. -/

namespace Sys2Proof.Machine

open Sys2Proof

/-! ### Which branch records an event (R554) -/

theorem logEvent_of_same {s : State} {e : Ev} (repeats : s.recd.mode = false) (same : sameAsLast s e = true) : logEvent s e = mergeRecord s :=
  (if_neg (Bool.eq_false_iff.1 repeats)).trans (if_pos same)

theorem logEvent_of_new {s : State} {e : Ev} (repeats : s.recd.mode = false) (new : sameAsLast s e = false) :
    logEvent s e = putRecord s e 0 :=
  (if_neg (Bool.eq_false_iff.1 repeats)).trans (if_neg (Bool.eq_false_iff.1 new))

/-- The key of an event's token bucket. -/
def tokenKey (e : Ev) : Nat × Nat := (e.code, if e.code = 0x0300 ∨ e.code = 0x0302 then leAt e.arg 0 4 else 0)

theorem logEvent_of_noToken {s : State} {e : Ev} (limits : s.recd.mode = true) (none_left : (takeToken s (tokenKey e)).1 = false) :
    logEvent s e = { s with recd := { s.recd with buckets := (takeToken s (tokenKey e)).2.2, supp := incW s.recd.supp } } :=
  (if_pos limits).trans (if_neg (Bool.eq_false_iff.1 none_left))

/-! ### Merged and lost records (R554, R555) -/

theorem setLast_of_last {α : Type} {l : List α} {x : α} (last : l.getLast? = some x) (f : α → α) : setLast l f = l.dropLast ++ [f x] := by
  rw [setLast, last]

/-- The state after an event found the live log full. -/
def eventLost (s : State) : State := { s with recd := { s.recd with lostCnt := incW s.recd.lostCnt, lost := true, fullAlarm := true } }

theorem putRecord_full_again {s : State} (full : 8192 ≤ s.recd.live.length) (told : s.recd.fullAlarm = true) (e : Ev) (again : Nat) :
    putRecord s e again = eventLost s :=
  (if_pos full).trans (if_pos told)

/-- The first event that a full log loses raises the alarm, whose own record is lost with it. -/
theorem putRecord_full_first {s : State} (full : 8192 ≤ s.recd.live.length) (untold : s.recd.fullAlarm = false) (e : Ev) (again : Nat) :
    putRecord s e again = alarmEntry (eventLost (eventLost s)) 0x0103 0xFF 0xFF [0] :=
  (if_pos full).trans (if_neg (Bool.eq_false_iff.1 untold))

/-- Settles O11: each case of the statement is one branch of logEvent. -/
theorem eventRecords : Obligations.EventRecords := by
  unfold Obligations.EventRecords
  refine ⟨logEvent_recordsOnly, ?appended, ?merged, ?full, ?suppressed⟩
  case appended =>
    intro s e repeats new room
    obtain ⟨live, -, seq⟩ := putRecord_room room e 0
    rw [logEvent_of_new repeats new]
    exact ⟨live, rfl, seq⟩
  case merged =>
    intro s e r repeats same last
    rw [logEvent_of_same repeats same]
    exact ⟨setLast_of_last last _, rfl, rfl⟩
  case full =>
    intro s e repeats new full
    rw [logEvent_of_new repeats new]
    cases told : s.recd.fullAlarm
    · rw [putRecord_full_first full told]
      exact ⟨rfl, rfl, rfl, nofun, fun _ => ⟨rfl, alarmEntry_alarmed ..⟩⟩
    · rw [putRecord_full_again full told]
      exact ⟨rfl, rfl, rfl, fun _ => ⟨rfl, rfl⟩, nofun⟩
  case suppressed =>
    intro s e limits none_left
    rw [logEvent_of_noToken limits none_left]
    exact ⟨rfl, rfl, rfl⟩

end Sys2Proof.Machine
end

section
/-! Compute-die resets (O14): what the reset clears, that the generation and the records after it keep that, and the commands that reset the
compute die. -/

namespace Sys2Proof.Machine

open Sys2Proof

/-! ### What a reset leaves (R534, R536, R543, R544) -/

/-- A compute die that was reset, with the progress faults and the rails as they were in s. -/
def DieResetOnly (s t : State) (cause : Nat) : Prop := AfterDieReset s t cause ∧ t.pwr.prog = s.pwr.prog ∧ t.supply = s.supply

/-- The alarm for the Beats not yet sealed (R536). -/
def dieAlarmed (s : State) : State := raiseAlarm s 0x0100 0xFF 0xFF (leBytes 6 (unsealed s).1 ++ leBytes 6 (unsealed s).2)

/-- The die in reset from now on, with its cause, and with what it held lost. -/
def dieCleared (s : State) (cause : Nat) : State :=
  dieRecords (dieMemory (dieIsp (dieWings { s with
    esc := { status := s.esc.status, uaCnt := s.esc.uaCnt, cfg := s.esc.cfg, nb := s.esc.nb, pMin := s.esc.pMin, pMax := s.esc.pMax }
    ret := { s.ret with lastCause := cause, lastKind := 1, resets := (s.ret.resets ++ [(1, cause)]).drop (s.ret.resets.length + 1 - 16) }
    pwr := { s.pwr with genDie := (s.pwr.genDie + 1) % 16, dieSince := some s.c, idleAt := none } })))

theorem dieCanReset_iff {s : State} : dieCanReset s = true ↔ running s = true ∧ s.pwr.dieSince = none := by
  rw [dieCanReset, Bool.and_eq_true, Option.isNone_iff_eq_none]

theorem inReset_of_running {s : State} (run : running s = true) : (s.pwr.held || s.sec.bootHalt) = false := by
  rw [← Bool.not_eq_true', Bool.not_or]
  exact run

theorem dieReset_eq {s : State} (free : dieCanReset s = true) (cause : Nat) : dieReset s cause =
    resetEvent (nextGeneration (dieCleared (dieAlarmed s) cause)) 1 0 cause (((dieAlarmed s).pwr.genDie + 1) % 16) := by
  obtain ⟨run, up⟩ := dieCanReset_iff.1 free
  rw [dieReset, if_neg (Bool.eq_false_iff.1 (inReset_of_running run)), up]
  rfl

theorem dieReset_again {s : State} {c : Nat} (run : running s = true) (since : s.pwr.dieSince = some c) (cause : Nat) :
    dieReset s cause = otherEvent s [1, BitVec.ofNat 8 cause] := by
  rw [dieReset, if_neg (Bool.eq_false_iff.1 (inReset_of_running run)), since]

theorem dieWings_phys (s : State) (p : Fin 8) : (dieWings s).phys[p] =
    { freshWing s p with gen := ((s.phys[p]).gen + 1) % 16, transient := (s.phys[p]).transient, fences := (s.phys[p]).fences } := by
  simp only [dieWings, Fin.getElem_fin, Vector.getElem_ofFn]

/-- Of the Wings a reset keeps the generation, incremented, and the counts of faults and fences (R544). -/
theorem dieCleared_phys (s : State) (cause : Nat) (p : Fin 8) : (dieCleared s cause).phys[p] =
    { freshWing s p with gen := ((s.phys[p]).gen + 1) % 16, transient := (s.phys[p]).transient, fences := (s.phys[p]).fences } :=
  dieWings_phys { s with esc := _, ret := _, pwr := _ } p

theorem dieCleared_resets (s : State) (cause : Nat) : DieResetOnly s (dieCleared s cause) cause := by
  have wing := dieCleared_phys s cause
  simp only [DieResetOnly, AfterDieReset, wing, and_true]
  simp only [dieCleared, dieRecords, dieMemory, dieIsp, dieWings, and_self, and_true, true_and]
  exact fun p => ⟨rfl, rfl, rfl⟩

/-- The part of a state of which DieResetOnly speaks. -/
def diePart (t : State) : State :=
  { pwr := t.pwr, supply := t.supply, mem := t.mem, sealer := t.sealer, tst := t.tst, lw := t.lw, esc := t.esc, phys := t.phys, c := t.c
    img := t.img, fuse := t.fuse, pending := t.pending, enc := t.enc, ejc := t.ejc, reg := t.reg, sec := { phase := t.sec.phase }
    net := { backlog := t.net.backlog, verdLost := t.net.verdLost }
    ret := { lastCause := t.ret.lastCause, lastKind := t.ret.lastKind, resets := t.ret.resets } }

theorem DieResetOnly.of_part {s t u : State} {cause : Nat} (h : DieResetOnly s t cause) (same : diePart u = diePart t) :
    DieResetOnly s u cause := by
  have part : DieResetOnly s (diePart t) cause := h
  rw [← same] at part
  exact part

/-- What the state before the reset has outside that part does not matter. -/
theorem DieResetOnly.from_part {s t u : State} {cause : Nat} (h : DieResetOnly u t cause) (same : diePart u = diePart s) :
    DieResetOnly s t cause := by
  have part : DieResetOnly (diePart u) t cause := h
  rw [same] at part
  exact part

theorem RecordsOnly.diePart {s t : State} (h : RecordsOnly s t) : diePart t = diePart s := by
  obtain ⟨_, _, _, _, _, _, _, _, _, _, _, rfl⟩ := h
  rfl

theorem RecordsOnly.dieCanReset {s t : State} (h : RecordsOnly s t) : dieCanReset t = dieCanReset s := by
  obtain ⟨_, _, _, _, _, _, _, _, _, _, _, rfl⟩ := h
  rfl

theorem nextGeneration_diePart (s : State) : diePart (nextGeneration s) = diePart s := by
  unfold nextGeneration
  dsimp only
  split <;> rfl

theorem dieReset_resets {s : State} (free : dieCanReset s = true) (cause : Nat) : DieResetOnly s (dieReset s cause) cause := by
  have alarmed : diePart (dieAlarmed s) = diePart s := (raiseAlarm_recordsOnly ..).diePart
  rw [dieReset_eq free]
  exact ((dieCleared_resets (dieAlarmed s) cause).from_part alarmed).of_part
    ((resetEvent_recordsOnly ..).diePart.trans (nextGeneration_diePart _))

/-! ### The commands (R533, R534, R539, R542, R562, R565) -/

section
variable {s : State}

theorem exec_die {a : Acc} (run : running s = true) (secure : a.secure = true) : exec (.die a) s = .next (dieReset s 0x07) :=
  (if_pos run).trans (if_pos secure)

/-- The state with one more progress fault counted (R539). -/
def progressCounted (s : State) : State := { s with pwr := { s.pwr with prog := incW s.pwr.prog } }

theorem exec_assemblerTimeout (up : dieUp s = true) : exec .assemblerTimeout s = .next (dieReset (progressCounted s) 0x05) := if_pos up

theorem exec_transactionTimeout (up : dieUp s = true) : exec .transactionTimeout s = .next (dieReset (progressCounted s) 0x05) := if_pos up

theorem exec_dieToDieLinkFailure (up : dieUp s = true) : exec .dieToDieLinkFailure s = .next (dieReset s 0x0C) := if_pos up

theorem exec_isolationAckTimeout {p : PWing} {c : Nat} (up : dieUp s = true) (reset : (s.phys[p]).softReset = some c)
    (clamping : (s.phys[p]).clamping = true) : exec (.isolationAckTimeout p) s = .next (dieReset (reach s (c + 15000)) 0x0B) := by
  change execIsolationAckTimeout p s = _
  simp only [execIsolationAckTimeout, reset, up, clamping, Bool.and_self, if_true]

theorem exec_supplyResetLevel_die {r : Rail} (die : wingRail r = true) (up : s.pwr.held = false) :
    exec (.supplyResetLevel r) s = .next (dieReset (railDown s r) 0x03) :=
  (if_neg (Bool.eq_false_iff.1 up)).trans (if_pos die)

theorem exec_crownResetDie (run : running s = true) (allowed : crownMayReset s = true) :
    exec .crownResetDie s = .next (dieReset (crownOk (crownEvent s 0xFFFFFFFF 1 0)) 0x08) := by
  have may : ¬ (!crownMayReset s) = true := by rw [allowed]; decide
  change execCrownResetDie s = _
  rw [execCrownResetDie, crownRun_runs run, if_neg may]

theorem dieCanReset_of_up (up : dieUp s = true) : dieCanReset s = true := (Bool.and_eq_true_iff.1 up).1

/-- A reset of the die with a progress fault counted before it. -/
theorem progressReset_resets (up : dieUp s = true) (cause : Nat) : AfterDieReset s (dieReset (progressCounted s) cause) cause ∧
    (dieReset (progressCounted s) cause).pwr.prog = incW s.pwr.prog := by
  obtain ⟨after, prog, -⟩ := dieReset_resets (s := progressCounted s) (dieCanReset_of_up up) cause
  exact ⟨after, prog⟩

end

/-- Settles O14: each command is a reset of s, or of s with parts changed of which AfterDieReset says nothing. -/
theorem dieResets : Obligations.DieResets := by
  unfold Obligations.DieResets
  refine ⟨?die, ?faults, ?isolation, ?rail, ?crown, ?again⟩
  case die =>
    intro a s free secure
    exact ⟨_, exec_die (dieCanReset_iff.1 free).1 secure, (dieReset_resets free 0x07).1⟩
  case faults =>
    intro s up
    exact ⟨⟨_, exec_assemblerTimeout up, progressReset_resets up 0x05⟩, ⟨_, exec_transactionTimeout up, progressReset_resets up 0x05⟩,
      ⟨_, exec_dieToDieLinkFailure up, (dieReset_resets (dieCanReset_of_up up) 0x0C).1⟩⟩
  case isolation =>
    intro p s c up reset clamping
    exact ⟨_, exec_isolationAckTimeout up reset clamping,
      (dieReset_resets (s := reach s (c + 15000)) (dieCanReset_of_up up) 0x0B).1⟩
  case rail =>
    intro r s die free
    have up : s.pwr.held = false := (Bool.or_eq_false_iff.1 (inReset_of_running (dieCanReset_iff.1 free).1)).1
    obtain ⟨after, -, supply⟩ := dieReset_resets (s := railDown s r) free 0x03
    exact ⟨_, exec_supplyResetLevel_die die up, after, by rw [supply]; exact railDown_listed s r⟩
  case crown =>
    intro s free _ allowed
    have recorded : RecordsOnly s (crownEvent s 0xFFFFFFFF 1 0) := logEvent_recordsOnly ..
    have same : diePart (crownOk (crownEvent s 0xFFFFFFFF 1 0)) = diePart s := recorded.diePart
    have resettable : dieCanReset (crownOk (crownEvent s 0xFFFFFFFF 1 0)) = true := recorded.dieCanReset.trans free
    exact ⟨_, exec_crownResetDie (dieCanReset_iff.1 free).1 allowed, ((dieReset_resets resettable 0x08).from_part same).1⟩
  case again =>
    intro a s c run secure since
    rw [exec_die run secure, dieReset_again run since]
    exact ⟨_, rfl, otherEvent_recordsOnly ..⟩

end Sys2Proof.Machine
end

section
/-! Hang checks (O32): a late start and a missed checkpoint fence the Wing, unless an Assembler copy alone holds it. -/

namespace Sys2Proof.Machine

open Sys2Proof

/-! ### A progress fault (R541) -/

/-- A Wing is fenced for a progress fault that is found at a deadline, counted from s. -/
theorem progressFault_fences (s : State) (p : PWing) (deadline unit nj done cycles index : Nat) :
    let t := progressFault (reach s deadline) p unit nj done cycles index
    (t.phys[p]).role = 5 ∧ (t.phys[p]).work = none ∧ t.pwr.prog = incW s.pwr.prog ∧ t.int.persist = incW s.int.persist ∧
      t.c = (reach s deadline).c := by
  obtain ⟨role, work, -, prog, persist⟩ := progressFault_frame (reach s deadline) p unit nj done cycles index
  have time := congrArg (fun k => k.2.2) (progressFault_kept (reach s deadline) p unit nj done cycles index)
  exact ⟨role, work, prog, persist, time⟩

/-! ### The two checks (R539, R540) -/

section
variable {p : PWing} {q : Queue} {s : State} {w : Work} (up : dieUp s = true) (work : (s.phys[p]).work = some w)
include up work

/-- C at which a command that has not started is late (R539). -/
def latestStart (s : State) (w : Work) (c : Cmd) : Nat :=
  cycleC s w (c.slot + w.delta + (if w.loaded then (wingPlan s w.lw).tLoad else 0) + 1)

theorem exec_latestStartMiss {x : Nat × Cmd} (next : ((vGet? w.lc (queueIdx q)).getD []).head? = some x)
    (sound : failingOn w (queueIdx q) = none) : ∃ unit nj done cycles index, exec (.latestStartMiss p q) s =
    .next (progressFault (reach s (latestStart s w x.2)) p unit nj done cycles index) := by
  change ∃ unit nj done cycles index, execLatestStartMiss p q s = _
  simp only [execLatestStartMiss, up, work, next, sound, Bool.not_true, Bool.false_eq_true, if_false]
  exact ⟨_, _, _, _, _, rfl⟩

/-- C at a checkpoint (R540). -/
def checkpointC (s : State) (w : Work) (d : Nat) : Nat :=
  cycleC s w (d + w.delta + (planOf s).omega + (if w.loaded then (wingPlan s w.lw).tLoad else 0))

variable {j n d : Nat} (check : ((tableOf (wingPlan s w.lw) w.beat).checks.filter fun c => c.1 == queueIdx q)[j]? = some (queueIdx q, n, d))
  (short : (vGet? w.prog (queueIdx q)).getD 0 < n)
include check short

theorem exec_progressCheckpointMiss_fences (own : waitsAssembler s w (queueIdx q) = false) : ∃ unit nj done cycles index,
    exec (.progressCheckpointMiss p q j) s = .next (progressFault (reach s (checkpointC s w d)) p unit nj done cycles index) := by
  have own' : waitsAssembler (reach s (checkpointC s w d)) w (queueIdx q) = false := own
  change ∃ unit nj done cycles index, execProgressCheckpointMiss p q j s = _
  unfold checkpointC at own' ⊢
  simp only [execProgressCheckpointMiss, up, work, check, own', Nat.not_le.2 short, Bool.not_true, Bool.false_eq_true, if_false]
  exact ⟨_, _, _, _, _, rfl⟩

theorem exec_progressCheckpointMiss_resets (copies : waitsAssembler s w (queueIdx q) = true) :
    exec (.progressCheckpointMiss p q j) s = .next (dieReset (progressCounted (reach s (checkpointC s w d))) 0x05) := by
  have copies' : waitsAssembler (reach s (checkpointC s w d)) w (queueIdx q) = true := copies
  change execProgressCheckpointMiss p q j s = _
  unfold checkpointC at copies' ⊢
  simp only [execProgressCheckpointMiss, up, work, check, copies', Nat.not_le.2 short, Bool.not_true, Bool.false_eq_true, if_false, if_true]
  rfl

end

/-- Settles O32: both checks find their progress fault in the state at the deadline. -/
theorem hangChecks : Obligations.HangChecks := by
  unfold Obligations.HangChecks
  refine ⟨?lateStart, ?checkpoint, ?assembler⟩
  case lateStart =>
    intro p q s w x up work next sound
    obtain ⟨unit, nj, done, cycles, index, fault⟩ := exec_latestStartMiss up work next sound
    exact ⟨_, fault, progressFault_fences s p (latestStart s w x.2) unit nj done cycles index⟩
  case checkpoint =>
    intro p q j n d s w up work check short own
    obtain ⟨unit, nj, done, cycles, index, fault⟩ := exec_progressCheckpointMiss_fences up work check short own
    exact ⟨_, fault, progressFault_fences s p (checkpointC s w d) unit nj done cycles index⟩
  case assembler =>
    intro p q j n d s w up work check short copies
    have at_deadline : dieUp (reach s (checkpointC s w d)) = true := up
    obtain ⟨⟨since, -, -, -, -, -, -, -, -, -, -, -, -, -, -, cause, -, -, time, -⟩, prog⟩ := progressReset_resets at_deadline 0x05
    exact ⟨_, exec_progressCheckpointMiss_resets up work check short copies, since.trans (congrArg some time.symm), prog, cause, time⟩

end Sys2Proof.Machine
end

section
/-! Idle, Run and Standby requests (O55): what a request keeps or refuses, and what it does to each camera port. -/

namespace Sys2Proof.Machine

open Sys2Proof

/-! ### A change of the power state, and a refusal (R546, R553) -/

/-- A change writes its event. -/
theorem setPower_recordsOnly (s : State) (new reason : Nat) :
    RecordsOnly { s with pwr := { s.pwr with state := new } } (setPower s new reason) := logEvent_recordsOnly ..

theorem setPower_frame (s : State) (new reason : Nat) : (setPower s new reason).pwr.state = new ∧ (setPower s new reason).phys = s.phys ∧
    (setPower s new reason).cam = s.cam := by
  obtain ⟨-, -, -, -, -, -, -, pwr, -, -, -, -, -, -, -, phys, -, -, -, cam, -⟩ := (setPower_recordsOnly s new reason).frame
  exact ⟨congrArg Power.state pwr, phys, cam⟩

/-- A refusal keeps its reason, and writes an event of the state that stays. -/
theorem powerRefuse_recordsOnly (s : State) (r : Nat) : RecordsOnly { s with pwr := { s.pwr with reason := r } } (powerRefuse s r) :=
  setPower_recordsOnly ..

/-! ### Idle (R546) -/

/-- The state in which a request is taken: it is kept in the register. -/
def asked (s : State) (req : Nat) : State := { s with pwr := { s.pwr with req := req } }

/-- The target of a request (log entry 80). -/
def idleTarget (s : State) : Nat := landingOf s (join48 s.pwr.tgtLo s.pwr.tgtHi)

section
variable {s : State} (runs : s.pwr.state = 0) (ready : s.sec.phase = 6) (up : s.pwr.dieSince = none)
include runs ready up

theorem idle_possible : ¬ (s.pwr.state ≠ 0 ∨ s.sec.phase ≠ 6 ∨ s.pwr.dieSince.isSome) := by simp [runs, ready, up]

theorem requestIdle_near (near : idleTarget s < s.esc.beat + 2) : requestIdle s = powerRefuse s 2 :=
  (if_neg (idle_possible runs ready up)).trans (if_pos near)

theorem requestIdle_accepted (ahead : s.esc.beat + 2 ≤ idleTarget s) (noPromotion : promotionBusy s = false)
    (noChangeover : changeoverBusy s = false) (onTime : allOnTime s = true) :
    requestIdle s = { s with pwr := { s.pwr with idleAt := some (idleTarget s), reason := 0 } } := by
  have free : ¬ (promotionBusy s || changeoverBusy s || !allOnTime s) = true := by rw [noPromotion, noChangeover, onTime]; decide
  exact (if_neg (idle_possible runs ready up)).trans ((if_neg (Nat.not_lt.2 ahead)).trans (if_neg free))

end

/-! ### Each camera port in turn, as foldl_each has it for the Wings -/

section
variable {f : State → Port → State} (R : CamPort → CamPort → Prop) (own : ∀ s p, R s.cam.port[p] (f s p).cam.port[p])
  (others : ∀ s p q, q ≠ p → (f s p).cam.port[q] = s.cam.port[q])
include own others

/-- A fold over ports, of which each step changes its own port only. -/
theorem foldl_port {l : List Port} (once : l.Nodup) (s : State) :
    (∀ p ∈ l, R s.cam.port[p] (l.foldl f s).cam.port[p]) ∧ ∀ p ∉ l, (l.foldl f s).cam.port[p] = s.cam.port[p] := by
  induction l generalizing s with
  | nil => exact ⟨fun p mem => absurd mem List.not_mem_nil, fun p _ => rfl⟩
  | cons q l ih =>
    obtain ⟨notAgain, once⟩ := List.nodup_cons.1 once
    obtain ⟨listed, unlisted⟩ := ih once (f s q)
    rw [List.foldl_cons]
    refine ⟨fun p mem => ?_, fun p absent => ?_⟩
    · rcases List.mem_cons.1 mem with rfl | mem
      · rw [unlisted p notAgain]
        exact own s p
      · have other : p ≠ q := fun same => notAgain (same ▸ mem)
        rw [← others s q p other]
        exact listed p mem
    · obtain ⟨other, absent⟩ := not_or.1 (mt List.mem_cons.2 absent)
      rw [unlisted p absent, others s q p other]

theorem foldl_ports (s : State) (p : Port) : R s.cam.port[p] ((List.finRange 16).foldl f s).cam.port[p] :=
  (foldl_port R own others (List.nodup_finRange 16) s).1 p (List.mem_finRange p)

end

/-! ### Run in Idle (R548) -/

/-- A port in state 4 accepts lines again. -/
def openPort (s : State) (p : Port) : State :=
  if (s.cam.port[p]).state = 4 then
    updIsp (updPort s p fun x => { x with accepting := true, line := none }) p fun c =>
      { c with frameOpen := false, frameLines := 0, longSeen := false, restart := Vector.replicate 4 true }
  else s

theorem acceptLines_eq (s : State) : acceptLines s = (List.finRange 16).foldl openPort s := rfl

theorem openPort_own (s : State) (p : Port) : (s.cam.port[p]).state = 4 → ((openPort s p).cam.port[p]).accepting = true := by
  intro accepts
  rw [openPort, if_pos accepts, updIsp_cam, updPort_same]

theorem openPort_others (s : State) (p q : Port) (other : q ≠ p) : (openPort s p).cam.port[q] = s.cam.port[q] := by
  by_cases accepts : (s.cam.port[p]).state = 4
  · rw [openPort, if_pos accepts, updIsp_cam, updPort_other _ _ _ _ other]
  · rw [openPort, if_neg accepts]

theorem acceptLines_port (s : State) (p : Port) : (s.cam.port[p]).state = 4 → ((acceptLines s).cam.port[p]).accepting = true := by
  rw [acceptLines_eq]
  exact foldl_ports (fun x y => x.state = 4 → y.accepting = true) openPort_own openPort_others s p

theorem foldl_openPort_state (l : List Port) (s : State) : ∃ cam isp, l.foldl openPort s = { s with cam := cam, isp := isp } := by
  induction l generalizing s with
  | nil => exact ⟨s.cam, s.isp, rfl⟩
  | cons p l ih =>
    obtain ⟨cam, isp, rest⟩ := ih (openPort s p)
    refine ⟨cam, isp, rest.trans ?_⟩
    unfold openPort
    split <;> rfl

theorem acceptLines_state (s : State) : ∃ cam isp, acceptLines s = { s with cam := cam, isp := isp } := foldl_openPort_state ..

/-- The edge of a Beat whose Wings have all finished counts no progress fault. -/
theorem issueEdge_pwr {s : State} (started : s.esc.fresh = false) (done : WingsDone s) : (issueEdge s).pwr = s.pwr := by
  obtain ⟨mem, sec, sealer, iio, isp, net, closed⟩ := closeInterval_areas_state s s.esc.beat
  simp only [issueEdge, started, Bool.false_eq_true, if_false, closed]
  generalize edge : State.mk .. = t
  have still : WingsDone t := by rw [← edge]; exact done
  obtain ⟨phys, overruns, -⟩ := foldl_overrunAt_of_done still allP
  rw [overruns, ← edge]

/-! ### Standby in Idle (R319, R543, R549) -/

theorem receptionEnded_others (s : State) (p q : Port) (other : q ≠ p) : (receptionEnded s p).cam.port[q] = s.cam.port[q] := by
  unfold receptionEnded
  extract_lets t
  have ended : t.cam.port[q] = s.cam.port[q] := by
    unfold t
    split
    next l line =>
      generalize counted : updPort s p _ = u
      have still : (u.cam.port[p]).line = some l := by rw [← counted, updPort_same]; exact line
      obtain ⟨isp, esc, corrupt⟩ := corruptLine_state still (bytesSoFar s p l)
      rw [corrupt, corruptEnded, camFlag_port, updPort_other _ _ _ _ other, ← counted]
      simp only [digestLine]
      exact updPort_other _ _ _ _ other
    next => rfl
  split
  · obtain ⟨isp, esc, padded⟩ := padFrame_state t p
    rw [padded]
    exact ended
  · exact ended

theorem portDown_others (s : State) (p q : Port) (cause resetCause : Nat) (other : q ≠ p) :
    (portDown s p cause resetCause).cam.port[q] = s.cam.port[q] := by
  obtain ⟨cam, -, -⟩ := (portDown_recordsOnly s p cause resetCause).lineView
  rw [cam, portFell, sleepLanes_port, updIsp_cam, updPort_other _ _ _ _ other, receptionEnded_others _ _ _ other]

/-- A port on its way to Standby: down if it was up or in state 1. -/
def standbyFell (s : State) (p : Port) : State :=
  if portUp s.cam.port[p] || (s.cam.port[p]).state == 1 then portDown s p 11 0x0E else s

/-- The stop of a port for Standby. -/
def standbyStop (x : CamPort) : CamPort := { x with state := 6, cause := 11, stopReq := false, relinkReq := false, stage := .idle }

theorem standbyPort_eq (s : State) (p : Port) :
    standbyPort s p = if (s.cam.port[p]).state = 0 then s else updPort (standbyFell s p) p standbyStop := rfl

theorem standbyPort_own (s : State) (p : Port) : (s.cam.port[p]).state ≠ 0 → ((standbyPort s p).cam.port[p]).state = 6 := by
  intro used
  rw [standbyPort_eq, if_neg used, updPort_same]
  rfl

theorem standbyPort_others (s : State) (p q : Port) (other : q ≠ p) : (standbyPort s p).cam.port[q] = s.cam.port[q] := by
  rw [standbyPort_eq]
  split
  · rfl
  · rw [updPort_other _ _ _ _ other, standbyFell]
    split
    · exact portDown_others _ _ _ _ _ other
    · rfl

theorem standbyPort_phys (s : State) (p : Port) : (standbyPort s p).phys = s.phys := by
  rw [standbyPort_eq]
  split
  · rfl
  · rw [updPort_phys, standbyFell]
    split
    · exact congrArg (·.2.2.1) (portDown_fell s p 11 0x0E).rest
    · rfl

/-- Every camera port is stopped. -/
def portsStopped (s : State) : State := (List.finRange 16).foldl standbyPort s

theorem portsStopped_port (s : State) (p : Port) : (s.cam.port[p]).state ≠ 0 → ((portsStopped s).cam.port[p]).state = 6 := by
  rw [portsStopped]
  exact foldl_ports (fun x y => x.state ≠ 0 → y.state = 6) standbyPort_own standbyPort_others s p

theorem portsStopped_phys (s : State) : (portsStopped s).phys = s.phys := foldl_phys standbyPort_phys ..

/-- The die without power in Standby, from a state whose cameras are stopped. -/
def powerGated (s : State) : State :=
  let t := standbyLoss s
  { t with iio := { t.iio with ready := false }, pwr := { t.pwr with reason := 0, idleAt := none } }

theorem powerGated_frame (s : State) : (powerGated s).pwr.state = s.pwr.state ∧ (powerGated s).pwr.reason = 0 ∧
    (powerGated s).pwr.idleAt = none ∧ (powerGated s).iio.ready = false ∧ (powerGated s).mem.dram = [] :=
  ⟨rfl, rfl, rfl, rfl, rfl⟩

theorem powerGated_port (s : State) (p : Port) :
    (powerGated s).cam.port[p] = { s.cam.port[p] with accepting := false, line := none } := by
  simp only [powerGated, standbyLoss, dieMemory, dieIsp, dieWings, Fin.getElem_fin, Vector.getElem_map]

theorem powerGated_phys (s : State) (p : PWing) :
    ((powerGated s).phys[p]).gallery = [] ∧ ((powerGated s).phys[p]).gen = (s.phys[p]).gen := by
  simp only [powerGated, standbyLoss, dieMemory, dieIsp, dieWings, freshWing, Fin.getElem_fin, Vector.getElem_ofFn, and_self]

theorem requestStandby_idle {s : State} (idle : s.pwr.state = 2) : requestStandby s = powerGated (setPower (portsStopped s) 3 0) := by
  simp only [requestStandby, if_pos idle, powerGated, portsStopped]

/-! ### The commands -/

section
variable {a : Acc} {s : State} (run : running s = true) (secure : a.secure = true)
include run secure

theorem exec_idleRequest : exec (.idleRequest a) s = .next (requestIdle (asked s 1)) :=
  congrArg Host.Outcome.next (actionWrite_acts (die := false) run secure nofun fun s => requestIdle (asked s 1))

theorem exec_runRequest : exec (.runRequest a) s = .next (requestRun (asked s 0)) :=
  congrArg Host.Outcome.next (actionWrite_acts (die := false) run secure nofun fun s => requestRun (asked s 0))

theorem exec_standbyRequest : exec (.standbyRequest a) s = .next (requestStandby (asked s 2)) :=
  congrArg Host.Outcome.next (actionWrite_acts (die := false) run secure nofun fun s => requestStandby (asked s 2))

end

/-- What the end of Idle leaves: the edge of the next Beat, with every port in state 4 accepting lines. -/
theorem requestRun_idle {s : State} (idle : s.pwr.state = 2) (started : s.esc.fresh = false) (free : ∀ p : Fin 8, (s.phys[p]).work = none) :
    let t := requestRun s
    t.pwr = { s.pwr with state := 4 } ∧ t.esc.phase = .drain ∧ t.esc.beat = s.esc.beat + 1 ∧ t.esc.edgeC = s.c ∧
      (∀ p : Fin 16, (s.cam.port[p]).state = 4 → (t.cam.port[p]).accepting = true) ∧ t.c = s.c ∧ t.lw = s.lw ∧ t.fuse = s.fuse ∧
      t.img = s.img := by
  obtain ⟨-, -, c, -, fuse, -, -, pwr, -, -, -, img, -, esc, -, phys, lw, -, -, cam, -⟩ := (setPower_recordsOnly s 4 0).frame
  have opened := acceptLines_port (setPower s 4 0)
  obtain ⟨cams, isp, accepted⟩ := acceptLines_state (setPower s 4 0)
  have fresh : (acceptLines (setPower s 4 0)).esc.fresh = false := by rw [accepted]; exact (congrArg Escapement.fresh esc).trans started
  have done : WingsDone (acceptLines (setPower s 4 0)) := by
    intro p w work
    have none_left := free p
    rw [accepted] at work
    rw [phys, none_left] at work
    exact absurd work nofun
  obtain ⟨time, clock, -, -, image, fuses, lws, -, ports, -⟩ := issueEdge_of_done fresh done
  have power := issueEdge_pwr fresh done
  intro t
  have edge : t = issueEdge (acceptLines (setPower s 4 0)) := if_pos idle
  rw [edge]
  rw [cam] at opened
  rw [clock, power, time, image, fuses, lws, ports]
  refine ⟨?_, rfl, ?_, ?_, opened, ?_, ?_, ?_, ?_⟩
  all_goals rw [accepted]
  · exact pwr
  · exact congrArg (·.beat + 1) esc
  · exact c
  · exact c
  · exact lw
  · exact fuse
  · exact img

theorem fuse_c_of_kept {s t : State} (h : t.kept = s.kept) : t.fuse = s.fuse ∧ t.c = s.c := ⟨congrArg (·.2.1) h, congrArg (·.2.2) h⟩

/-- What Standby leaves: the cameras stopped, the die's memories lost, the Wings' generations kept. -/
theorem requestStandby_frame {s : State} (idle : s.pwr.state = 2) :
    let t := requestStandby s
    t.pwr.state = 3 ∧ t.pwr.reason = 0 ∧ t.pwr.idleAt = none ∧ t.iio.ready = false ∧ t.mem.dram = [] ∧
      (∀ p : Fin 16, (s.cam.port[p]).state ≠ 0 → (t.cam.port[p]).state = 6 ∧ (t.cam.port[p]).accepting = false) ∧
      (∀ p : Fin 8, (t.phys[p]).gallery = [] ∧ (t.phys[p]).gen = (s.phys[p]).gen) ∧ t.fuse = s.fuse ∧ t.c = s.c := by
  obtain ⟨fuse, time⟩ := fuse_c_of_kept (requestStandby_kept s)
  obtain ⟨state, wings, cam⟩ := setPower_frame (portsStopped s) 3 0
  have stopped := portsStopped_port s
  rw [← cam] at stopped
  rw [portsStopped_phys] at wings
  rw [requestStandby_idle idle] at fuse time ⊢
  generalize setPower (portsStopped s) 3 0 = u at *
  obtain ⟨stays, reason, idleAt, ready, dram⟩ := powerGated_frame u
  refine ⟨stays.trans state, reason, idleAt, ready, dram, fun p used => ?_, fun p => ?_, fuse, time⟩
  · rw [powerGated_port]
    exact ⟨stopped p used, rfl⟩
  · rw [← wings]
    exact powerGated_phys u p

/-- Settles O55: each request acts on the state that keeps it, and takes one branch. -/
theorem powerRequests : Obligations.PowerRequests := by
  unfold Obligations.PowerRequests
  refine ⟨?accepted, ?near, ?run, ?standbyEnds, ?runAgain, ?standby, ?standbyRefused⟩
  case accepted =>
    intro a s run secure runs ready up ahead noPromotion noChangeover onTime
    rw [exec_idleRequest run secure, requestIdle_accepted (s := asked s 1) runs ready up ahead noPromotion noChangeover onTime]
    rfl
  case near =>
    intro a s run secure runs ready up near
    rw [exec_idleRequest run secure, requestIdle_near (s := asked s 1) runs ready up near]
    exact ⟨_, rfl, powerRefuse_recordsOnly (asked s 1) 2⟩
  case run =>
    intro a s run secure idle started free
    obtain ⟨pwr, rest⟩ := requestRun_idle (s := asked s 0) idle started free
    exact ⟨_, exec_runRequest run secure, congrArg Power.state pwr, congrArg Power.req pwr, rest⟩
  case standbyEnds =>
    intro a s free secure standby
    have resets : requestRun (asked s 0) = dieReset (asked s 0) 0x0D := (if_neg (by rw [asked, standby]; decide)).trans (if_pos standby)
    exact ⟨_, (exec_runRequest (dieCanReset_iff.1 free).1 secure).trans (congrArg _ resets), (dieReset_resets (s := asked s 0) free 0x0D).1⟩
  case runAgain =>
    intro a s run secure runs
    have same : requestRun (asked s 0) = asked s 0 := (if_neg (by rw [asked, runs]; decide)).trans (if_neg (by rw [asked, runs]; decide))
    exact (exec_runRequest run secure).trans (congrArg _ same)
  case standby =>
    intro a s run secure idle
    obtain ⟨state, reason, idleAt, ready, dram, ports, wings, fuse, time⟩ := requestStandby_frame (s := asked s 2) idle
    exact ⟨_, exec_standbyRequest run secure, state, reason, idleAt, ready, dram,
      fun p used => ⟨(ports p used).1, fun _ => (ports p used).2⟩, wings, fuse, time⟩
  case standbyRefused =>
    intro a s run secure other
    have refused : requestStandby (asked s 2) = powerRefuse (asked s 2) 1 := if_neg other
    rw [exec_standbyRequest run secure, refused]
    exact ⟨_, rfl, powerRefuse_recordsOnly (asked s 2) 1⟩

end Sys2Proof.Machine
end

section
/-! The reset commands (O60): what a write of PWR_RESET_CTRL or PWR_CTRL does by its world, and that a host's reset is answered first. -/

namespace Sys2Proof.Machine

open Sys2Proof

/-! ### The two registers (R12, R565) -/

section
variable {s : State} {x : Acc} {v : Word}

theorem writeReg_reset (secure : x.secure = true) : (writeReg s x 0xD0010 v).1 = writeReset s v.toNat :=
  congrArg Prod.fst (writeReg_of_secure rfl rfl rfl rfl secure rfl)

theorem writeReg_pwr (secure : x.secure = true) (used : bits v.toNat 0 2 < 3) : (writeReg s x 0xD0004 v).1 = writePwr s v.toNat := by
  have value : notUsed 0xD0004 v = false := decide_eq_false (Nat.ne_of_lt used)
  exact congrArg Prod.fst (writeReg_of_secure rfl rfl rfl rfl secure value)

end

/-! ### A device reset sends nothing (R543) -/

theorem phaseOne_sent (s : State) (b : BootCfg) : (phaseOne s b).net.sent = s.net.sent := by
  unfold phaseOne configured nextGeneration
  split <;> rfl

theorem phaseZeroAlarmed_sent (s : State) (cause : Nat) (dumped : Bool) : (phaseZeroAlarmed s cause dumped).net.sent = s.net.sent := by
  obtain ⟨⟨alarms, net⟩, -⟩ := (phaseZeroAlarmed_recordsOnly s cause dumped).netView
  rw [net]

theorem enterHold_sent (s : State) (reason : Nat) : (enterHold s reason).net.sent = s.net.sent := rfl

theorem boot_sent (s : State) (dumped : Bool) : (boot s dumped).net.sent = s.net.sent := by
  have recorded : ∀ b cause, (phaseZeroAlarmed (phaseOne (released s) b) cause dumped).net.sent = s.net.sent := fun b cause =>
    (phaseZeroAlarmed_sent ..).trans (phaseOne_sent ..)
  unfold boot
  dsimp only
  split
  · rfl
  · rw [← released, bootVerified_eq]
    dsimp only
    split
    · exact (enterHold_sent ..).trans (recorded ..)
    · split
      · exact recorded ..
      · exact (enterHold_sent ..).trans (recorded ..)

theorem deviceReset_sent (s : State) (cause : Nat) (dumped : Bool) : (deviceReset s cause dumped).net.sent = s.net.sent := by
  unfold deviceReset
  dsimp only
  split
  · exact boot_sent (resetState s cause) dumped
  · rfl

/-! ### The answer before a host's reset (R479, R565, R575) -/

/-- A response is kept with the last 16 of its host. -/
def responseKept (s : State) (h : Fin 8) (x : Response) : State :=
  { s with net := { s.net with responses := s.net.responses.set h ((s.net.responses[h] ++ [x]).drop (s.net.responses[h].length + 1 - 16)) } }

theorem respond_plain {r : Req} (plain : r.ts = false) (s : State) (x : Response) :
    respond s r x = sendDg (responseKept s r.host x) 0x11 (1 + r.host.val) (rspBytes x) := by
  rw [respond, sendRsp, plain]
  exact if_neg Bool.false_ne_true

/-- t is s with one response handed to the ports, and at most the accessor's session and capture changed besides. -/
def Answered (h : Fin 8) (s t : State) : Prop := ∃ d responses seq frer sec cap, d.typ = 0x11 ∧ d.gen = s.net.gen ∧ d.dst = 1 + h.val ∧
  t = { s with net := { s.net with sent := s.net.sent ++ [d], responses := responses, seq := seq, frer := frer }, sec := sec, cap := cap }

theorem respond_answers {r : Req} (plain : r.ts = false) (s : State) (sec : Security) (cap : List Capture) (x : Response) :
    Answered r.host s (respond { s with sec := sec, cap := cap } r x) := by
  rw [respond_plain plain]
  exact ⟨_, _, _, _, _, _, rfl, rfl, rfl, rfl⟩

theorem noteSecure_state (s : State) (r : Req) (body : List Byte) : ∃ sec, noteSecure s r body = { s with sec := sec } := by
  unfold noteSecure
  split
  · exact ⟨_, rfl⟩
  · exact ⟨_, rfl⟩

/-- A reset that a host asks for waits for its answer. -/
theorem writeBlock_reset {x : Acc} {v : Word} (secure : x.secure = true) (device : bit v.toNat 0 = true) (s : State) :
    writeBlock x s 0xD0010 [v] = (dropCapture s x.who, 0, [(0xD0010, v)]) := by
  have waits : resetWrite s x 0xD0010 v = true := by
    have unlocked : regLocked s 0xD0010 = false := rfl
    simp [resetWrite, secure, unlocked, device]
  rw [writeBlock, if_pos waits]
  rfl

/-- The response to a write that resets. -/
def resetAnswer (r : Req) : Response := { reqId := r.reqId, op := 1, n := 1, status := 0, addr := r.addr, data := [] }

section
variable {r : Req} {v : Word} {y : Session} {s : State} (room : r.full = false) (addr : r.addr = 0xD0010) (device : bit v.toNat 0 = true)
  (new : ∀ x ∈ s.net.responses[r.host], x.reqId ≠ r.reqId) {body : List Byte} (session : secureSession s r body = some y)
include room addr device new session

/-- The answer to a new secure request for the device reset, and then the reset. -/
theorem mgmtCore_reset : mgmtCore s r 1 1 [v] true body =
    deviceReset (respond (dropCapture (noteSecure s r body) (.host r.host)) r (resetAnswer r)) 0x07 := by
  have unanswered : ((s.net.responses[r.host]).find? fun x => x.reqId == r.reqId) = none :=
    List.find?_eq_none.2 fun x mem same => new x mem (beq_iff_eq.1 same)
  have waits := writeBlock_reset (x := { who := .host r.host, session := true }) rfl device (noteSecure s r body)
  have resets := fun s : State => (writeReg_reset (s := s) (x := { who := .host r.host, session := true }) (v := v) rfl).trans (if_pos device)
  have at_ctrl : r.addr.toNat = 0xD0010 := congrArg BitVec.toNat addr
  have sound : ¬ (!true || 0xD0010 % 4 != 0 || decide (0xFFFFFFFC < 0xD0010 + 4 * (1 - 1))) = true := by decide
  have write : ¬ (1 % 2 = 0) := by decide
  simp only [mgmtCore, room, unanswered, at_ctrl, if_neg sound, if_neg write, session, Option.isSome_some, waits, List.foldl_cons,
    List.foldl_nil, resets, resetAnswer, Bool.false_eq_true, if_false]

end

theorem Answered.sent {h : Fin 8} {s t : State} (answered : Answered h s t) :
    ∃ d, t.net.sent = s.net.sent ++ [d] ∧ d.typ = 0x11 ∧ d.gen = s.net.gen ∧ d.dst = 1 + h.val := by
  obtain ⟨d, _, _, _, _, _, typ, gen, dst, rfl⟩ := answered
  exact ⟨d, rfl, typ, gen, dst⟩

/-- Of what an answer changes, a reset keeps nothing that AfterDeviceReset speaks of. -/
theorem Answered.afterDeviceReset {h : Fin 8} {s t u : State} {cause : Nat} (answered : Answered h s t) (after : AfterDeviceReset t u cause) :
    AfterDeviceReset s u cause := by
  obtain ⟨_, _, _, _, _, _, -, -, -, rfl⟩ := answered
  exact after

/-- Settles O60: by the world of the write, and for a host by the order of its answer and the reset. -/
theorem resetCommandsAreSecure : Obligations.ResetCommandsAreSecure := by
  unfold Obligations.ResetCommandsAreSecure
  refine ⟨?nonsecure, ?secure, ?host⟩
  case nonsecure =>
    intro s x v world
    exact ⟨writeReg_of_nonsecure rfl rfl rfl rfl world, writeReg_of_nonsecure rfl rfl rfl rfl world⟩
  case secure =>
    intro s x v world
    refine ⟨fun device => ?_, fun noDevice die => ?_, writeReg_pwr world⟩
    · rw [writeReg_reset world, writeReset, if_pos device]
    · rw [writeReg_reset world, writeReset, if_neg (Bool.eq_false_iff.1 noDevice), if_pos die]
  case host =>
    intro r v y s run live declared room plain addr device new session
    have arrives : (running s && portLive s r.port && decide (r.host.val < s.boot.hosts.length)) = true := by simp [run, live, declared]
    have written : mgmtIn s r 1 1 [v] true = _ := (if_pos arrives).trans (mgmtCore_reset room addr device new session)
    obtain ⟨sec, noted⟩ := noteSecure_state s r (reqBytes r 1 1 [v])
    rw [noted] at written
    have answered := respond_answers plain s sec (dropCapture s (.host r.host)).cap (resetAnswer r)
    obtain ⟨d, sent, typ, gen, dst⟩ := answered.sent
    exact ⟨_, d, congrArg Host.Outcome.next written, (deviceReset_sent ..).trans sent, typ, gen, dst,
      answered.afterDeviceReset (deviceReset_resets ..).1⟩

end Sys2Proof.Machine
end
